-- ==== Sys2Proof/Word.lean ====
section
/-!
DEFINITION. The word types of the device (R5, R6) and their plainest arithmetic.
-/
namespace Sys2Proof

/-- One byte. -/
abbrev Byte := BitVec 8

/-- One 32-bit register word (R677). -/
abbrev Word := BitVec 32

/-- Bits `[lo + w - 1 : lo]` of `x` as a number (R5). -/
def field (x lo w : Nat) : Nat := (x >>> lo) % 2 ^ w

/-- Bit `i` of `x`. -/
def bit (x i : Nat) : Bool := x.testBit i

/-- `x` with the bits `[lo + w - 1 : lo]` replaced by `v`. -/
def putField (x lo w v : Nat) : Nat :=
  x - (field x lo w) * 2 ^ lo + (v % 2 ^ w) * 2 ^ lo

/-- Ceiling division; a zero divisor gives zero. -/
def ceilDiv (a b : Nat) : Nat := (a + b - 1) / b

/-- Addition that saturates at the largest `w`-bit number. -/
def satAdd (w a b : Nat) : Nat := min (a + b) (2 ^ w - 1)

/-- The signed value of the low `w` bits of `x`. -/
def toSigned (w x : Nat) : Int :=
  let y := x % 2 ^ w
  if y < 2 ^ (w - 1) then (y : Int) else (y : Int) - 2 ^ w

/-- The low `w` bits of an integer in two's complement. -/
def ofSigned (w : Nat) (x : Int) : Nat := (x % (2 ^ w : Int)).toNat

/-- Set bit or clear bit as a number. -/
def b2n (b : Bool) : Nat := if b then 1 else 0

end Sys2Proof
end

