-- ==== Sys2Proof/Payload.lean ====
section
/-!
DEFINITION. What packets, messages and measured events carry: the items a rule names, as plain data. Where the spec gives no byte layout for
a packet, the items stand as they are. Commands take these as operands, and the device sends them.
-/
namespace Sys2Proof

/-! ### The matrix array and the SME -/

/-- A fault that a check meets in one run of a recompute unit (R177 to R181): the unit's number in drain order, the run (0 the first, 1 and 2 its reruns), which
check (1 residue, 2 checksum row, 3 checksum column, 4 parity), and the PE. For a checksum, the place of the column or row in the unit whose
total it predicts, and by how much prediction and total differ, `errM · 2^errE`. DESIGN CHOICE, log entry 1. -/
structure CheckFail where
  unit : Nat
  run : Nat
  check : Nat
  row : Nat
  col : Nat
  place : Nat := 0
  errM : Nat := 0
  errE : Int := 0
  /-- Of split-operand FP32, the pass that was checked, counted in the order of R169. -/
  pass : Nat := 0
deriving DecidableEq, Repr

/-- SME checks that failed (R240): row slab by row and N block, and how many runs failed. -/
structure SlabFail where
  row : Nat
  block : Nat
  runs : Nat
deriving DecidableEq, Repr

/-- How the SME's clocks per matched product compared with the array's over the segments near the threshold (R251). -/
inductive PathCompare where
  | smeSlower
  | smeFaster
  | same
deriving DecidableEq, Repr

/-! ### Sampling -/

/-- A remote sampling request (R292): requesting node and strand, GRAPH_ID, vertex, layer, fanout, mode, KEY, step. -/
structure SampReq where
  node : Nat
  strand : Nat
  graph : Nat
  v : Nat
  l : Nat
  fanout : Nat
  mode : Nat
  key : Nat
  step : Nat
deriving DecidableEq, Repr

/-- The answer to a remote sampling request (R293, R294): edges as source and edge identifier, or no row. -/
structure SampAns where
  strand : Nat
  l : Nat
  v : Nat
  edges : Option (List (Nat × Nat))
  poison : Bool := false
deriving DecidableEq, Repr

/-! ### Embedding tables -/

/-- One entry of a bag: number of its index word (or output row under SRC 1), position, row index, FP32 weight bits. -/
structure EmbEntry where
  word : Nat
  pos : Nat
  r : Nat
  w : Nat
deriving DecidableEq, Repr

/-- A table request (R313, R316): the group of a bag from a requester, or the read of one migrated row for a home node that pools it. -/
inductive EmbReq where
  | group (node strand group table bag bagFirst tag : Nat) (det : Bool) (entries : List EmbEntry)
  | row (node serve table r : Nat)
deriving DecidableEq, Repr

/-- A table answer (R314 to R320): the partial of a group with the entries served and the index words dropped, or one row's decoded FP32
values; none when the row is dropped. -/
inductive EmbAns where
  | group (node strand group served : Nat) (dropped : List Nat) (partialSum : List Nat) (poison : Bool)
  | row (serve r : Nat) (vals : Option (List Nat)) (poison : Bool)
deriving DecidableEq, Repr

/-- A bag gradient (R323): requester, table, bag, first bag, window tag and FP32 values. -/
structure BagGrad where
  node : Nat
  table : Nat
  bag : Nat
  bagFirst : Nat
  tag : Nat
  vals : List Nat
  poison : Bool := false
deriving DecidableEq, Repr

/-- A contribution to a row (R324): window, row, sort key, FP32 values, and the nodes its acknowledgement passes back through. -/
structure Contrib where
  table : Nat
  tag : Nat
  r : Nat
  key : List Nat
  vals : List Nat
  poison : Bool := false
  path : List Nat := []
deriving DecidableEq, Repr

/-- A migrating row copy (R334): the old owner, table, row, its slot there, and the bytes of header, values and state. -/
structure MigCopy where
  node : Nat
  table : Nat
  r : Nat
  oldSlot : Nat
  bytes : List Byte
  poison : Bool := false
deriving DecidableEq, Repr

/-- A migration notice (R334, R336): the drift entry that a migration committed. -/
structure MigNote where
  table : Nat
  r : Nat
  node : Nat
  slot : Nat
  oldNode : Nat
  oldSlot : Nat
  step : Nat
deriving DecidableEq, Repr

/-! ### Stash transfers -/

/-- A stash transfer at the twin (R426): bytes to write at an offset of the spare area, with the poisoned 64 B pieces by number, or a read. -/
inductive StashReq where
  | write (strand off : Nat) (bytes : List Byte) (poison : List Nat)
  | read (strand off len : Nat)
deriving DecidableEq, Repr

/-- What the twin sends back: an acknowledgement of a count of bytes, or data at an offset of the transfer. -/
inductive StashAns where
  | ack (strand len : Nat)
  | data (strand off : Nat) (bytes : List Byte) (poison : List Nat)
deriving DecidableEq, Repr

/-! ### Seif links -/

/-- A packet on a link (R528): its header fields, the CRC that it carries, and its data. -/
structure Packet where
  dst : Nat
  src : Nat
  wadi : Nat
  flow : Nat
  pin : Option Nat := none
  hopseq : Nat := 0
  kind : Nat := 0
  blocks : Nat := 0
  poison : Nat := 0
  tag : Nat := 0
  crc : Nat := 0
  data : List Byte := []
deriving DecidableEq, Repr

/-- A received data flit (R526): SEQ, wadi, class, first and last of its packet, and whether its header check holds. -/
structure Flit where
  seq : Nat
  wadi : Nat
  cls : Nat
  sop : Bool
  eop : Bool
  hchk : Bool := true
deriving DecidableEq, Repr

/-- The payload of a codeword on a port (R523): the 640 bytes of its five flits, and its codeword count. -/
structure Codeword where
  flits : List Byte
  count : Nat
deriving DecidableEq, Repr

/-! ### Collectives -/

/-- A collective data packet (R565): GROUP, TAG and EPOCH of its header, the fields of its collective block, its data, and which 64-byte data
blocks are poisoned (R530). -/
structure CollPkt where
  group : Nat
  tag : Nat
  epoch : Nat
  opcode : Nat
  det : Bool
  arith : Bool
  enc : Nat
  sender : Nat
  count : Nat
  segment : Nat
  level : Nat
  items : Nat
  thinK : Nat
  offset : Nat
  data : List Byte
  poison : Nat := 0
  /-- The wadi it travels on. -/
  wadi : Nat := 2
deriving DecidableEq, Repr

/-! ### Cluster time, transactions and the twin -/

/-- A time message (R46): the sender's cluster time, synchronisation state, hop count, and the node and role of the root it follows. -/
structure TimeMsg where
  time : Nat
  sync : Nat
  hops : Nat
  root : Nat
  rootRole : Nat
deriving DecidableEq, Repr

/-- A vote (R100, R649): group, transaction, voting node, COMMIT, and on a boundary transaction the frequency request in 25 MHz steps and the
COLD flag; `handBack` tells the leader that a hand-back fill has ended (R635). DEDUCED, log entry 73. -/
structure Vote where
  group : Nat
  txn : Nat
  node : Nat
  commit : Bool
  freq : Nat := 0
  cold : Bool := false
  handBack : Bool := false
deriving DecidableEq, Repr

/-- A decision (R101, R616, R649): group, transaction, COMMIT, publication time, decided frequency, and the restart number of an abort of a boundary
transaction. -/
structure Decision where
  group : Nat
  txn : Nat
  commit : Bool
  time : Nat
  freq : Nat := 0
  restart : Nat := 0
deriving DecidableEq, Repr

/-- A block sent to the twin (R605, R607, R633): the sender's address, its 64 bytes, poison, and its kind: 0 mirror, 1 staged for the boundary transaction,
2 mirror fill, 3 hand-back fill, 4 a write to the mirror area during a hand-back fill. -/
structure MirrorMsg where
  addr : Nat
  bytes : List Byte
  poison : Bool
  kind : Nat
deriving DecidableEq, Repr

/-- What twins exchange when a pair forms (R603, R721): MIRROR_K, BOUNDARY_ID, leader, group, identity public key, and whether the sender attaches as a
replacement (R633). -/
structure FormMsg where
  mirrorK : Nat
  boundary : Nat
  leader : Nat
  group : Nat
  key : List Byte
  attach : Bool := false
deriving DecidableEq, Repr

/-! ### Power -/

/-- What a droop sensor reports (R654): the quarter whose core rail it measures, and the voltage in mV. DESIGN CHOICE, log entry 1. -/
structure DroopReading where
  quarter : Nat
  mv : Nat
deriving DecidableEq, Repr

/-- What the MC measured over a control period (R639, R642, R648): package power and BASE in W, the demands of LINK, MEM and COMPUTE, and whether COMPUTE
was paced for the cap in more than 2% of it. DESIGN CHOICE, log entry 1. -/
structure PeriodMeasure where
  pkg : Nat
  base : Nat
  link : Nat
  mem : Nat
  compute : Nat
  paced : Bool := false
deriving DecidableEq, Repr

/-! ### Boot and the host link -/

/-- The part of SPI flash that the device reads (R708, R709, R711): whether it answers, flash header and firmware slots as bytes, and the bytes of each
copy of the repair record where it no longer holds what the device wrote. -/
structure Flash where
  answers : Bool := true
  header : List Byte := []
  slots : List (List Byte) := [[], []]
  copies : List (Option (List Byte)) := [none, none]
deriving DecidableEq, Repr

/-- What the board presents at a cold reset (R665, R695, R710, R744): highest sensor temperature in °C, whether power was removed, SMB_ADDR straps, TEST_MODE,
and the flash as the board left it. DESIGN CHOICE, log entry 96. -/
structure BoardPins where
  temp : Nat := 25
  powerLost : Bool := false
  smbAddr : Nat := 0
  testMode : Bool := false
  flash : Flash := {}
deriving DecidableEq, Repr

/-- What stage 1 measures (R700): every rail in mV in the order of R735, the ppm between SYS_REFCLK and PCIE_REFCLK, and the ppm of each against TREF_CLK
when that is present. DESIGN CHOICE, log entry 96. -/
structure SupplyCheck where
  rails : List Nat
  between : Nat
  tref : Option (Nat × Nat) := none
deriving DecidableEq, Repr

/-- What the tests of boot stages 2 to 9 find (R701 to R706): an inconsistent fuse word, a failing logic signature as (quarter << 1) | die, a failing
register-file or SRAM cell, failing rows of Erg macros as (quarter, macro, rows), failing lanes by device channel, failing DRAM rows as (channel,
bank, row), ports whose loopback mismatches, laser inputs without light, and a code of firmware that stopped. -/
structure BootTests where
  fuse : Option Nat := none
  logic : Option Nat := none
  cell : Option Nat := none
  macros : List (Nat × Nat × Nat) := []
  lanes : List (Nat × List Nat) := []
  rows : List (Nat × Nat × Nat) := []
  loopback : List Nat := []
  dark : List Nat := []
  stopped : Option Nat := none
deriving DecidableEq, Repr

/-- A PCIe link partner (R672, R673): rates it offers by the codes of HOST_LINK.SPEED (2 is 5.0 GT/s, 3 is 8.0 GT/s), widths, flit mode, and whether
the lanes are reversed. -/
structure PciePartner where
  rates : List Nat
  widths : List Nat
  flit : Bool := true
  reversed : Bool := false
deriving DecidableEq, Repr

/-- What the host's configuration writes set in the function (R671, R678, R684, R686): Bus Master Enable, Max_Payload_Size and Max_Read_Request_Size in bytes,
MSI-X Enable and function mask, log2 of the BAR 2 size. -/
structure PcieConfig where
  bme : Bool := false
  mps : Nat := 128
  mrrs : Nat := 512
  msixEn : Bool := false
  fmask : Bool := false
  bar2 : Nat := 28
deriving DecidableEq, Repr

/-! ### Messages -/

/-- What a packet or message that this device sends holds. -/
inductive Body where
  | sampleRequest (r : SampReq)
  | sampleAnswer (r : SampAns)
  | embRequest (r : EmbReq)
  | embAnswer (r : EmbAns)
  | bagGrad (g : BagGrad)
  | embFlush (table tag : Nat)
  | contrib (c : Contrib)
  | contribAck (table tag : Nat) (path : List Nat)
  | forwardFlush (table tag : Nat)
  | migCopy (m : MigCopy)
  | migCopyAck (table r slot : Nat)
  | migVerdict (table r : Nat) (ready : Bool)
  | migNotice (n : MigNote)
  /-- The window loads of a part of the tree on their way up, as their sum and the lowest of them, and the mean with the least-loaded nodes that the root
  broadcasts (R333). -/
  | windowLoad (sum : Nat) (low : List (Nat × Nat × List (Nat × Nat)))
  | windowMean (mean : Nat) (low : List (Nat × Nat × List (Nat × Nat)))
  | stashRequest (r : StashReq)
  | stashAnswer (r : StashAns)
  | spareAnnounce (units : Nat)
  /-- A PCIe memory write of stashed bytes, EP set when poisoned (R427, R428). -/
  | pcieWrite (addr : Nat) (bytes : List Byte) (ep : Bool)
  /-- A PCIe memory read for an ACT_FETCH of a strand (R427). -/
  | pcieRead (addr len strand off : Nat)
  /-- A packet forwarded on a port (R542). -/
  | packet (p : Packet)
  /-- An unreachable notice for a source's packet (R548). -/
  | unreachable (dst wadi tag : Nat)
  /-- Link control messages (R527), and the abort-end flit of a wadi (R537). -/
  | linkAck (seq : Nat)
  | linkNak (seq : Nat)
  | linkCredit (wadi cls flits : Nat)
  | linkHeartbeat (node port : Nat)
  | linkIdent (node port : Nat) (twin : Bool)
  | abortEnd (wadi : Nat)
  | collData (p : CollPkt)
  | collAbort (group tag : Nat)
  | permuteAck (group tag bytes : Nat)
  | timeMessage (t : TimeMsg)
  | vote (v : Vote)
  | decision (d : Decision)
  /-- The decision that a coordinator's twin keeps, and the twin's acknowledgement of it (R615). -/
  | decisionToTwin (d : Decision)
  | decisionAck (group txn : Nat)
  | mirrorBlock (m : MirrorMsg)
  | mirrorAck (addr kind : Nat)
  | mirrorResend (addr : Nat)
  | restartReady (node number : Nat)
  | restartStart (number time : Nat)
  | jobStop
  | twinHeartbeat
  | resign
  | failoverReq (lost stand : Nat) (formed : Bool)
  | failoverRefused (lost stand : Nat)
  | failover (lost stand number : Nat)
  | handback (lost stand number : Nat)
  | formExchange (f : FormMsg)
  /-- An MSI-X message: its table entry's address and data (R686). -/
  | msix (vector addr data : Nat)
  /-- A completion of a host read: its tag, data and EP (R682, R683). -/
  | readCompletion (tag : Nat) (data : List Byte) (ep : Bool)
  /-- An Unsupported Request completion (R675). -/
  | unsupported (tag : Nat)
  /-- The bytes the device answers to an SMBus block read (R707). -/
  | smbus (data : List Byte)
  /-- A cluster-time step of a fresh value, or an AVSBus voltage write (R738): bus, rail and millivolts. -/
  | avsWrite (bus rail mv : Nat)
deriving DecidableEq, Repr

/-- A message: destination node, wadi, contents, sender. DESIGN CHOICE, log entry 97. -/
structure Msg where
  dst : Nat
  wadi : Nat
  body : Body
  /-- The strand whose descriptor sends it. -/
  strand : Option Nat := none
  /-- FLOW of its packets (R528), where a rule gives it. -/
  flow : Option Nat := none
  /-- SRC of its packets when a strand of an adopted node sends it (R627). -/
  src : Option Nat := none
  /-- The Seif port it leaves on, once it has left. -/
  port : Option Nat := none
  /-- HOPSEQ of its packet, once it is queued at a port (R535). -/
  hopseq : Option Nat := none
  /-- Whether its port transmits into its own receiver (R555). -/
  loop : Bool := false
deriving DecidableEq, Repr

end Sys2Proof
end

