-- ==== Sys2Proof/Syntax.lean ====
section
/-!
DEFINITION. The commands of the block: one constructor for each row of spec/opcode_table.json, in the order of the table, those that carry
nothing last, with what the command carries. A command of a descriptor carries its strand: the descriptor itself stands in the strand. Where an operand is what a test, a check, a
link partner or the board found or sent, it stands as an operand, because no rule computes it.
-/
namespace Sys2Proof

/-- A command: a write or a read of a register, an event of a clock or a pin, a message that arrives, a descriptor or a lane instruction. -/
inductive Instr where
  /-- `COLD_RESET` (R695): PWRGD or CRST_N low starts cold reset; on release the boot sequence runs its stages toward READY or FAILED. -/
  | coldReset (pins : BoardPins)
  /-- `SUPPLY_CHECK` (R700): Stage 1 check of rails and reference clocks, repeated every 10 ms until it passes or fails 10 times. -/
  | supplyCheck (check : SupplyCheck) (tests : BootTests)
  /-- `READY` (R715): The device reaches READY, locks the boot page and applies the image's fuse requests. -/
  | ready (ms : Nat)
  /-- `PCIE_LINK_TRAIN` (R672): Once PERST_N is high the PCIe link trains at the highest common rate and width. -/
  | pcieLinkTrain (partner : PciePartner) (config : PcieConfig)
  /-- `UNSUPPORTED_REQUEST` (R675): An I/O, AtomicOp, locked or unmapped memory request completes with Unsupported Request and is logged in AER. -/
  | unsupportedRequest (tag : Option Nat)
  /-- `HOST_MEMORY_WRITE` (R680): A host posted write through BAR 2 or BAR 4 takes effect in arrival order, mirrored and journaled. -/
  | hostMemoryWrite (bar4 : Bool) (off : Nat) (bytes : List Byte) (ep ecrcBad : Bool)
  /-- `HOST_MEMORY_READ` (R682): A host read through BAR 2 or BAR 4 returns its completion within 1 ms, with EP set for poisoned data. -/
  | hostMemoryRead (bar4 : Bool) (off len tag : Nat)
  /-- `REGISTER_WRITE` (R12): A write to a register field without behaviour of its own acts by its access type and lock. -/
  | registerWrite (off value enables : Nat)
  /-- `LATCHED_LO_READ` (R767): A read of a _LO register latches its _HI register for that reader. -/
  | latchedLoRead (reader off tag : Nat)
  /-- `LOCK` (R13): A write of 1 to LOCK sets the page's lock bit until cold or warm reset. -/
  | lock (page : Nat)
  /-- `CLR_COUNTS` (R763): CLR_COUNTS clears the page's saturating and 64-bit counters and ERR_COUNT at one clock. -/
  | clrCounts (page : Nat)
  /-- `INT_FORCE` (R762): A write to INT_FORCE sets the named INT_STATUS bits for test. -/
  | intForce (page bits : Nat)
  /-- `HOST_IRQ_EOI` (R686): A write to HOST_IRQ_EOI re-evaluates vectors and resends a message for a still pending condition. -/
  | hostIrqEoi (high : Bool) (vectors : Nat)
  /-- `WATCH_FIRE` (R687): An armed event watch whose counter reaches THRESH fires, sets its status bit and clears ARM. -/
  | watchFire (watch : Nat)
  /-- `ATTEST_DONE` (R720): The MC writes the signed report to the window, sets LENGTH and DONE or FAIL and raises ATTEST. -/
  | attestDone (ok : Bool)
  /-- `OWNER_PROG` (R718): SEC_OWNER_PROG.GO requests programming or revoking an owner slot or retiring the device. -/
  | ownerProg (slot op : Nat)
  /-- `SMBUS_ADDR` (R707): SMBus command 0x10 sets the BAR 0 offset for command 0x11. -/
  | smbusAddr (off : Nat)
  /-- `TIME_MESSAGE_SEND` (R46): Each trained port sends a time message on wadi 1 once per microsecond. -/
  | timeMessageSend (port : Nat)
  /-- `TIME_MESSAGE_RECEIVE` (R51): A received time message updates the offset, parent choice and ACQUIRE or LOCKED state. -/
  | timeMessageReceive (port : Nat) (msg : TimeMsg) (offset : Int)
  /-- `ROOT_YIELD` (R55): A root that hears a higher-ranking root stops acting as root within 1 µs and sets ROOT_CONFLICT. -/
  | rootYield (port : Nat)
  /-- `TREF_PPS_EDGE` (R46): A TREF_PPS rising edge steers a disciplined root toward the whole second and checks REF_OK. -/
  | trefPpsEdge (cycles : Nat) (clk : Bool)
  /-- `CT_SET_HI` (R56): A write to CT_SET_HI on a root with no strand started arms the cluster-time load. -/
  | ctSetHi (value : Nat)
  /-- `ROOT_LOSS` (R54): 1 ms without a time message from the root makes the best backup the root. -/
  | rootLoss (others : List (Nat × Nat))
  /-- `START` (R88): CP_STRAND_CTRL.START starts an IDLE, HALTED or FAULTED strand at CP_STRAND_START_AT. -/
  | start (strand haltOnErr quarter : Nat)
  /-- `STOP` (R85): CP_STRAND_CTRL.STOP halts the strand after its current descriptor. -/
  | stop (strand : Nat)
  /-- `ABORT` (R85): CP_STRAND_CTRL.ABORT cancels the current descriptor and halts the strand. -/
  | abort (strand : Nat)
  /-- `CP_EVENT_VALUE` (R89): A write to CP_EVENT_VALUE sets the selected event counter. -/
  | cpEventValue (value : Nat)
  /-- `CP_EVENT_ADD` (R89): A write to CP_EVENT_ADD adds the value to the selected counter, saturating. -/
  | cpEventAdd (value : Nat)
  /-- `DESCRIPTOR_FETCH` (R76): A strand fetches its next 64-byte descriptor and begins its header processing. -/
  | descriptorFetch (strand : Nat)
  /-- `WAIT_TIME_END` (R76): Cluster time reaches START_TIME plus any stagger offset and the descriptor leaves WAIT_TIME. -/
  | waitTimeEnd (strand : Nat)
  /-- `EVENT_WAIT_SATISFIED` (R73): An event counter reaches WAIT_COUNT and is reduced atomically, releasing the waiting descriptor. -/
  | eventWaitSatisfied (strand : Nat)
  /-- `DESCRIPTOR_TIMEOUT` (R76): A descriptor's timeout expires and it completes with 0x20, or 0x21 for TXN_COMMIT. -/
  | descriptorTimeout (strand : Nat)
  /-- `DESCRIPTOR_COMPLETE` (R77): A descriptor completes: record, swaps, signal, and halt on error in that order. -/
  | descriptorComplete (strand : Nat)
  /-- `STRAND_WATCHDOG` (R86): A strand completing no descriptor for STRAND_WDOG ms is cancelled and faults. -/
  | strandWatchdog (strand : Nat)
  /-- `NOP` (R79): Descriptor 0x00 acts only through its header. -/
  | nop (strand : Nat)
  /-- `JUMP` (R79): Descriptor 0x01 sets the next descriptor to TARGET. -/
  | jump (strand : Nat)
  /-- `LOOP` (R80): Descriptor 0x02 counts its loop level and jumps or falls through. -/
  | loop (strand : Nat)
  /-- `HALT` (R79): Descriptor 0x03 halts the strand with HALT_REASON 1. -/
  | halt (strand : Nat)
  /-- `EVENT_SET` (R79): Descriptor 0x04 sets a range of event counters to VALUE at one clock. -/
  | eventSet (strand : Nat)
  /-- `STEP_MARK` (R79): Descriptor 0x05 increments CP_STRAND_STEPS and restarts the step watchdog. -/
  | stepMark (strand : Nat)
  /-- `TXN_PREPARE` (R100): Descriptor 0x06 waits for its members and sends the coordinator a vote, then stays prepared. -/
  | txnPrepare (strand : Nat)
  /-- `TXN_COMMIT` (R96): Descriptor 0x07 commits a transaction locally or coordinates a global commit. -/
  | txnCommit (strand : Nat)
  /-- `TXN_ABORT` (R79): Descriptor 0x08 marks an open transaction aborted. -/
  | txnAbort (strand : Nat)
  /-- `STORE_IMM` (R81): Descriptor 0x0A writes up to three 64-bit values, dropping disallowed register writes. -/
  | storeImm (strand : Nat)
  /-- `STRAND_START` (R79): Descriptor 0x0B starts an IDLE, HALTED or FAULTED strand. -/
  | strandStart (strand : Nat)
  /-- `TXN_VOTE` (R101): A vote arriving at the coordinator counts toward its decision. -/
  | txnVote (vote : Vote)
  /-- `TXN_DECISION` (R102): A commit or abort decision arriving at a participant publishes at T or discards. -/
  | txnDecision (src : Nat) (dec : Decision) (toTwin : Bool)
  /-- `DECISION_ACK` (R615): The twin's acknowledgement of a coordinator decision lets it send the decision to the other voters. -/
  | decisionAck (group txn : Nat)
  /-- `ARM_TIME` (R108): SHADOW_CTRL.ARM_TIME latches the shadow time and arms a timed swap. -/
  | armTime (page word : Nat)
  /-- `ARM_DESC` (R106): SHADOW_CTRL.ARM_DESC arms a swap at the next SWAP_AFTER descriptor of STRAND. -/
  | armDesc (page word : Nat)
  /-- `SWAP_NOW` (R106): SHADOW_CTRL.SWAP_NOW swaps the page's shadow set at once. -/
  | swapNow (page word : Nat)
  /-- `DISARM` (R108): SHADOW_CTRL.DISARM clears both arms before the arm bits of the same write. -/
  | disarm (page word : Nat)
  /-- `SHADOW_SWAP` (R106): An armed trigger fires and copies the shadow set into the active set, clearing both arms. -/
  | shadowSwap (page : Nat)
  /-- `MATMUL` (R159): Descriptor 0x10 runs a matrix product on the quarter's array. -/
  | matmul (strand : Nat) (fails : List CheckFail)
  /-- `SPMM` (R229): Descriptor 0x18 multiplies a sparse A by B on the array or SME per segment. -/
  | spmm (strand : Nat) (fails : List CheckFail) (slabs : List SlabFail)
  /-- `MATMUL_S28` (R243): Descriptor 0x19 runs a product with 2-of-8 compressed B. -/
  | matmulS28 (strand : Nat) (fails : List CheckFail)
  /-- `SP_CONVERT` (R247): Descriptor 0x1A converts an operand between storage forms. -/
  | spConvert (strand : Nat)
  /-- `THRESH_TUNE` (R251): Every 4 steps the MC adjusts the dense-versus-sparse threshold. -/
  | threshTune (quarter : Nat) (cmp : PathCompare)
  /-- `SAMPLE` (R278): Descriptor 0x40 samples a layered neighbourhood and writes the sample log. -/
  | sample (strand : Nat)
  /-- `SAMPLE_REMOTE_REQUEST` (R293): An owner receives a remote sampling request and answers with the drawn edges or no row. -/
  | sampleRemoteRequest (dst wadi : Nat) (req : SampReq)
  /-- `SAMPLE_REMOTE_ANSWER` (R294): A requester receives a remote sampling answer and takes or drops the vertex. -/
  | sampleRemoteAnswer (dst : Nat) (ans : SampAns)
  /-- `EMB_LOOKUP` (R311): Descriptor 0x30 sends bag groups to serving nodes and pools the returned partials. -/
  | embLookup (strand : Nat)
  /-- `EMB_LOOKUP_REQUEST` (R314): A serving node receives a group, forms its partial, logs each entry and answers or forwards. -/
  | embLookupRequest (dst : Nat) (req : EmbReq)
  /-- `EMB_LOOKUP_ANSWER` (R315): A requester receives a group's partial and adds it into the pooled row. -/
  | embLookupAnswer (dst src : Nat) (ans : EmbAns)
  /-- `EMB_GRAD` (R323): Descriptor 0x31 sends bag gradients to pooling nodes and then FLUSH markers. -/
  | embGrad (strand : Nat)
  /-- `EMB_BAG_GRADIENT` (R324): A pooling node receives a bag gradient and sends per-entry contributions to owners. -/
  | embBagGradient (dst : Nat) (grad : BagGrad)
  /-- `EMB_CONTRIBUTION` (R326): An owner receives a contribution into its coalescing buffer and acknowledges it. -/
  | embContribution (dst : Nat) (contrib : Contrib)
  /-- `EMB_FLUSH` (R325): A FLUSH marker for a window arrives at an owner-set node. -/
  | embFlush (dst src table tag : Nat)
  /-- `UPDATE_WINDOW_STAGE_1` (R325): Stage 1 of a window closes once flushes and expansions and acknowledgements are done, sending FORWARD_FLUSH. -/
  | updateWindowStage1 (strand : Nat)
  /-- `EMB_FORWARD_FLUSH` (R325): A FORWARD_FLUSH marker arrives at an owner-set node. -/
  | embForwardFlush (dst src table tag : Nat)
  /-- `UPDATE_WINDOW_STAGE_2` (R328): Stage 2 of a window closes once all FORWARD_FLUSH markers arrived, releasing EMB_UPDATE. -/
  | updateWindowStage2 (strand : Nat)
  /-- `EMB_UPDATE` (R328): Descriptor 0x32 applies one read-modify-write per contributed row. -/
  | embUpdate (strand : Nat)
  /-- `EMB_SYNC` (R335): Descriptor 0x33 stages migration verdicts, commits and adoptions in the boundary transaction. -/
  | embSync (strand : Nat)
  /-- `MIGRATION_SELECT` (R333): At each window boundary the MCs reduce loads and select hot rows to migrate. -/
  | migrationSelect (mean : Nat) (low : List (Nat × Nat × List (Nat × Nat)))
  /-- `MIGRATION_COPY` (R334): A new owner receives a migrating row copy and acknowledges it. -/
  | migrationCopy (dst : Nat) (msg : MigCopy)
  /-- `MIGRATION_VERDICT` (R334): A new owner receives READY or NOT_YET for a pending migration. -/
  | migrationVerdict (table row : Nat) (isReady : Bool)
  /-- `MIGRATION_NOTICE` (R336): A node receives a migration notice to adopt at its next EMB_SYNC. -/
  | migrationNotice (dst : Nat) (note : MigNote)
  /-- `FORWARD_END` (R334): After FWD_STEPS boundaries the old owner frees OLD_SLOT and sets the entry ACTIVE. -/
  | forwardEnd (table row : Nat)
  /-- `LANE_LAUNCH` (R345): Descriptor 0x50 launches thread groups on the lane processors. -/
  | laneLaunch (strand : Nat)
  /-- `GROUP_DISPATCH` (R346): A thread group is dispatched to the next processor with a free slot. -/
  | groupDispatch (strand : Nat)
  /-- `DEFERRED_ADD_APPLY` (R359): After the last group exits, logged floating-point adds apply in ascending key. -/
  | deferredAddApply (strand : Nat)
  /-- `LANE_SAVE` (R364): Descriptor 0x51 stops a running launch and writes its context image. -/
  | laneSave (strand : Nat)
  /-- `LANE_RESTORE` (R369): Descriptor 0x52 reloads a context image and continues the launch, or refuses with 0x60. -/
  | laneRestore (strand : Nat)
  /-- `ADD` (R380): Lane op: floating-point a + b. -/
  | add (strand group fails : Nat)
  /-- `SUB` (R380): Lane op: floating-point a − b. -/
  | sub (strand group fails : Nat)
  /-- `MUL` (R380): Lane op: floating-point a × b. -/
  | mul (strand group fails : Nat)
  /-- `FMA` (R380): Lane op: fused a × b + c. -/
  | fma (strand group fails : Nat)
  /-- `FMS` (R380): Lane op: fused a × b − c. -/
  | fms (strand group fails : Nat)
  /-- `DIV` (R380): Lane op: floating-point a / b. -/
  | div (strand group fails : Nat)
  /-- `SQRT` (R380): Lane op: square root of a. -/
  | sqrt (strand group fails : Nat)
  /-- `MIN` (R380): Lane op: minimumNumber. -/
  | min (strand group fails : Nat)
  /-- `MAX` (R380): Lane op: maximumNumber. -/
  | max (strand group fails : Nat)
  /-- `ABS` (R383): Lane op: clear the sign bit. -/
  | abs (strand group fails : Nat)
  /-- `NEG` (R383): Lane op: invert the sign bit. -/
  | neg (strand group fails : Nat)
  /-- `EXP2` (R382): Lane op: correctly rounded 2^a in FP32. -/
  | exp2 (strand group fails : Nat)
  /-- `LOG2` (R382): Lane op: correctly rounded log2 a in FP32. -/
  | log2 (strand group fails : Nat)
  /-- `RSQRT` (R382): Lane op: correctly rounded 1/√a in FP32. -/
  | rsqrt (strand group fails : Nat)
  /-- `IADD` (R384): Vector integer add. -/
  | iadd (strand group fails : Nat)
  /-- `ISUB` (R384): Vector integer subtract. -/
  | isub (strand group fails : Nat)
  /-- `IMUL` (R384): Vector integer low multiply. -/
  | imul (strand group fails : Nat)
  /-- `IMACC` (R384): Vector integer multiply-accumulate. -/
  | imacc (strand group fails : Nat)
  /-- `IHIGH` (R384): Vector high 32 bits of the unsigned product. -/
  | ihigh (strand group fails : Nat)
  /-- `AND` (R384): Vector bitwise AND. -/
  | and (strand group fails : Nat)
  /-- `OR` (R384): Vector bitwise OR. -/
  | or (strand group fails : Nat)
  /-- `XOR` (R384): Vector bitwise XOR. -/
  | xor (strand group fails : Nat)
  /-- `SHL` (R384): Vector shift left. -/
  | shl (strand group fails : Nat)
  /-- `SHR` (R384): Vector logical shift right. -/
  | shr (strand group fails : Nat)
  /-- `SAR` (R384): Vector arithmetic shift right. -/
  | sar (strand group fails : Nat)
  /-- `IMIN` (R384): Vector signed minimum. -/
  | imin (strand group fails : Nat)
  /-- `IMAX` (R384): Vector signed maximum. -/
  | imax (strand group fails : Nat)
  /-- `BITCNT` (R384): Vector population count. -/
  | bitcnt (strand group fails : Nat)
  /-- `INSHI` (R384): Vector insert IMM into bits [31:16]. -/
  | inshi (strand group fails : Nat)
  /-- `MOV` (R384): Vector move of source 2. -/
  | mov (strand group fails : Nat)
  /-- `SCALAR_IADD` (R384): Group 9 scalar integer add. -/
  | scalarIadd (strand group fails : Nat)
  /-- `SCALAR_ISUB` (R384): Group 9 scalar integer subtract. -/
  | scalarIsub (strand group fails : Nat)
  /-- `SCALAR_IMUL` (R384): Group 9 scalar low multiply. -/
  | scalarImul (strand group fails : Nat)
  /-- `SCALAR_IMACC` (R384): Group 9 scalar multiply-accumulate. -/
  | scalarImacc (strand group fails : Nat)
  /-- `SCALAR_IHIGH` (R384): Group 9 scalar high product. -/
  | scalarIhigh (strand group fails : Nat)
  /-- `SCALAR_AND` (R384): Group 9 scalar AND. -/
  | scalarAnd (strand group fails : Nat)
  /-- `SCALAR_OR` (R384): Group 9 scalar OR. -/
  | scalarOr (strand group fails : Nat)
  /-- `SCALAR_XOR` (R384): Group 9 scalar XOR. -/
  | scalarXor (strand group fails : Nat)
  /-- `SCALAR_SHL` (R384): Group 9 scalar shift left. -/
  | scalarShl (strand group fails : Nat)
  /-- `SCALAR_SHR` (R384): Group 9 scalar logical shift right. -/
  | scalarShr (strand group fails : Nat)
  /-- `SCALAR_SAR` (R384): Group 9 scalar arithmetic shift right. -/
  | scalarSar (strand group fails : Nat)
  /-- `SCALAR_IMIN` (R384): Group 9 scalar signed minimum. -/
  | scalarImin (strand group fails : Nat)
  /-- `SCALAR_IMAX` (R384): Group 9 scalar signed maximum. -/
  | scalarImax (strand group fails : Nat)
  /-- `SCALAR_BITCNT` (R384): Group 9 scalar population count. -/
  | scalarBitcnt (strand group fails : Nat)
  /-- `SCALAR_INSHI` (R384): Group 9 scalar insert into bits [31:16]. -/
  | scalarInshi (strand group fails : Nat)
  /-- `SCALAR_MOV` (R384): Group 9 scalar move. -/
  | scalarMov (strand group fails : Nat)
  /-- `CVT` (R387): Lane conversion between formats. -/
  | cvt (strand group fails : Nat)
  /-- `I2F` (R387): Lane signed integer to format FMT. -/
  | i2f (strand group fails : Nat)
  /-- `U2F` (R387): Lane unsigned integer to format FMT. -/
  | u2f (strand group fails : Nat)
  /-- `F2I` (R387): Lane format FMT to signed integer. -/
  | f2i (strand group fails : Nat)
  /-- `F2U` (R387): Lane format FMT to unsigned integer. -/
  | f2u (strand group fails : Nat)
  /-- `FEQ` (R390): Quiet floating equal compare into a predicate. -/
  | feq (strand group fails : Nat)
  /-- `FLT` (R390): Quiet floating less compare. -/
  | flt (strand group fails : Nat)
  /-- `FLE` (R390): Quiet floating less-or-equal compare. -/
  | fle (strand group fails : Nat)
  /-- `FNE` (R390): Quiet floating not-equal compare. -/
  | fne (strand group fails : Nat)
  /-- `FUN` (R390): Quiet floating unordered compare. -/
  | fun (strand group fails : Nat)
  /-- `IEQ` (R390): Integer equal compare. -/
  | ieq (strand group fails : Nat)
  /-- `ILT` (R390): Signed integer less compare. -/
  | ilt (strand group fails : Nat)
  /-- `ILTU` (R390): Unsigned integer less compare. -/
  | iltu (strand group fails : Nat)
  /-- `SEL` (R390): Select a or b by predicate. -/
  | sel (strand group fails : Nat)
  /-- `PAND` (R390): Predicate AND. -/
  | pand (strand group fails : Nat)
  /-- `POR` (R390): Predicate OR. -/
  | por (strand group fails : Nat)
  /-- `PXOR` (R390): Predicate XOR. -/
  | pxor (strand group fails : Nat)
  /-- `PANDN` (R390): Predicate AND-NOT. -/
  | pandn (strand group fails : Nat)
  /-- `P2S` (R390): Copy a predicate to a scalar register. -/
  | p2s (strand group fails : Nat)
  /-- `S2P` (R390): Copy a scalar register to a predicate. -/
  | s2p (strand group fails : Nat)
  /-- `LD` (R391): Lane load from a local address. -/
  | ld (strand group fails : Nat)
  /-- `ST` (R391): Lane store to a local address. -/
  | st (strand group fails : Nat)
  /-- `LDE` (R391): Lane load from an Erg offset. -/
  | lde (strand group fails : Nat)
  /-- `STE` (R391): Lane store to an Erg offset. -/
  | ste (strand group fails : Nat)
  /-- `LDS` (R391): Group-wide scalar load from a local address. -/
  | lds (strand group fails : Nat)
  /-- `LDSE` (R391): Group-wide scalar load from an Erg offset. -/
  | ldse (strand group fails : Nat)
  /-- `FENCE` (R356): Lane ordering point for loads and stores. -/
  | fence (strand group fails : Nat)
  /-- `XL_PICK` (R395): Read a of thread b. -/
  | xlPick (strand group fails : Nat)
  /-- `XL_LAG` (R395): Read a of thread t − b or fill. -/
  | xlLag (strand group fails : Nat)
  /-- `XL_LEAD` (R395): Read a of thread t + b or fill. -/
  | xlLead (strand group fails : Nat)
  /-- `XL_SWAP` (R395): Read a of thread t xor b. -/
  | xlSwap (strand group fails : Nat)
  /-- `XL_FSUM` (R396): Floating sum over the group by pairwise tree. -/
  | xlFsum (strand group fails : Nat)
  /-- `XL_FMIN` (R396): Floating minimum over the group. -/
  | xlFmin (strand group fails : Nat)
  /-- `XL_FMAX` (R396): Floating maximum over the group. -/
  | xlFmax (strand group fails : Nat)
  /-- `XL_FPRE` (R396): Inclusive floating prefix sum. -/
  | xlFpre (strand group fails : Nat)
  /-- `XL_ISUM` (R396): Integer sum over the group. -/
  | xlIsum (strand group fails : Nat)
  /-- `XL_IPRE` (R396): Inclusive integer prefix sum. -/
  | xlIpre (strand group fails : Nat)
  /-- `XL_VOTE` (R395): Vote of enabled non-zero threads into a scalar. -/
  | xlVote (strand group fails : Nat)
  /-- `XL_READ` (R395): Read a of one thread into a scalar. -/
  | xlRead (strand group fails : Nat)
  /-- `RNDP` (R397): Position-keyed draw for the launch key and counter. -/
  | rndp (strand group fails : Nat)
  /-- `RNDL` (R397): Next state of the lane-keyed generator. -/
  | rndl (strand group fails : Nat)
  /-- `RNDU` (R397): Uniform FP32 in [0, 1) from a draw. -/
  | rndu (strand group fails : Nat)
  /-- `RNDB` (R397): Bernoulli predicate from a draw. -/
  | rndb (strand group fails : Nat)
  /-- `AADD_I` (R398): Integer atomic add at a local address. -/
  | aaddI (strand group fails : Nat)
  /-- `AADD_F` (R398): Floating atomic add at a local address, deferred under DET 1. -/
  | aaddF (strand group fails : Nat)
  /-- `AADDE_I` (R398): Integer atomic add at an Erg offset. -/
  | aaddeI (strand group fails : Nat)
  /-- `AADDE_F` (R398): Floating atomic add at an Erg offset. -/
  | aaddeF (strand group fails : Nat)
  /-- `BRA` (R400): Predicated branch with divergence push. -/
  | bra (strand group fails : Nat)
  /-- `JMP` (R399): Unconditional relative jump of active threads. -/
  | jmp (strand group fails : Nat)
  /-- `JMPS` (R399): Jump of active threads to a scalar index. -/
  | jmps (strand group fails : Nat)
  /-- `EXIT` (R400): Enabled threads exit. -/
  | exit (strand group fails : Nat)
  /-- `LANE_NOP` (R399): Lane no-operation. -/
  | laneNop (strand group fails : Nat)
  /-- `FLAGS_RD` (R399): Read the exception word into a scalar. -/
  | flagsRd (strand group fails : Nat)
  /-- `FLAGS_CLR` (R399): Clear exception word bits named by IMM. -/
  | flagsClr (strand group fails : Nat)
  /-- `ACT_STASH` (R423): Descriptor 0x7E moves activations to the local, twin or host stash area. -/
  | actStash (strand : Nat)
  /-- `ACT_FETCH` (R423): Descriptor 0x7F moves activations back from a stash area. -/
  | actFetch (strand : Nat)
  /-- `SPARE_ANNOUNCE` (R430): A twin's spare-area announcement arrives and updates TRN_TWIN_SPARE. -/
  | spareAnnounce (units : Nat)
  /-- `RNG_ROUND` (R448): Descriptor 0x80 sets the strand's rounding context. -/
  | rngRound (strand : Nat)
  /-- `RNG_DERIVE` (R448): Descriptor 0x81 writes a derived key to memory. -/
  | rngDerive (strand : Nat)
  /-- `RNG_FILL` (R449): Descriptor 0x82 fills memory with uniform or normal values. -/
  | rngFill (strand : Nat)
  /-- `RNG_LANE_SEED` (R450): Descriptor 0x83 holds dispatch, waits for idle lanes and seeds every lane-keyed generator. -/
  | rngLaneSeed (strand : Nat)
  /-- `COPY` (R473): Descriptor 0x70 copies rows of bytes. -/
  | copy (strand : Nat)
  /-- `FILL` (R473): Descriptor 0x71 fills a range with an 8-byte pattern. -/
  | fill (strand : Nat)
  /-- `PREFETCH` (R474): CACHE_OP 0 fetches absent lines with a hint. -/
  | prefetch (strand : Nat)
  /-- `WRITEBACK` (R474): CACHE_OP 1 writes dirty sectors and keeps the lines. -/
  | writeback (strand : Nat)
  /-- `DISCARD` (R474): CACHE_OP 2 invalidates lines wholly inside the range without write-back. -/
  | discard (strand : Nat)
  /-- `UNPIN` (R474): CACHE_OP 3 sets every KEEP line to hint 0. -/
  | unpin (strand : Nat)
  /-- `SET_HINT` (R474): CACHE_OP 4 sets hint and count of present lines. -/
  | setHint (strand : Nat)
  /-- `SKEW` (R476): Descriptor 0x73 writes an operand layout from a row-major matrix. -/
  | skew (strand : Nat)
  /-- `ALLREDUCE` (R570): Descriptor 0x60 sums SRC over all members into DST. -/
  | allreduce (strand : Nat)
  /-- `REDUCE_SCATTER` (R570): Descriptor 0x61 gives each member its shard of the sum. -/
  | reduceScatter (strand : Nat)
  /-- `ALLGATHER` (R576): Descriptor 0x62 gathers every member's shard in wire format. -/
  | allgather (strand : Nat)
  /-- `BROADCAST` (R576): Descriptor 0x63 copies the root's SRC to every member. -/
  | broadcast (strand : Nat)
  /-- `PERMUTE` (R584): Descriptor 0x64 moves byte ranges to named nodes by a move list. -/
  | permute (strand : Nat)
  /-- `ALLTOALL` (R586): Descriptor 0x65 exchanges variable-length blocks with every member. -/
  | alltoall (strand : Nat)
  /-- `COLLECTIVE_PACKET` (R567): A collective data packet arrives and is added, parked or discarded on mismatch. -/
  | collectivePacket (dst port : Nat) (pkt : CollPkt)
  /-- `COLLECTIVE_ABORT` (R589): A collective abort packet arrives and completes that collective with 0x50. -/
  | collectiveAbort (dst group tag : Nat)
  /-- `INTERLEAVE_CHANGE` (R462): A changed MEM_ILV bit takes effect, flushes the group and starts its zero fill. -/
  | interleaveChange (group : Nat)
  /-- `INTERLEAVE_FILL_END` (R462): The group's zero fill ends and waiting accesses proceed. -/
  | interleaveFillEnd (group : Nat)
  /-- `LAST_DROP` (R468): A LAST line whose count is zero and readers have completed is invalidated without write-back. -/
  | lastDrop (addr : Nat)
  /-- `HIDDEN_RETRAIN` (R479): Once per PERIOD_MS a channel retrains within a lengthened refresh window. -/
  | hiddenRetrain (chan margin : Nat) (lanes : List Nat)
  /-- `FULL_RETRAIN_END` (R480): A full retrain ends and parked requests are served, or the channel enters FAILED. -/
  | fullRetrainEnd (chan margin : Nat) (lanes : List Nat)
  /-- `MEM_RETRAIN_REQ` (R481): A write of REQ asks for a full retrain of the selected channel. -/
  | memRetrainReq (quarter word : Nat)
  /-- `TG_START` (R483): MEM_TG_CTRL.START starts the selected channel's traffic generator. -/
  | tgStart (quarter word : Nat)
  /-- `TG_ALL` (R483): MEM_TG_CTRL.ALL starts all 64 generators of the quarter. -/
  | tgAll (quarter word : Nat)
  /-- `TG_STOP` (R483): MEM_TG_CTRL.STOP stops the generator after the current word. -/
  | tgStop (quarter word : Nat)
  /-- `TG_DONE` (R483): A generator run finishes and sets DONE and its error results. -/
  | tgDone (chan errors first lanes : Nat)
  /-- `CORRECTION_WRITE` (R492): The queued write of a corrected DRAM burst is issued within 2 µs. -/
  | correctionWrite (addr : Nat)
  /-- `ERG_CORRECTION_REWRITE` (R493): The Erg store rewrites a corrected word at the next free bank cycle. -/
  | ergCorrectionRewrite (addr : Nat)
  /-- `BUCKET_LEAK` (R495): At each leak instant every unit's bucket level loses 1. -/
  | bucketLeak (quarter : Nat)
  /-- `MERGE_WINDOW_EXPIRE` (R501): A merge entry open 256 clocks performs its read-modify-write. -/
  | mergeWindowExpire (addr : Nat)
  /-- `SCRUB_READ` (R504): A scrubber reads the next word in an idle cycle, correcting and poisoning. -/
  | scrubRead (quarter unit : Nat) (upset : BitVec 80)
  /-- `SCRUB_LAP_END` (R507): A completed lap is reported and the MC adapts the scrub rate. -/
  | scrubLapEnd (quarter unit : Nat)
  /-- `LAP_SLOW` (R507): A running lap passing 4 × TARGET_S sets LAP_SLOW once. -/
  | lapSlow (quarter unit : Nat)
  /-- `HISTORY_EXPIRE` (R508): A correction history entry frees 600 s after its last correction. -/
  | historyExpire (quarter unit : Nat)
  /-- `ROW_REMAP` (R509): A failing row is copied to a spare at the next step boundary, or retired. -/
  | rowRemap (chan bank row : Nat)
  /-- `REPAIR_RECORD_WRITE` (R514): The MC writes the repair record to the older flash copy within 10 s. -/
  | repairRecordWrite (ok : Bool)
  /-- `CODEWORD_RECEIVE` (R524): A codeword is decoded; an uncorrectable one discards its flits and requests replay. -/
  | codewordReceive (port : Nat) (word : Codeword) (waves : List (List Nat))
  /-- `PACKET_RECEIVE` (R542): A complete packet is delivered locally or routed to its exit port, or found unreachable. -/
  | packetReceive (port : Nat) (pkt : Packet)
  /-- `ACK` (R534): An ACK releases acknowledged flits from the replay buffer. -/
  | ack (port seq : Nat)
  /-- `NAK` (R534): A NAK resends flits from the given SEQ, going DOWN after 8 stalled replays. -/
  | nak (port seq : Nat)
  /-- `CREDIT` (R531): A CREDIT message returns flits of a wadi and class. -/
  | credit (port wadi cls flits : Nat)
  /-- `HEARTBEAT` (R527): A link HEARTBEAT arrives and keeps the port alive. -/
  | heartbeat (port : Nat)
  /-- `HEARTBEAT_SEND` (R527): Each UP port sends a HEARTBEAT every 10 µs. -/
  | heartbeatSend (port : Nat)
  /-- `IDENT` (R552): An IDENT during training checks the peer and may enter MISWIRED. -/
  | ident (port node peer : Nat)
  /-- `ABORT_END` (R537): An abort-end flit ends a forwarded packet, which is discarded. -/
  | abortEnd (port seq wadi : Nat)
  /-- `HEARTBEAT_TIMEOUT` (R536): 40 µs without a HEARTBEAT takes the port DOWN. -/
  | heartbeatTimeout (port : Nat)
  /-- `LOSS_OF_SIGNAL` (R536): Signal lost on a wavelength for 1 µs takes the port DOWN. -/
  | lossOfSignal (port : Nat)
  /-- `LOSS_OF_ALIGNMENT` (R536): Codeword alignment lost for 1 µs takes the port DOWN. -/
  | lossOfAlignment (port : Nat)
  /-- `LIGHT_LOSS` (R522): A laser input leaving its window clears LIGHT_OK and takes UP ports DOWN. -/
  | lightLoss (input : Nat)
  /-- `PORT_RETRAIN` (R553): An enabled DOWN port retrains every 10 ms. -/
  | portRetrain (port : Nat)
  /-- `RETRAIN` (R553): SEIF_PORT_CTRL.RETRAIN retrains the port at once. -/
  | retrain (quarter word : Nat)
  /-- `TRAINING_COMPLETE` (R551): Port training completes and the port enters UP or MISWIRED. -/
  | trainingComplete (port : Nat) (ok : Bool) (grants : List Nat)
  /-- `SEIF_CREDIT` (R532): A write to SEIF_CREDIT raises or lowers an allotment or sets CREDIT_ERR. -/
  | seifCredit (quarter word : Nat)
  /-- `UNREACHABLE_NOTICE` (R548): An unreachable notice reaches the source and its sending descriptor completes 0x50. -/
  | unreachableNotice (strand : Nat)
  /-- `MIRROR_BLOCK` (R606): The twin writes an arriving mirror block at a + D and acknowledges it. -/
  | mirrorBlock (msg : MirrorMsg)
  /-- `MIRROR_ACK` (R608): A mirror acknowledgement drains the mirror queue and may permit the boundary vote. -/
  | mirrorAck (addr kind : Nat)
  /-- `MIRROR_RESEND_REQUEST` (R613): A request from the twin re-queues a block found uncorrectable in its mirror area. -/
  | mirrorResendRequest (addr : Nat)
  /-- `RESTART_READY` (R617): The leader counts a READY of the current restart and sends START when all have arrived. -/
  | restartReady (node number : Nat)
  /-- `RESTART_START` (R616): A START message sets T_R at which the job strands start again. -/
  | restartStart (number time : Nat)
  /-- `FAILOVER_REQ` (R624): The leader accepts or refuses a failover request and broadcasts FAILOVER. -/
  | failoverReq (lost stand : Nat) (formed : Bool)
  /-- `FAILOVER` (R625): A FAILOVER notice writes the alias entry, stages the takeover translation and restarts. -/
  | failover (lost stand number : Nat) (refused : Bool)
  /-- `HANDBACK` (R635): A HANDBACK notice removes the alias, reverses the translation and restarts. -/
  | handback (lost stand number : Nat)
  /-- `CONTROL_PERIOD` (R642): At each 1 ms control period the MC allocates the cap and forms its frequency request. -/
  | controlPeriod (measure : PeriodMeasure)
  /-- `AVS_SAMPLE` (R639): Every 100 µs the MC samples rail powers over AVSBus and recalibrates its estimate. -/
  | avsSample (watts : List (Nat × Nat))
  /-- `POWER_ESTIMATE` (R647): Every 1 µs the power estimate is formed and COMPUTE is paced to the short-term limits. -/
  | powerEstimate (watts : Nat)
  /-- `THERMAL_LOOP` (R664): Each 1 ms the device paces or stops work and adjusts refresh by temperature. -/
  | thermalLoop (tj : Nat) (temps : List Nat)
  /-- `DROOP_DETECT` (R654): A droop sensor below threshold stretches the quarter's compute clock. -/
  | droopDetect (reading : DroopReading)
  /-- `DROOP_END` (R654): Stretching ends 32 periods after the last sensor recovers. -/
  | droopEnd (quarter : Nat)
  /-- `COLUMN_ENABLE` (R659): An admitted or idling array enables or disables one eighth of its columns every 500 ns. -/
  | columnEnable (quarter : Nat)
  /-- `THERMAL_TRIP` (R665): A sensor at 115 °C asserts THERMTRIP_N and holds the device in reset. -/
  | thermalTrip (sensor temp : Nat)
  /-- `AVS_TIMEOUT` (R740): An AVSBus command unanswered for 1 ms switches the rail to the on-die estimate and sets AVS_LOST. -/
  | avsTimeout (rail : Nat)
  /-- `LIGHT_RETURN` (R705): Light returns to a laser input within its window, LIGHT_OK rises and its enabled ports that lacked light begin training. -/
  | lightReturn (input : Nat)
  /-- `TWIN_FORM_EXCHANGE` (R603): The twin's forming message with its MIRROR_K, BOUNDARY_ID, leader, group and identity public key arrives, and the pair
  agrees or the key is checked. -/
  | twinFormExchange (msg : FormMsg)
  /-- `EMB_CONTRIBUTION_ACK` (R325): The coalescing node's acknowledgement of a contribution arrives at the node that sent it, or is passed back by a
  forwarder: `path` names the nodes it still passes, the receiver first. -/
  | embContributionAck (dst table tag : Nat) (path : List Nat)
  /-- `MIGRATION_COPY_ACK` (R334): The new owner's acknowledgement of a migrated row copy arrives at the old owner, which its READY verdict requires. -/
  | migrationCopyAck (dst table row slot : Nat)
  /-- `TWIN_STASH_TRANSFER` (R426): The twin receives an ACT_STASH write or an ACT_FETCH read request on wadi 14, writes or reads its spare area, and
  acknowledges or answers. -/
  | twinStashTransfer (req : StashReq)
  /-- `STASH_ANSWER` (R426): The twin's acknowledgement of stashed bytes, or its fetched data, arrives at the device running ACT_STASH or ACT_FETCH. -/
  | stashAnswer (ans : StashAns)
  /-- `HOST_READ_COMPLETION` (R427): A PCIe read completion for an ACT_FETCH from the host arrives, writing data, or poisoned blocks with status 0x31 on poison
  or error. -/
  | hostReadCompletion (strand off : Nat) (bytes : List Byte) (bad : Bool)
  /-- `PERMUTE_ACK` (R585): The acknowledgement of bytes a PERMUTE sent arrives at the sender, counting toward its completion. -/
  | permuteAck (dst group tag bytes : Nat)
  /-- `REMAP_COPY_END` (R509): The copy of a failing row to its spare ends within 2 µs, the remap table entry is written and the requests waiting in the device
  area are served. -/
  | remapCopyEnd (chan bank row : Nat)
  /-- `PCIE_LINK_RECOVERY` (R694): The PCIe link enters recovery or changes speed or width, updating HOST_LINK and raising the LINK interrupt. -/
  | pcieLinkRecovery (partner : PciePartner)
  /-- `LANE_RESERVED_OPCODE` (R375): A thread group issues an instruction whose opcode is reserved and stops, cancelling the launch with status 0x20. -/
  | laneReservedOpcode (strand group : Nat)
  /-- `WARM_RESET` (R689): PERST_N or HOST_RESET.WARM with KEY 0x5A resets the device, keeping DRAM, and reruns the warm boot stages. -/
  | warmReset
  /-- `FUNCTION_LEVEL_RESET` (R690): FLR resigns or aborts strands, discards queues, zero-fills memory and resets the job pages. -/
  | functionLevelReset
  /-- `HOST_ATTEST_REQ` (R692): Setting HOST_ATTEST_CTRL.REQ starts an attestation report from the host's nonce. -/
  | hostAttestReq
  /-- `OWNER_PROG_DONE` (R718): The MC completes the owner-slot request within 5 ms and sets DONE or FAIL. -/
  | ownerProgDone
  /-- `SMBUS_STATUS` (R707): SMBus command 0x01 returns BOOT_STATUS and BOOT_TESTS. -/
  | smbusStatus
  /-- `SMBUS_TRIP` (R707): SMBus command 0x02 returns PWR_TRIP. -/
  | smbusTrip
  /-- `SMBUS_IDENT` (R707): SMBus command 0x03 returns part, serial and security state. -/
  | smbusIdent
  /-- `SMBUS_TEMP` (R707): SMBus command 0x04 returns PWR_THERM. -/
  | smbusTemp
  /-- `SMBUS_READ` (R707): SMBus command 0x11 returns the register at the set offset within the permitted pages. -/
  | smbusRead
  /-- `PARENT_LOSS` (R52): 20 µs without a parent time message puts the follower in HOLDOVER to choose a new parent. -/
  | parentLoss
  /-- `REF_CLK_LOSS` (R750): TREF_CLK absent for 10 µs drops REF_OK. -/
  | refClkLoss
  /-- `TIMED_EVENT` (R57): An event scheduled for cluster time T takes effect at the first clock edge at or after T, in the order of R60. -/
  | timedEvent
  /-- `STEP_WATCHDOG` (R87): The step watchdog reaches STEP_WDOG ms, sets STEP_WDOG and notifies the MC. -/
  | stepWatchdog
  /-- `TXN_PUBLISH` (R97): A transaction's staged effects publish at one clock edge in each quarter. -/
  | txnPublish
  /-- `MARGIN_ADAPT` (R260): After each 64 audits the MC raises or lowers the predictor margin. -/
  | marginAdapt
  /-- `LAYOUT_CHANGE` (R456): A pending Erg layout takes effect when no strand runs, writing back and invalidating the cache. -/
  | layoutChange
  /-- `READY_TIMEOUT` (R618): 100 ms without every READY makes the leader send STOP. -/
  | readyTimeout
  /-- `JOB_STOP` (R618): A STOP message halts the device's strands and enters STOPPED. -/
  | jobStop
  /-- `TWIN_HEARTBEAT_SEND` (R620): Each device of a formed pair sends a twin heartbeat every 10 µs. -/
  | twinHeartbeatSend
  /-- `TWIN_HEARTBEAT` (R620): A twin heartbeat arrives and keeps HB_OK set. -/
  | twinHeartbeat
  /-- `TWIN_LOSS` (R621): 200 µs without a twin heartbeat declares the twin LOST and requests failover. -/
  | twinLoss
  /-- `RESIGN` (R621): A RESIGN message from the twin declares it LOST at once. -/
  | resign
  /-- `TWIN_RESIGN` (R622): TWIN_CTRL.RESIGN makes the device send RESIGN, cancel strands and enter FENCED. -/
  | twinResign
  /-- `FORM` (R603): TWIN_CTRL.FORM starts forming the pair and its mirror fills. -/
  | form
  /-- `DETACH` (R632): TWIN_CTRL.DETACH makes the device resign at the next boundary publication. -/
  | detach
  /-- `ATTACH` (R633): TWIN_CTRL.ATTACH makes a replacement start the mirror and hand-back fills. -/
  | attach
  /-- `FILL_END` (R635): A mirror or hand-back fill ends, leading to FORMED or HANDBACK at the next publication. -/
  | fillEnd
  /-- `FREQ_STEP` (R651): During a raise the job frequency steps up 25 MHz each microsecond. -/
  | freqStep
  /-- `RAMP_ADMIT` (R656): A waiting start from idle is admitted once the ramp bucket holds its charge. -/
  | rampAdmit
  /-- `THROTTLE_ASSERT` (R666): THROTTLE_N low for 1 µs lowers the cap in force. -/
  | throttleAssert
  /-- `THROTTLE_RELEASE` (R666): THROTTLE_N high for 1 µs restores the cap at the next control period. -/
  | throttleRelease
  /-- `GPIO_PULSE_END` (R747): A STEP-function GPIO returns low 1 µs after a boundary publication. -/
  | gpioPulseEnd
  /-- `TREF_PPS_LOSS` (R750): Two consecutive TREF_PPS edges fail to arrive, so REF_OK falls and REF_LOST is raised on a disciplined root. -/
  | trefPpsLoss
deriving DecidableEq, Repr

end Sys2Proof
end

