-- ==== Sys2Proof/Decode.lean ====
section
/-!
DEFINITION. The opcode table gives none of its rows a bit of an encoding: commands reach the block as register accesses, events and messages, not as
words. So no word spells a command.
-/
namespace Sys2Proof

/-- The command that a word spells by the table's bits: none, since no row has any. DESIGN CHOICE, log entry 5. -/
def decodeTableWord (_nbits _w : Nat) : Option Instr := none

end Sys2Proof
end

