-- ==== Sys2Proof/Machine/Data.lean ====
section
/-!
DEFINITION. Plain data structures the machine's state is made of: sparse tables kept as association lists in one canonical form, and
little-endian byte lists (R6).
-/
namespace Sys2Proof.Machine
open Sys2Proof

/-- Sparse data by number: keys strictly rising, and no entry equal to what an unlisted key reads as. -/
abbrev SMap (α : Type) := List (Nat × α)

/-- The value at key `i`; an unlisted key reads `d`. -/
def sget {α : Type} (d : α) : SMap α → Nat → α
  | [], _ => d
  | (k, v) :: m, i => if i = k then v else sget d m i

/-- The value at key `i`, if one is listed. -/
def sfind {α : Type} : SMap α → Nat → Option α
  | [], _ => none
  | (k, v) :: m, i => if i = k then some v else sfind m i

/-- Remove the entry of key `i`. -/
def sdel {α : Type} : SMap α → Nat → SMap α
  | [], _ => []
  | (k, v) :: m, i => if i = k then sdel m i else (k, v) :: sdel m i

/-- List the value `v` at key `i`. -/
def sput {α : Type} : SMap α → Nat → α → SMap α
  | [], i, v => [(i, v)]
  | (k, w) :: m, i, v =>
    if i = k then (i, v) :: m else if i < k then (i, v) :: (k, w) :: m else (k, w) :: sput m i v

/-- Write `v` at key `i`, keeping the canonical form: writing what an unlisted key reads as removes the entry. -/
def sset {α : Type} [DecidableEq α] (d : α) (m : SMap α) (i : Nat) (v : α) : SMap α :=
  if v = d then sdel m i else sput m i v

/-- The keys rise strictly and all lie above `lo`. -/
def sorted {α : Type} : Nat → SMap α → Bool
  | _, [] => true
  | lo, (k, _) :: m => decide (lo ≤ k) && sorted (k + 1) m

/-- The canonical form of a sparse table with default `d`. -/
def swf {α : Type} [DecidableEq α] (d : α) (m : SMap α) : Bool :=
  sorted 0 m && m.all (fun p => decide (p.2 ≠ d))

/-- The entries of `m` whose key lies in `[lo, lo + n)`. -/
def sslice {α : Type} (m : SMap α) (lo n : Nat) : SMap α :=
  m.filter (fun p => decide (lo ≤ p.1) && decide (p.1 < lo + n))

/-- `m` without the entries whose key lies in `[lo, lo + n)`. -/
def sclear {α : Type} (m : SMap α) (lo n : Nat) : SMap α :=
  m.filter (fun p => !(decide (lo ≤ p.1) && decide (p.1 < lo + n)))

/-- `m` with the entries of `[lo, lo + n)` replaced by those of `r`. -/
def soverlay {α : Type} (m : SMap α) (lo n : Nat) (r : SMap α) : SMap α :=
  m.filter (fun p => decide (p.1 < lo)) ++ r ++ m.filter (fun p => decide (lo + n ≤ p.1))

/-- The values of a list at the keys from `a` on. -/
def runFrom {α : Type} : Nat → List α → SMap α
  | _, [] => []
  | a, v :: l => (a, v) :: runFrom (a + 1) l

/-- A sorted list of numbers with `x` put in. -/
def insN : List Nat → Nat → List Nat
  | [], x => [x]
  | y :: l, x => if x = y then y :: l else if x < y then x :: y :: l else y :: insN l x

/-- A sorted list of numbers with `x` taken out. -/
def delN : List Nat → Nat → List Nat
  | [], _ => []
  | y :: l, x => if x = y then l else y :: delN l x

/-- The numbers from `0` to `n - 1`. -/
def upto (n : Nat) : List Nat := List.range n

/-- A value carried through the numbers from `0` to `n - 1`. -/
def loopN {σ : Type} (f : Nat → σ → σ) (n : Nat) (s : σ) : σ := (upto n).foldl (fun t i => f i t) s

/-- Apply `f` `n` times. -/
def iter {σ : Type} (f : σ → σ) : Nat → σ → σ
  | 0, s => s
  | n + 1, s => iter f n (f s)

/-- The `n` bytes of `v`, least significant first (R6). -/
def leBytes : Nat → Nat → List Byte
  | 0, _ => []
  | n + 1, v => BitVec.ofNat 8 v :: leBytes n (v / 256)

/-- The number a byte list spells, least significant byte first (R6). -/
def ofLE : List Byte → Nat
  | [] => 0
  | b :: l => b.toNat + 256 * ofLE l

/-- Element `i` of a list, or `d` beyond its end. -/
def nth {α : Type} (d : α) (l : List α) (i : Nat) : α := l.getD i d

/-- The list with element `i` replaced; beyond the end, unchanged. -/
def setNth {α : Type} : List α → Nat → α → List α
  | [], _, _ => []
  | _ :: l, 0, v => v :: l
  | x :: l, i + 1, v => x :: setNth l i v

/-- The sum of `f i` for `i` below `n`. -/
def sumN (n : Nat) (f : Nat → Nat) : Nat := (upto n).foldl (fun a i => a + f i) 0

/-- The first element that meets `p`. -/
def firstN (n : Nat) (p : Nat → Bool) : Option Nat := (upto n).find? p

/-- Insertion into a list sorted by `le`. -/
def insBy {α : Type} (le : α → α → Bool) (x : α) : List α → List α
  | [] => [x]
  | y :: l => if le x y then x :: y :: l else y :: insBy le x l

/-- A list sorted by `le`, equal elements in their old order. -/
def sortBy {α : Type} (le : α → α → Bool) (l : List α) : List α := l.foldr (insBy le) []

end Sys2Proof.Machine
end

