-- ==== Sys2Proof/Machine/Crypto.lean ====
section
/-!
DEFINITION. SHA-512 and Ed25519 (RFC 8032), as the boot ROM and the security engine use them (R711 to R714, R719, R720).
-/
namespace Sys2Proof.Machine
open Sys2Proof

/-! ### SHA-512 -/

/-- The largest number up to `2 ^ n - 1 + lo` whose `k`-th power is at most `x`, found bit by bit from bit `n - 1` down. -/
def rootBits (k x : Nat) : Nat → Nat → Nat
  | 0, lo => lo
  | n + 1, lo => if (lo + 2 ^ n) ^ k ≤ x then rootBits k x n (lo + 2 ^ n) else rootBits k x n lo

/-- The first 80 prime numbers. -/
def primes80 : List Nat := ((upto 410).filter (fun n => decide (2 ≤ n) && (upto n).all (fun d => decide (d < 2) || n % d != 0))).take 80

/-- The round constants: the first 64 bits of the fractional parts of the cube roots of the first 80 primes. -/
def shaK : List Nat := primes80.map (fun p => rootBits 3 (p * 2 ^ 192) 70 0 % 2 ^ 64)

/-- The initial hash value: the same of the square roots of the first 8 primes. -/
def shaInit : List Nat := (primes80.take 8).map (fun p => rootBits 2 (p * 2 ^ 128) 70 0 % 2 ^ 64)

/-- Rotate a 64-bit word right. -/
def rotr64 (x n : Nat) : Nat := (x / 2 ^ n + x * 2 ^ (64 - n)) % 2 ^ 64

/-- The message schedule, newest word first. -/
def shaSchedule : Nat → List Nat → List Nat
  | 0, w => w
  | n + 1, w =>
    let a := nth 0 w 1
    let b := nth 0 w 14
    let s1 := rotr64 a 19 ^^^ rotr64 a 61 ^^^ (a / 2 ^ 6)
    let s0 := rotr64 b 1 ^^^ rotr64 b 8 ^^^ (b / 2 ^ 7)
    shaSchedule n (((nth 0 w 15 + s0 + nth 0 w 6 + s1) % 2 ^ 64) :: w)

/-- One round on the eight working words. -/
def shaRound (h : List Nat) (kw : Nat) : List Nat :=
  let a := nth 0 h 0
  let e := nth 0 h 4
  let s1 := rotr64 e 14 ^^^ rotr64 e 18 ^^^ rotr64 e 41
  let ch := (e &&& nth 0 h 5) ^^^ ((2 ^ 64 - 1 - e) &&& nth 0 h 6)
  let t1 := nth 0 h 7 + s1 + ch + kw
  let s0 := rotr64 a 28 ^^^ rotr64 a 34 ^^^ rotr64 a 39
  let mj := (a &&& nth 0 h 1) ^^^ (a &&& nth 0 h 2) ^^^ (nth 0 h 1 &&& nth 0 h 2)
  [(t1 + s0 + mj) % 2 ^ 64, a, nth 0 h 1, nth 0 h 2, (nth 0 h 3 + t1) % 2 ^ 64, e, nth 0 h 5, nth 0 h 6]

/-- One block of 128 bytes. -/
def shaBlock (h : List Nat) (blk : List Byte) : List Nat :=
  let w0 := (upto 16).map (fun i => ofLE ((blk.drop (8 * i)).take 8).reverse)
  let w := (shaSchedule 64 w0.reverse).reverse
  let r := (List.zipWith (fun k w => k + w) shaK w).foldl shaRound h
  List.zipWith (fun x y => (x + y) % 2 ^ 64) h r

/-- The blocks of a padded message, `n` of them. -/
def shaBlocks : Nat → List Byte → List Nat → List Nat
  | 0, _, h => h
  | n + 1, bs, h => shaBlocks n (bs.drop 128) (shaBlock h (bs.take 128))

/-- SHA-512 of a byte string. PRESUMED, log entry 87. -/
def sha512 (bs : List Byte) : List Byte :=
  let n := bs.length
  let pad := (128 - (n + 17) % 128) % 128
  let m := bs ++ [(0x80 : Byte)] ++ List.replicate pad 0 ++ (leBytes 16 (8 * n)).reverse
  ((shaBlocks (m.length / 128) m shaInit).map (fun w => (leBytes 8 w).reverse)).flatten

/-! ### Ed25519 -/

/-- The field's prime. -/
def edP : Nat := 2 ^ 255 - 19

/-- The order of the base point. -/
def edL : Nat := 2 ^ 252 + 27742317777372353535851937790883648493

/-- Subtraction in the field. -/
def edSub (a b : Nat) : Nat := (a + edP - b % edP) % edP

/-- Power in the field, over the bits of the exponent from bit `n - 1` down. -/
def edPowBits (b e : Nat) : Nat → Nat → Nat
  | 0, r => r
  | n + 1, r =>
    let q := r * r % edP
    edPowBits b e n (if e.testBit n then q * b % edP else q)

/-- Power in the field. -/
def edPow (b e : Nat) : Nat := edPowBits b e 256 1

/-- Inverse in the field. -/
def edInv (a : Nat) : Nat := edPow a (edP - 2)

/-- The curve's constant d = −121665 / 121666. -/
def edD : Nat := edSub 0 (121665 * edInv 121666)

/-- A point in extended coordinates (X, Y, Z, T) with x = X / Z, y = Y / Z, xy = T / Z. -/
structure EdPt where
  x : Nat
  y : Nat
  z : Nat
  t : Nat
deriving DecidableEq, Repr

/-- The neutral point. -/
def edZero : EdPt := { x := 0, y := 1, z := 1, t := 0 }

/-- The sum of two points. -/
def EdPt.add (p q : EdPt) : EdPt :=
  let a := edSub p.y p.x * edSub q.y q.x % edP
  let b := (p.y + p.x) * (q.y + q.x) % edP
  let c := p.t * 2 * edD % edP * q.t % edP
  let d := p.z * 2 * q.z % edP
  let e := edSub b a
  let f := edSub d c
  let g := (d + c) % edP
  let h := (b + a) % edP
  { x := e * f % edP, y := g * h % edP, z := f * g % edP, t := e * h % edP }

/-- Multiplication by a number, over its bits from bit `n - 1` down. -/
def EdPt.mulBits (p : EdPt) (k : Nat) : Nat → EdPt → EdPt
  | 0, r => r
  | n + 1, r =>
    let d := r.add r
    p.mulBits k n (if k.testBit n then d.add p else d)

/-- Multiplication by a number below 2^512. -/
def EdPt.mul (p : EdPt) (k : Nat) : EdPt := p.mulBits k 512 edZero

/-- Equality of points. -/
def EdPt.same (p q : EdPt) : Bool := p.x * q.z % edP == q.x * p.z % edP && p.y * q.z % edP == q.y * p.z % edP

/-- The x coordinate that belongs to a y coordinate with a given low bit, if there is one. -/
def edXOf (y : Nat) (sign : Bool) : Option Nat :=
  if y ≥ edP then none
  else
    let u := edSub (y * y) 1
    let v := (edD * (y * y % edP) + 1) % edP
    let x2 := u * edInv v % edP
    if x2 = 0 then (if sign then none else some 0)
    else
      let r := edPow x2 ((edP + 3) / 8)
      let r := if r * r % edP = x2 then r else r * edPow 2 ((edP - 1) / 4) % edP
      if r * r % edP ≠ x2 then none
      else some (if (r % 2 == 1) = sign then r else edP - r)

/-- The base point. -/
def edBase : EdPt :=
  let y := 4 * edInv 5 % edP
  let x := (edXOf y false).getD 0
  { x := x, y := y, z := 1, t := x * y % edP }

/-- A point's 32 bytes. -/
def EdPt.bytes (p : EdPt) : List Byte :=
  let i := edInv p.z
  leBytes 32 (p.y * i % edP + 2 ^ 255 * (p.x * i % edP % 2))

/-- The point that 32 bytes spell, if they spell one. -/
def edPoint (bs : List Byte) : Option EdPt :=
  let v := ofLE bs
  let y := v % 2 ^ 255
  (edXOf y (v.testBit 255)).map (fun x => { x := x, y := y, z := 1, t := x * y % edP })

/-- The secret scalar of a 32-byte seed. -/
def edScalar (seed : List Byte) : Nat :=
  let a := ofLE ((sha512 seed).take 32)
  a % 2 ^ 254 / 8 * 8 + 2 ^ 254

/-- The public key of a seed. -/
def edPublic (seed : List Byte) : List Byte := (edBase.mul (edScalar seed)).bytes

/-- The signature of a message under a seed. -/
def edSign (seed msg : List Byte) : List Byte :=
  let a := edScalar seed
  let pub := edPublic seed
  let r := ofLE (sha512 ((sha512 seed).drop 32 ++ msg)) % edL
  let rb := (edBase.mul r).bytes
  let k := ofLE (sha512 (rb ++ pub ++ msg)) % edL
  rb ++ leBytes 32 ((r + k * a) % edL)

/-- Whether a 64-byte signature of a message is valid under a public key. PRESUMED, log entry 87. -/
def edVerify (pub msg sig : List Byte) : Bool :=
  let rb := sig.take 32
  let s := ofLE ((sig.drop 32).take 32)
  match edPoint pub, edPoint rb with
  | some a, some r =>
    let k := ofLE (sha512 (rb ++ pub ++ msg)) % edL
    sig.length == 64 && decide (s < edL) && ((edBase.mul s).mul 8).same ((r.add (a.mul k)).mul 8)
  | _, _ => false

end Sys2Proof.Machine
end

