-- ==== Sys2Proof/Machine/Fp.lean ====
section
/-!
DEFINITION. Number formats and rounding (R112 to R142): decoding and encoding of the eight formats, exact arithmetic on decoded values,
and one rounding operation for every rounding code. A decoded value is exact; every operation computes the exact result, or the
result cut off far below the last place with a sticky bit, and rounds once.
-/
namespace Sys2Proof.Machine
open Sys2Proof

/-- A decoded value: NaN, an infinity, or the exact number `± m · 2^e`; zero has `m = 0` and keeps its sign. -/
inductive Fp where
  | nan
  | inf (neg : Bool)
  | fin (neg : Bool) (m : Nat) (e : Int)
deriving DecidableEq, Repr

/-- Positive zero. -/
def Fp.zero : Fp := .fin false 0 0

/-- `m · 2^n`, cut off below the units place when `n` is negative. -/
def shl (m : Nat) (n : Int) : Nat := if 0 ≤ n then m <<< n.toNat else m >>> (-n).toNat

/-- The properties of a format (R112): total bits, precision with the implicit bit, exponent field width, bias. -/
structure Fmt where
  bits : Nat
  prec : Nat
  ebits : Nat
  bias : Nat
deriving DecidableEq, Repr

/-- The format of a code of R15; B8 (code 7) elements have their own operations. P24 is held as the upper 24 bits of its container. -/
def fmtOf (code : Nat) : Fmt :=
  match code with
  | 0 => ⟨64, 53, 11, 1023⟩
  | 1 => ⟨32, 24, 8, 127⟩
  | 2 => ⟨24, 16, 8, 127⟩
  | 3 => ⟨16, 8, 8, 127⟩
  | 4 => ⟨16, 11, 5, 15⟩
  | 5 => ⟨8, 3, 5, 16⟩
  | _ => ⟨8, 4, 4, 7⟩

/-- The exponent of the subnormal grid, the least `ulp` exponent of the format. -/
def Fmt.qmin (f : Fmt) : Int := (1 : Int) - f.bias - (f.prec - 1 : Nat)

/-- The exponent of the least normal number. -/
def Fmt.emin (f : Fmt) : Int := (1 : Int) - f.bias

/-- Q8n has no infinities and one NaN (R115). -/
def isQ8n (code : Nat) : Bool := code == 6

/-- The exponent of the largest finite binade. -/
def fmtEmax (code : Nat) : Int :=
  let f := fmtOf code
  if isQ8n code then (2 ^ f.ebits - 1 : Nat) - (f.bias : Int) else (2 ^ f.ebits - 2 : Nat) - (f.bias : Int)

/-- The significand of the largest finite value, of `prec` bits. -/
def maxSig (code : Nat) : Nat := 2 ^ (fmtOf code).prec - 1

/-- Bytes of one element of a format in memory, for codes 0 to 6: P24 occupies a 32-bit container (R114). B8 elements are one byte
in an operand layout, whose exponents stand apart (R158). -/
def elemBytes (code : Nat) : Nat :=
  match code with
  | 0 => 8
  | 1 => 4
  | 2 => 4
  | 3 => 2
  | 4 => 2
  | _ => 1

/-- Decode the stored bits of one element (R113, R114, R115). -/
def decodeBits (code raw : Nat) : Fp :=
  let f := fmtOf code
  let x := if code = 2 then (raw >>> 8) % 2 ^ 24 else raw % 2 ^ f.bits
  let w := f.prec - 1
  let fr := x % 2 ^ w
  let e := (x >>> w) % 2 ^ f.ebits
  let s := (x >>> (f.bits - 1)) % 2 = 1
  if isQ8n code ∧ x = 0x80 then .nan
  else if e = 0 then .fin s fr f.qmin
  else if e = 2 ^ f.ebits - 1 ∧ !isQ8n code then (if fr = 0 then .inf s else .nan)
  else .fin s (2 ^ w + fr) ((e : Int) - f.bias - (w : Nat))

/-- The canonical NaN of a format (R112), as stored. -/
def canonNaN (code : Nat) : Nat :=
  match code with
  | 0 => 0x7FF8000000000000
  | 1 => 0x7FC00000
  | 2 => 0x7FC00000
  | 3 => 0x7FC0
  | 4 => 0x7E00
  | 5 => 0x7E
  | _ => 0x80

/-- The stored bits of a value whose exponent field and fraction are given; P24 fills the upper 24 bits of its container (R114). -/
def packBits (code : Nat) (neg : Bool) (ef fr : Nat) : Nat :=
  let f := fmtOf code
  let x := (if neg then 2 ^ (f.bits - 1) else 0) + ef * 2 ^ (f.prec - 1) + fr
  if code = 2 then x * 256 else x

/-- The stored bits of an infinity. Q8n has none (R115); it takes its largest value. -/
def infBits (code : Nat) (neg : Bool) : Nat :=
  let f := fmtOf code
  if isQ8n code then packBits code neg (2 ^ f.ebits - 1) (2 ^ (f.prec - 1) - 1)
  else packBits code neg (2 ^ f.ebits - 1) 0

/-- The stored bits of the largest finite value of a sign. -/
def maxBits (code : Nat) (neg : Bool) : Nat :=
  let f := fmtOf code
  let w := f.prec - 1
  if isQ8n code then packBits code neg (2 ^ f.ebits - 1) (2 ^ w - 1)
  else packBits code neg (2 ^ f.ebits - 2) (2 ^ w - 1)

/-- The stored bits of `± t · 2^q` for a `t` on the format's grid; Q8n writes no negative zero (R123). -/
def gridBits (code : Nat) (neg : Bool) (t : Nat) (q : Int) : Nat :=
  let f := fmtOf code
  let w := f.prec - 1
  if t = 0 then (if isQ8n code then 0 else packBits code neg 0 0)
  else
    let l : Int := (Nat.log2 t : Int) + q
    if l < f.emin then packBits code neg 0 (shl t (q - f.qmin))
    else packBits code neg (l + f.bias).toNat (shl t (q - (l - (w : Nat))) - 2 ^ w)

/-- The exponent of the last place of a number `m · 2^e` in a format: the ulp of R122. -/
def ulpExp (code : Nat) (m : Nat) (e : Int) : Int :=
  let f := fmtOf code
  max ((Nat.log2 m : Int) + e - (f.prec - 1 : Nat)) f.qmin

/-- How a result is rounded: the code of R16, INF_EN of R120, the draw `D` of the rounding group, the place `j` of the element in it
(R125), and the exponent of the source's ulp that bounds a stochastic cut (R124). -/
structure Rnd where
  code : Nat
  infEn : Bool := false
  draw : Nat := 0
  lane : Nat := 0
deriving DecidableEq, Repr

/-- Round to nearest even. -/
def Rnd.nearest : Rnd := { code := 0 }

/-- `D` rotated right by `16 · j` bits, low `c` bits: the random value of R125. -/
def drawBits (d j c : Nat) : Nat :=
  let n := 16 * (j % 4)
  let x := d % 2 ^ 64
  ((x >>> n) + (x * 2 ^ (64 - n))) % 2 ^ 64 % 2 ^ c

/-- Whether the cut-off part `rem` of `2^s` moves the magnitude `t` one ulp up (R122, R124). -/
def roundUp (r : Rnd) (neg : Bool) (t rem s : Nat) (k : Int) : Bool :=
  match r.code with
  | 1 => false
  | 2 => !neg && decide (rem ≠ 0)
  | 3 => neg && decide (rem ≠ 0)
  | 4 | 5 =>
    if k ≤ 0 then false
    else
      let c := min k.toNat 24
      let f := (rem * 2 ^ c) >>> s
      decide (drawBits r.draw r.lane c < f)
  | 6 => false
  | _ => decide (2 * rem > 2 ^ s) || (decide (2 * rem = 2 ^ s) && t % 2 == 1)

/-- A rounded magnitude on the grid `2^q`: whole multiple, grid exponent, and whether anything was cut off. Round to odd forces the
last bit (R122). -/
def roundGrid (r : Rnd) (neg : Bool) (m : Nat) (e q srcUlp : Int) : Nat × Bool :=
  if q ≤ e then (shl m (e - q), false)
  else
    let s := (q - e).toNat
    let t := m >>> s
    let rem := m % 2 ^ s
    let t' := if roundUp r neg t rem s (q - srcUlp) then t + 1
      else if r.code = 6 ∧ rem ≠ 0 then t ||| 1 else t
    (t', decide (rem ≠ 0))

/-- A rounded result: its stored bits and what happened on the way. -/
structure Rounded where
  bits : Nat
  inexact : Bool := false
  overflow : Bool := false
  underflow : Bool := false
deriving DecidableEq, Repr

/-- The stored bits of a magnitude beyond the largest finite value (R123). -/
def overBits (code : Nat) (r : Rnd) (neg : Bool) : Nat :=
  if isQ8n code || (!r.infEn && (code == 4 || code == 5)) then maxBits code neg
  else match r.code with
    | 1 | 6 => maxBits code neg
    | 2 => if neg then maxBits code neg else infBits code neg
    | 3 => if neg then infBits code neg else maxBits code neg
    | _ => infBits code neg

/-- Whether `t · 2^q` exceeds the largest finite value. -/
def exceeds (code t : Nat) (q : Int) : Bool :=
  let qx := fmtEmax code - ((fmtOf code).prec - 1 : Nat)
  decide (t ≠ 0) && (if qx ≤ q then decide (shl t (q - qx) > maxSig code) else decide (t > maxSig code <<< (qx - q).toNat))

/-- The rounding of a decoded value to a format, codes 0 to 6 (R122 to R124, R132). `srcUlp` is the exponent of the ulp of the value in
its own source format. -/
def roundTo (code : Nat) (r : Rnd) (srcUlp : Int) (x : Fp) : Rounded :=
  match x with
  | .nan => { bits := canonNaN code }
  | .inf neg =>
    if isQ8n code || (!r.infEn && (code == 4 || code == 5)) then { bits := maxBits code neg }
    else { bits := infBits code neg }
  | .fin neg m e =>
    if m = 0 then { bits := gridBits code neg 0 0 }
    else
      let f := fmtOf code
      let q := ulpExp code m e
      let (t, nx) := roundGrid r neg m e q srcUlp
      if exceeds code t q then { bits := overBits code r neg, inexact := true, overflow := true }
      else
        -- tininess after rounding (R139): the value rounded with an unbounded exponent lies below the least normal
        let qu := (Nat.log2 m : Int) + e - (f.prec - 1 : Nat)
        let tu := (roundGrid r neg m e qu srcUlp).1
        let tiny := decide (tu ≠ 0) && decide ((Nat.log2 tu : Int) + qu < f.emin)
        { bits := gridBits code neg t q, inexact := nx, underflow := nx && tiny }

/-- The exponent of the ulp of a value in the format it comes from (R124); irrelevant where the value is not finite. -/
def srcUlpOf (code : Nat) (x : Fp) : Int :=
  match x with
  | .fin _ m e => ulpExp code m e
  | _ => 0

/-- Convert stored bits between formats 0 to 6 (R131 to R133). A NaN from FP64 to FP32 keeps its sign and high payload; an FP32 NaN
written to FP32 is the canonical NaN, as any conversion's (R132). DESIGN CHOICE, log entry 121. -/
def convBits (src dst : Nat) (r : Rnd) (raw : Nat) : Rounded :=
  let x := decodeBits src raw
  if src = 0 ∧ dst = 1 ∧ x = .nan then
    { bits := ((raw >>> 63) % 2) * 2 ^ 31 + 0x7FC00000 + (raw >>> 29) % 2 ^ 22 }
  else roundTo dst r (srcUlpOf src x) x

/-! ### Exact arithmetic -/

/-- Negation. -/
def Fp.neg : Fp → Fp
  | .nan => .nan
  | .inf s => .inf (!s)
  | .fin s m e => .fin (!s) m e

/-- Magnitude. -/
def Fp.abs : Fp → Fp
  | .nan => .nan
  | .inf _ => .inf false
  | .fin _ m e => .fin false m e

/-- Whether the value is NaN or infinite (R135). -/
def Fp.special : Fp → Bool
  | .fin _ _ _ => false
  | _ => true

/-- The signed integer significand at exponent `q`, for `q` at or below `e`. -/
def sigAt (neg : Bool) (m : Nat) (e q : Int) : Int :=
  let x : Int := (shl m (e - q) : Nat)
  if neg then -x else x

/-- The exact sum of two finite values; an exact zero from unlike signs is `+0`, or `-0` when rounding toward −∞ (IEEE 754). -/
def addFin (down : Bool) (s1 : Bool) (m1 : Nat) (e1 : Int) (s2 : Bool) (m2 : Nat) (e2 : Int) : Fp :=
  let q := min e1 e2
  let x := sigAt s1 m1 e1 q + sigAt s2 m2 e2 q
  if x = 0 then .fin (if s1 = s2 then s1 else down) 0 0
  else .fin (decide (x < 0)) x.natAbs q

/-- Exact addition; opposite infinities give NaN. -/
def Fp.addR (down : Bool) (x y : Fp) : Fp :=
  match x, y with
  | .nan, _ => .nan
  | _, .nan => .nan
  | .inf s, .inf t => if s = t then .inf s else .nan
  | .inf s, _ => .inf s
  | _, .inf t => .inf t
  | .fin s1 m1 e1, .fin s2 m2 e2 => addFin down s1 m1 e1 s2 m2 e2

/-- Exact addition under any rounding but toward −∞. -/
def Fp.add (x y : Fp) : Fp := Fp.addR false x y

/-- Exact subtraction. -/
def Fp.sub (x y : Fp) : Fp := Fp.add x y.neg

/-- Exact multiplication; zero times infinity gives NaN. -/
def Fp.mul (x y : Fp) : Fp :=
  match x, y with
  | .nan, _ => .nan
  | _, .nan => .nan
  | .inf s, .inf t => .inf (s != t)
  | .inf s, .fin t m _ => if m = 0 then .nan else .inf (s != t)
  | .fin s m _, .inf t => if m = 0 then .nan else .inf (s != t)
  | .fin s m e, .fin t n g => .fin (s != t) (m * n) (e + g)

/-- Exact fused multiply-add. -/
def Fp.fmaR (down : Bool) (x y z : Fp) : Fp := Fp.addR down (Fp.mul x y) z

/-- How many bits below the last place a quotient or root keeps before its sticky bit. -/
def guardBits : Nat := 128

/-- Quotient cut off `guardBits` below its last place with a sticky bit. -/
def Fp.div (x y : Fp) : Fp :=
  match x, y with
  | .nan, _ => .nan
  | _, .nan => .nan
  | .inf _, .inf _ => .nan
  | .inf s, .fin t _ _ => .inf (s != t)
  | .fin s _ _, .inf t => .fin (s != t) 0 0
  | .fin s m e, .fin t n g =>
    if n = 0 then (if m = 0 then .nan else .inf (s != t))
    else if m = 0 then .fin (s != t) 0 0
    else
      let sh := guardBits + Nat.log2 n
      let num := m <<< sh
      let q := num / n
      let st := if num % n = 0 then 0 else 1
      .fin (s != t) (2 * q + st) (e - g - (sh : Nat) - 1)

/-- Integer square root by bisection, `n` bits. -/
def isqrtBits (x : Nat) : Nat → Nat → Nat
  | 0, r => r
  | n + 1, r =>
    let c := r + 2 ^ n
    isqrtBits x n (if c * c ≤ x then c else r)

/-- Integer square root. -/
def isqrt (x : Nat) : Nat := isqrtBits x (Nat.log2 x / 2 + 1) 0

/-- Square root cut off far below its last place with a sticky bit; a negative number gives NaN, a zero keeps its sign. -/
def Fp.sqrt (x : Fp) : Fp :=
  match x with
  | .nan => .nan
  | .inf s => if s then .nan else .inf false
  | .fin s m e =>
    if m = 0 then .fin s 0 0
    else if s then .nan
    else
      let sh := 2 * guardBits + (if (e % 2) = 0 then 0 else 1)
      let v := m <<< sh
      let r := isqrt v
      let st := if r * r = v then 0 else 1
      .fin false (2 * r + st) ((e - (sh : Nat)) / 2 - 1)

/-- Comparison of two finite values or infinities: less. False where either is NaN. -/
def Fp.lt (x y : Fp) : Bool :=
  match x, y with
  | .nan, _ => false
  | _, .nan => false
  | .inf s, .inf t => s && !t
  | .inf s, _ => s
  | _, .inf t => !t
  | .fin s1 m1 e1, .fin s2 m2 e2 =>
    let q := min e1 e2
    decide (sigAt s1 m1 e1 q < sigAt s2 m2 e2 q)

/-- Comparison: equal; the two zeros are equal. -/
def Fp.eq (x y : Fp) : Bool :=
  match x, y with
  | .nan, _ => false
  | _, .nan => false
  | .inf s, .inf t => s == t
  | .inf _, _ => false
  | _, .inf _ => false
  | .fin s1 m1 e1, .fin s2 m2 e2 =>
    let q := min e1 e2
    decide (sigAt s1 m1 e1 q = sigAt s2 m2 e2 q)

/-- Comparison: less or equal. -/
def Fp.le (x y : Fp) : Bool := Fp.lt x y || Fp.eq x y

/-- An integer as an exact value. -/
def Fp.ofInt (x : Int) : Fp := .fin (decide (x < 0)) x.natAbs 0

/-- The rounded integer nearest a value under a code: magnitude on the grid `2^0`. -/
def toIntGrid (r : Rnd) (neg : Bool) (m : Nat) (e : Int) : Nat × Bool := roundGrid r neg m e 0 (e - 64)

/-! ### FP32 and FP64 operations under code 0 (R139 to R141) -/

/-- Make a NaN encoding quiet. -/
def quietBits (code raw : Nat) : Nat := raw ||| (if code = 0 then 2 ^ 51 else 2 ^ 22)

/-- Whether FP32 or FP64 bits spell a signalling NaN. -/
def isSignalling (code raw : Nat) : Bool :=
  decodeBits code raw == .nan && (raw &&& (if code = 0 then 2 ^ 51 else 2 ^ 22)) == 0

/-- The first NaN operand, made quiet (R141). -/
def firstNaN (code : Nat) (ops : List Nat) : Option Nat :=
  (ops.find? (fun b => decodeBits code b == .nan)).map (quietBits code)

/-- A result of an FP32 or FP64 operation of the gather engine or a collective path: code 0, the first NaN operand made quiet (R140, R141). -/
def fpOp (code : Nat) (ops : List Nat) (res : Fp) : Nat :=
  match firstNaN code ops with
  | some b => b
  | none => (roundTo code Rnd.nearest 0 res).bits

/-- FP32 addition under code 0 (R140). -/
def fp32Add (a b : Nat) : Nat := fpOp 1 [a, b] (Fp.add (decodeBits 1 a) (decodeBits 1 b))

/-- FP32 subtraction under code 0. -/
def fp32Sub (a b : Nat) : Nat := fpOp 1 [a, b] (Fp.sub (decodeBits 1 a) (decodeBits 1 b))

/-- FP32 multiplication under code 0. -/
def fp32Mul (a b : Nat) : Nat := fpOp 1 [a, b] (Fp.mul (decodeBits 1 a) (decodeBits 1 b))

/-- FP32 fused multiply-add under code 0. -/
def fp32Fma (a b c : Nat) : Nat :=
  fpOp 1 [a, b, c] (Fp.fmaR false (decodeBits 1 a) (decodeBits 1 b) (decodeBits 1 c))

/-- FP32 division under code 0. -/
def fp32Div (a b : Nat) : Nat := fpOp 1 [a, b] (Fp.div (decodeBits 1 a) (decodeBits 1 b))

/-- FP32 square root under code 0. -/
def fp32Sqrt (a : Nat) : Nat := fpOp 1 [a] (Fp.sqrt (decodeBits 1 a))

/-- FP64 addition under code 0. -/
def fp64Add (a b : Nat) : Nat := fpOp 0 [a, b] (Fp.add (decodeBits 0 a) (decodeBits 0 b))

/-! ### B8 blocks (R116 to R118, R134) -/

/-- Element `m` of a B8 block whose exponent byte is `E` (R116). -/
def decodeB8 (E raw : Nat) : Fp :=
  if E = 255 then .nan
  else
    let v := toSigned 8 raw
    .fin (decide (v < 0)) v.natAbs ((E : Int) - 133)

/-- The larger magnitude, as significand and exponent. -/
def magMax (a b : Fp) : Fp := if Fp.lt a.abs b.abs then b.abs else a.abs

/-- Round `x / 2^q` to an integer under a rule, with its sign (R134). The source's ulp bounds a stochastic cut (R124). -/
def roundScaled (r : Rnd) (q srcUlp : Int) (x : Fp) : Int :=
  match x with
  | .fin neg m e =>
    let t : Int := ((roundGrid r neg m e q srcUlp).1 : Nat)
    if neg then -t else t
  | _ => 0

/-- The block exponent E and the rounded values of R134 before the clamp to ±127. -/
def roundB8 (rnd : Nat → Rnd) (ulp : Nat → Int) (xs : List Fp) : Nat × List Int :=
  if xs.any Fp.special then (255, xs.map (fun _ => 0))
  else
    match xs.foldl magMax Fp.zero with
    | .fin _ 0 _ => (0, xs.map (fun _ => 0))
    | .fin _ m e =>
      let E0 : Int := max 0 (min 254 ((Nat.log2 m : Int) + e + 127))
      let q (E : Int) : List Int := xs.mapIdx (fun j x => roundScaled (rnd j) (E - 133) (ulp j) x)
      let E1 : Int := if (q E0).any (fun v => decide (v.natAbs = 128)) ∧ E0 < 254 then E0 + 1 else E0
      (E1.toNat, q E1)
    | _ => (0, [])

/-- The block exponent and the 32 elements of a B8 block (R134). `rnd j` and `ulp j` give element `j` its rounding and its source's
ulp exponent. A re-quantisation uses the same draws. -/
def encodeB8 (rnd : Nat → Rnd) (ulp : Nat → Int) (xs : List Fp) : Nat × List Nat :=
  let (e, ms) := roundB8 rnd ulp xs
  (e, ms.map (fun v => ofSigned 8 (max (-127) (min 127 v))))

end Sys2Proof.Machine
end

