-- ==== Sys2Proof/Machine/Transc.lean ====
section
/-!
DEFINITION. The correctly rounded transcendental functions of R382, computed in integer arithmetic far beyond the last place with a
sticky bit, and rounded once.
-/
namespace Sys2Proof.Machine
open Sys2Proof

/-- Fraction bits of the fixed-point arithmetic of this file. -/
def fxBits : Nat := 320

/-- One in fixed point. -/
def fxOne : Nat := 2 ^ fxBits

/-- Fixed-point product, cut off. -/
def fxMul (a b : Nat) : Nat := (a * b) >>> fxBits

/-- `Σ 1 / (k · 2^k)`, the natural logarithm of 2, summed from term `k` for `n` terms. -/
def ln2Sum : Nat → Nat → Nat
  | 0, _ => 0
  | n + 1, k => fxOne / (k * 2 ^ k) + ln2Sum n (k + 1)

/-- ln 2 in fixed point. -/
def fxLn2 : Nat := ln2Sum 330 1

/-- The Taylor sum of `exp y` for `y` below 1: `term` is `y^i / i!`. -/
def expSum (y : Nat) : Nat → Nat → Nat → Nat
  | 0, _, _ => 0
  | n + 1, i, term => term + expSum y n (i + 1) (fxMul term y / (i + 1))

/-- `2^(f / 2^fxBits)` in fixed point, for `f` below one. -/
def fxExp2 (f : Nat) : Nat := if f = 0 then fxOne else expSum (fxMul f fxLn2) 80 0 fxOne

/-- 2 to the power of a value: exact for integers, else cut off far below the last place with a sticky bit. -/
def Fp.exp2 (x : Fp) : Fp :=
  match x with
  | .nan => .nan
  | .inf s => if s then Fp.zero else .inf false
  | .fin s m e =>
    if m = 0 then .fin false 1 0
    else if (Nat.log2 m : Int) + e > 20 then (if s then .fin false 1 (-100000) else .fin false 1 100000)
    else if (Nat.log2 m : Int) + e < -300 then
      -- 2^x differs from 1 by less than any guard: one step on the proper side
      (if s then .fin false (2 ^ 400 - 1) (-400) else .fin false (2 ^ 400 + 1) (-400))
    else
      let v : Int := (if s then -1 else 1) * (shl m (e + (fxBits : Nat)) : Nat)
      let n := v / (fxOne : Int)
      let f := (v % (fxOne : Int)).toNat
      if f = 0 then .fin false 1 n else .fin false (2 * fxExp2 f + 1) (n - (fxBits : Nat) - 1)

/-- The series of `atanh w` for `w` below 1: `pw` is `w^(2i+1)`. -/
def atanhSum (w2 : Nat) : Nat → Nat → Nat → Nat
  | 0, _, _ => 0
  | n + 1, i, pw => pw / (2 * i + 1) + atanhSum w2 n (i + 1) (fxMul pw w2)

/-- The natural logarithm of `m / 2^l` for `2^l ≤ m < 2^(l+1)`, in fixed point. -/
def fxLn (m l : Nat) : Nat :=
  let w := ((m - 2 ^ l) <<< fxBits) / (m + 2 ^ l)
  2 * atanhSum (fxMul w w) 110 0 w

/-- Logarithm to base 2: exact for powers of 2, else cut off with a sticky bit; a negative number gives NaN and a zero −∞. -/
def Fp.log2 (x : Fp) : Fp :=
  match x with
  | .nan => .nan
  | .inf s => if s then .nan else .inf false
  | .fin s m e =>
    if m = 0 then .inf true
    else if s then .nan
    else
      let l := Nat.log2 m
      let n : Int := (l : Int) + e
      if m = 2 ^ l then Fp.ofInt n
      else
        let f := (fxLn m l <<< fxBits) / fxLn2
        let v : Int := n * (fxOne : Int) + (f : Nat)
        .fin (decide (v < 0)) (2 * v.natAbs + 1) (-(fxBits : Nat) - 1)

/-- Reciprocal square root, cut off with a sticky bit; a zero gives an infinity of its sign, a negative number NaN. -/
def Fp.rsqrt (x : Fp) : Fp :=
  match x with
  | .nan => .nan
  | .inf s => if s then .nan else Fp.zero
  | .fin s m e =>
    if m = 0 then .inf s
    else if s then .nan
    else
      let odd := e % 2 ≠ 0
      let m' := if odd then 2 * m else m
      let e' := if odd then e - 1 else e
      let k := 2 * (guardBits + Nat.log2 m')
      let r := isqrt (2 ^ k / m')
      let st := if r * r * m' = 2 ^ k then 0 else 1
      .fin false (2 * r + st) (-(e' / 2) - (k / 2 : Nat) - 1)

/-- One FP32 operation's result under code 0 as a decoded value: `rnd` of R403. A NaN stays NaN. -/
def rnd32 (x : Fp) : Fp := decodeBits 1 (roundTo 1 Rnd.nearest 0 x).bits

/-- EXP2 of R382 in FP32. -/
def exp2f (x : Fp) : Fp := rnd32 (Fp.exp2 x)

end Sys2Proof.Machine
end

