-- ==== Sys2Proof/Machine/Accum.lean ====
section
/-!
DEFINITION. Products, chunks, accumulators and summation orders (R184 to R213), over lists of terms. A term is its reduction index and
the two decoded operand values; the lists hold, in ascending index, every term that R186 lets through.
-/
namespace Sys2Proof.Machine
open Sys2Proof

/-- One pair of operand values at a reduction index. -/
structure Term where
  idx : Nat
  a : Fp
  b : Fp
deriving DecidableEq, Repr

/-- −0, the start of every sum (R190). -/
def negZero : Fp := .fin true 0 0

/-- Whether a value is a zero of either sign. -/
def Fp.isZero : Fp → Bool
  | .fin _ 0 _ => true
  | _ => false

/-- A value rounded to P24 under code 0. -/
def rnd24 (x : Fp) : Fp := decodeBits 2 (roundTo 2 Rnd.nearest 0 x).bits

/-- Addition in P24 (R188). -/
def add24 (x y : Fp) : Fp := rnd24 (Fp.add x y)

/-- Addition in FP32 (R188). -/
def add32 (x y : Fp) : Fp := rnd32 (Fp.add x y)

/-- Terms whose operands are both non-zero (R185). -/
def live (ts : List Term) : List Term := ts.filter (fun t => !t.a.isZero && !t.b.isZero)

/-- A product rounded to P24 (R184). -/
def product (t : Term) : Fp := rnd24 (Fp.mul t.a t.b)

/-- Terms of the run of `len` indices that starts at `lo`. -/
def run (ts : List Term) (lo len : Nat) : List Term := ts.filter (fun t => decide (lo ≤ t.idx) && decide (t.idx < lo + len))

/-- A chunk total (R189): products added in ascending index from −0, in P24, or in FP32 in split-operand passes. -/
def chunkTotal (wide : Bool) (ts : List Term) : Fp :=
  ts.foldl (fun s t => if wide then add32 s (product t) else add24 s (product t)) negZero

/-- Chunk totals of the terms from index `lo` to `hi`, in ascending order; chunks of 32 counted from `lo`. -/
def chunks (wide : Bool) (ts : List Term) (lo hi : Nat) : List Fp :=
  (upto (ceilDiv (hi - lo) 32)).map (fun i => chunkTotal wide (run ts (lo + 32 * i) 32))

/-- A sum in FP32 from −0, from left to right. -/
def sum32 (xs : List Fp) : Fp := xs.foldl add32 negZero

/-- A value's first piece: cut toward zero to SF16 (R168). -/
def cutSf16 (x : Fp) : Fp := decodeBits 3 (roundTo 3 { code := 1 } 0 x).bits

/-- The three pieces hi, mid, lo of an FP32 value (R168). -/
def pieces (x : Fp) : List Fp :=
  match x with
  | .fin _ _ _ =>
    let hi := cutSf16 x
    let r1 := Fp.sub x hi
    let mid := cutSf16 r1
    let lo := cutSf16 (Fp.sub r1 mid)
    [hi, mid, lo]
  | _ => [x, Fp.zero, Fp.zero]

/-- The pass order of R169, as piece numbers of A and B (0 hi, 1 mid, 2 lo). -/
def passes : List (Nat × Nat) := [(1, 1), (2, 0), (0, 2), (1, 0), (0, 1), (0, 0)]

/-- The terms of one pass: the named pieces of both operands. -/
def passTerms (ts : List Term) (p : Nat × Nat) : List Term :=
  live (ts.map (fun t => { t with a := nth Fp.zero (pieces t.a) p.1, b := nth Fp.zero (pieces t.b) p.2 }))

/-- The shape of a reduction: which indices belong to which K tile, and how far the indices reach. `tiles` gives the first index and
the end of each K tile of class W. -/
structure Shape where
  tiles : List (Nat × Nat)
  top : Nat
deriving DecidableEq, Repr

/-- Tile partial of class W (R203): chunk totals of the tile in ascending order. -/
def tilePartial (wide : Bool) (ts : List Term) (t : Nat × Nat) : Fp := sum32 (chunks wide (run ts t.1 (t.2 - t.1)) t.1 t.2)

/-- Native order, class W (R203, R206). -/
def nativeW (fp32 : Bool) (sh : Shape) (ts : List Term) (start : Fp) : Fp :=
  sh.tiles.foldl (fun s t =>
    if fp32 then passes.foldl (fun s p => add32 s (tilePartial true (passTerms ts p) t)) s
    else add32 s (tilePartial false (live ts) t)) start

/-- Native order, class O, over the indices from `lo` to `hi` (R204, R206). -/
def nativeO (fp32 : Bool) (all : List Term) (lo hi : Nat) (start : Fp) : Fp :=
  let ts := run all lo (hi - lo)
  if fp32 then
    (upto (ceilDiv (hi - lo) 512)).foldl (fun s i =>
      let w := lo + 512 * i
      passes.foldl (fun s p => (chunks true (run (passTerms ts p) w (min 512 (hi - w))) w (min (w + 512) hi)).foldl add32 s) s) start
  else (chunks false (live ts) lo hi).foldl add32 start

/-- A pairwise tree over a list padded with −0 to `2^h` leaves (R210). -/
def pairTree (add : Fp → Fp → Fp) : Nat → List Fp → Fp
  | 0, xs => xs.headD negZero
  | h + 1, xs => add (pairTree add h (xs.take (2 ^ h))) (pairTree add h (xs.drop (2 ^ h)))

/-- The least `h` with `2^h ≥ n`. -/
def log2Up (n : Nat) : Nat := if n ≤ 1 then 0 else Nat.log2 (n - 1) + 1

/-- FV-7216 compatibility order (R207): groups of `g` products by a pairwise tree in P24, group totals added in order. -/
def fv7216 (g : Nat) (ts : List Term) (top : Nat) (start : Fp) : Fp :=
  let ls := live ts
  (upto (ceilDiv top g)).foldl (fun s k =>
    let xs := (upto g).map (fun i => match ls.find? (fun t => t.idx == k * g + i) with
      | some t => product t
      | none => negZero)
    add32 s (pairTree add24 (log2Up g) xs)) start

/-- A leaf value (R209, R211): 512 indices from `lo`. -/
def leafValue (fp32 : Bool) (ts : List Term) (lo : Nat) : Fp :=
  if fp32 then sum32 (passes.map (fun p => sum32 (chunks true (run (passTerms ts p) lo 512) lo (lo + 512))))
  else sum32 (chunks false (run (live ts) lo 512) lo (lo + 512))

/-- Canonical order over the indices from `lo` to `hi` (R209, R210). DEDUCED, log entry 32. -/
def canonical (fp32 : Bool) (all : List Term) (lo hi : Nat) : Fp :=
  let l := ceilDiv (hi - lo) 512
  let ts := run all lo (hi - lo)
  pairTree add32 (log2Up l) ((upto l).map (fun i => leafValue fp32 ts (lo + 512 * i)))

/-- Indices of quadrant `g` under OS SPLIT 3 (R205). -/
def quadRange (p k g : Nat) : Nat × Nat :=
  let kq := ceilDiv (ceilDiv k 4) p * p
  (min (g * kq) k, min ((g + 1) * kq) k)

/-- The sum of one output element before step 3 of the drain (R199 steps 1 and 2): order 0 native, 1 compatibility, 2 canonical. `quad`
tells that OS SPLIT 3 is in effect, `os` that the class is O or Q. DEDUCED, log entry 32. -/
def accumulate (order grp : Nat) (os quad fp32 : Bool) (p k : Nat) (sh : Shape) (pre : Option Fp) (ts : List Term) : Fp :=
  let start := pre.getD negZero
  let addPre (x : Fp) : Fp := match pre with
    | some b => add32 x b
    | none => x
  if order = 2 then
    if quad then
      let r (g : Nat) : Fp := let q := quadRange p k g; canonical fp32 ts q.1 q.2
      addPre (add32 (add32 (r 0) (r 1)) (add32 (r 2) (r 3)))
    else addPre (canonical fp32 ts 0 sh.top)
  else if order = 1 ∧ !fp32 then fv7216 (if grp = 0 then 4 else if grp = 1 then 8 else 16) ts sh.top start
  else if os then
    if quad then
      let r (g : Nat) (s : Fp) : Fp := let q := quadRange p k g; nativeO fp32 ts q.1 q.2 s
      add32 (add32 (r 0 start) (r 1 negZero)) (add32 (r 2 negZero) (r 3 negZero))
    else nativeO fp32 ts 0 sh.top start
  else nativeW fp32 sh ts start

/-- Step 3 of R199: −0 becomes +0. -/
def posZero (x : Fp) : Fp := if x.isZero then Fp.zero else x

end Sys2Proof.Machine
end

