-- ==== Sys2Proof/Machine/Rng.lean ====
section
/-!
DEFINITION. The two random-number generators (R436 to R446).
-/
namespace Sys2Proof.Machine
open Sys2Proof

/-- The low 64 bits. -/
def w64 (x : Nat) : Nat := x % 2 ^ 64

/-- Rotate a 64-bit value left. -/
def rotl64 (x n : Nat) : Nat := w64 (x <<< (n % 64)) ||| (w64 x >>> (64 - n % 64))

/-- One round of the position-keyed generator (R436). -/
def pkRound (k x r : Nat) : Nat :=
  let a := w64 (x * 0xA24BAED4963EE407)
  let b := a ^^^ (a >>> 31)
  w64 (b + rotl64 k (13 * r + 7))

/-- The position-keyed output PK(K, C) (R436). -/
def pk (k c : Nat) : Nat := (upto 6).foldl (pkRound (w64 k)) (w64 c ^^^ w64 k)

/-- A derived key KD(K, s, x) (R438). -/
def kd (k s x : Nat) : Nat := pk k (w64 (s <<< 48) ||| x % 2 ^ 48)

/-- A counter: 16-bit stream and 48-bit position (R437). -/
def counter (stream pos : Nat) : Nat := (stream % 2 ^ 16) * 2 ^ 48 + pos % 2 ^ 48

/-- The draw of a rounding group under code 4 in a descriptor output (R439). -/
def roundDraw (key stream base g : Nat) : Nat := pk key (counter stream (base + g))

/-- A single step of the lane-keyed generator (R444). -/
def lfsrStep (s : Nat) : Nat := if s % 2 = 1 then (s / 2) ^^^ 0x80200003 else s / 2

/-- A next state: 32 single steps (R444). -/
def lfsrNext (s : Nat) : Nat := iter lfsrStep 32 s

/-- The key of a lane's state: quarter, unit, lane (R446). -/
def laneKey (q u l : Nat) : Nat := q * 2 ^ 13 + u * 2 ^ 5 + l

/-- A lane's state: listed, or its reset seed (R446). -/
def laneState (m : SMap Nat) (k : Nat) : Nat := (sfind m k).getD (k + 1)

/-- Write a lane's state; a seed of zero becomes 1 (R446). -/
def setLane (m : SMap Nat) (k v : Nat) : SMap Nat :=
  let v := if v = 0 then 1 else v
  if v = k + 1 then sdel m k else sput m k v

/-- Two successive next states of a lane: the draw D of rounding code 5 (R128, R444). -/
def laneDraw (m : SMap Nat) (k : Nat) : SMap Nat × Nat :=
  let a := lfsrNext (laneState m k)
  let b := lfsrNext a
  (setLane m k b, a + b * 2 ^ 32)

/-- Draws of code 5 for rounding groups in drain order: group g takes drain lane g mod 32 of the unit (R445). -/
def drainDraws (m : SMap Nat) (q : Nat) (u : Nat → Nat) (groups : List Nat) : SMap Nat × SMap Nat :=
  groups.foldl (fun (p : SMap Nat × SMap Nat) g =>
    let (m1, d) := laneDraw p.1 (laneKey q (u g) (g % 32))
    (m1, sput p.2 g d)) (m, [])

/-- The groups from `first` to below `total` in the order they take their draws: those that elements reach, in drain order of their first element, and
each group that no element reaches right after the one before it (R445). -/
def drawOrder (first total : Nat) (reached : List Nat) : List Nat :=
  let seen := reached.foldl (fun (l : List Nat) g => if l.contains g then l else l ++ [g]) []
  let lead := ((upto (total - first)).map (· + first)).takeWhile (fun g => !seen.contains g)
  let tail (g : Nat) : List Nat := ((upto (total - (g + 1))).map (· + (g + 1))).takeWhile (fun h => !seen.contains h)
  lead ++ (seen.map (fun g => g :: tail g)).flatten

end Sys2Proof.Machine
end

