-- ==== Sys2Proof/Machine/Act.lean ====
section
/-!
DEFINITION. The fused functions of a drain and their derivatives (R402 to R420), on decoded FP32 values.
-/
namespace Sys2Proof.Machine
open Sys2Proof

/-- The fields of a kept region header that software writes (R405), with the defaults of R406 applied by the functions that use them. -/
structure KeepHdr where
  fwdAct : Nat := 0
  layerTag : Nat := 0
  rows : Nat := 0
  cols : Nat := 0
  param : Fp := Fp.zero
  dropP : Nat := 0
  scale : Fp := Fp.zero
  key : Nat := 0
  grow0 : Nat := 0
  gcol0 : Nat := 0
  gamma : Nat := 0
  beta : Nat := 0
  dgamma : Nat := 0
  dbeta : Nat := 0
deriving DecidableEq, Repr

/-- One. -/
def fp1 : Fp := .fin false 1 0

/-- FP32 multiplication, addition, subtraction and division as `rnd` of R403. -/
def mul32 (x y : Fp) : Fp := rnd32 (Fp.mul x y)
/-- FP32 subtraction. -/
def sub32 (x y : Fp) : Fp := rnd32 (Fp.sub x y)
/-- FP32 division. -/
def div32 (x y : Fp) : Fp := rnd32 (Fp.div x y)

/-- Greater than zero. -/
def Fp.pos (x : Fp) : Bool := Fp.lt Fp.zero x

/-- The FP32 value of log₂ e (R412). -/
def log2e : Fp := decodeBits 1 0x3FB8AA3B

/-- σ of R412. -/
def sigmoid (u : Fp) : Fp := div32 fp1 (add32 fp1 (exp2f (mul32 u.neg log2e)))

/-- th of R412. -/
def tanhF (u : Fp) : Fp :=
  let two : Fp := .fin false 2 0
  sub32 (mul32 two (sigmoid (mul32 two u))) fp1

/-- PARAM of RELU_CLIP: not positive or NaN acts as 6.0 (R406). -/
def clipParam (p : Fp) : Fp := if p.pos then p else .fin false 6 0
/-- PARAM of LNORM: not positive or NaN acts as 2⁻²⁰ (R406). -/
def epsParam (p : Fp) : Fp := if p.pos then p else .fin false 1 (-20)
/-- PARAM of SWISH and SOFTMAX: ±0 acts as 1.0 (R406). -/
def unitParam (p : Fp) : Fp := if p.isZero then fp1 else p

/-- The dropout flag D of element (m, n): 1 keeps it (R413, R439). -/
def dropFlag (h : KeepHdr) (m n : Nat) : Bool :=
  let d := pk (kd h.key 0xFFFE h.layerTag) (((h.grow0 + m) % 2 ^ 40) * 2 ^ 24 + (h.gcol0 + n) % 2 ^ 24)
  decide (d / 2 ^ 32 ≥ h.dropP)

/-- What an element function writes and keeps: h, the kept bit, and the kept FP32 value (R411). -/
structure ActOut where
  h : Fp
  bit : Bool := false
  kept : Fp := Fp.zero
deriving DecidableEq, Repr

/-- An element function at (m, n) (R404, R411). Codes that are no element function pass z. -/
def actElem (act : Nat) (hd : KeepHdr) (m n : Nat) (z : Fp) : ActOut :=
  if z = .nan ∧ 1 ≤ act ∧ act ≤ 8 then { h := .nan, bit := true, kept := .nan }
  else
    let sc := unitParam hd.scale
    match act with
    | 1 => { h := if z.pos then z else Fp.zero, bit := z.pos }
    | 2 =>
      let c := clipParam hd.param
      { h := if !z.pos then Fp.zero else if Fp.lt z c then z else c, bit := z.pos && Fp.lt z c }
    | 3 => { h := if z.pos then z else mul32 hd.param z, bit := z.pos }
    | 4 => { h := mul32 z (sigmoid (mul32 (unitParam hd.param) z)), kept := z }
    | 5 => let h := sigmoid z; { h := h, kept := h }
    | 6 => let h := tanhF z; { h := h, kept := h }
    | 7 => let d := dropFlag hd m n; { h := if d then mul32 z sc else Fp.zero, bit := d }
    | 8 => let d := dropFlag hd m n && z.pos; { h := if d then mul32 z sc else Fp.zero, bit := d }
    | _ => { h := z }

/-- The derivative of an element function (R411): `b` and `v` are the kept bit and value. -/
def actDeriv (act : Nat) (hd : KeepHdr) (b : Bool) (v g : Fp) : Fp :=
  let sc := unitParam hd.scale
  match act with
  | 1 | 2 => if b then g else Fp.zero
  | 3 => if b then g else mul32 hd.param g
  | 4 =>
    let az := mul32 (unitParam hd.param) v
    let s := sigmoid az
    mul32 g (add32 s (mul32 az (mul32 s (sub32 fp1 s))))
  | 5 => mul32 g (mul32 v (sub32 fp1 v))
  | 6 => mul32 g (sub32 fp1 (mul32 v v))
  | 7 | 8 => if b then mul32 g sc else Fp.zero
  | _ => g

/-- A row sum ΣT over the tree of R210 with 512 leaves (R415). -/
def rowTree (xs : List Fp) : Fp := pairTree add32 9 xs

/-- Larger of two values; a NaN loses. -/
def fmaxF (x y : Fp) : Fp := if Fp.lt x y || x == .nan then y else x

/-- LNORM of a row (R416): the outputs, the kept x̂, and the kept r. -/
def lnormRow (eps : Fp) (gamma beta : List Fp) (z : List Fp) : List Fp × List Fp × Fp :=
  let n := Fp.ofInt z.length
  let mu := div32 (rowTree z) n
  let d := z.map (fun x => sub32 x mu)
  let v := div32 (rowTree (d.map (fun x => mul32 x x))) n
  let r := div32 fp1 (rnd32 (Fp.sqrt (add32 v eps)))
  let xh := d.map (fun x => mul32 x r)
  (xh.mapIdx (fun i x => add32 (mul32 x (nth fp1 gamma i)) (nth Fp.zero beta i)), xh, r)

/-- SOFTMAX of a row (R417). -/
def softmaxRow (param : Fp) (z : List Fp) : List Fp :=
  if z.any (fun x => x == .nan || x == .inf false) || z.all (fun x => x == .inf true) then z.map (fun _ => .nan)
  else
    let mx := z.foldl fmaxF (.inf true)
    let k := mul32 param log2e
    let e := z.map (fun x => exp2f (mul32 (sub32 x mx) k))
    let s := rowTree e
    e.map (fun x => div32 x s)

/-- D_APPLY of LNORM for a row (R418): gradients, γ, kept x̂ and r; N is the header's COLS. -/
def lnormGrad (n : Nat) (gamma xh : List Fp) (r : Fp) (g : List Fp) : List Fp :=
  let e := g.mapIdx (fun i x => mul32 x (nth fp1 gamma i))
  let nn := Fp.ofInt n
  let a := div32 (rowTree e) nn
  let b := div32 (rowTree (e.mapIdx (fun i x => mul32 x (nth Fp.zero xh i)))) nn
  e.mapIdx (fun i x => mul32 r (sub32 (sub32 x a) (mul32 (nth Fp.zero xh i) b)))

/-- D_APPLY of SOFTMAX for a row (R418). -/
def softmaxGrad (param : Fp) (h g : List Fp) : List Fp :=
  let k := rowTree (g.mapIdx (fun i x => mul32 x (nth Fp.zero h i)))
  g.mapIdx (fun i x => mul32 param (mul32 (nth Fp.zero h i) (sub32 x k)))

/-- Whether a code keeps one bit per element, and whether it keeps FP32 values (R402). -/
def keepsBits (act : Nat) : Bool := act == 1 || act == 2 || act == 3 || act == 7 || act == 8
/-- Whether a code keeps an FP32 value per element. -/
def keepsValues (act : Nat) : Bool := act == 4 || act == 5 || act == 6 || act == 10 || act == 11

/-- Functions that map every value at or below zero to +0 (R402). -/
def admitsPredictor (act : Nat) : Bool := act == 1 || act == 2 || act == 8

/-- Row pitch of kept data (R408). DEDUCED, log entry 30. -/
def keepPitch (act cols : Nat) : Nat := if keepsBits act then 32 * ceilDiv cols 256 else 32 * ceilDiv cols 8

/-- Size in bytes of a kept region under a function: header, data, and r values for LNORM (R410). -/
def keepSize (act rows cols : Nat) : Nat :=
  if act = 10 then 64 + 128 * ceilDiv (rows * keepPitch act cols) 128 + 4 * rows
  else if keepsBits act || keepsValues act then 64 + rows * keepPitch act cols else 64

end Sys2Proof.Machine
end

