-- ==== Sys2Proof/Config.lean ====
section
/-!
DEFINITION. What the spec leaves to the device and does not state: free values. Each is a constant with no body, so nothing can be
proved about its value, and every statement holds whatever it is.
-/
namespace Sys2Proof

/-- A fresh open value: the machine applies it to its counter of free values. DESIGN CHOICE, log entry 6. -/
opaque Config.freeValue : Nat → Nat

/-- The set in which a quarter's cache places a line, by effective cache size in MiB and line number (R464: not specified). DESIGN CHOICE, log entry 6; DEDUCED, log entry 59. -/
opaque Config.cacheSet : Nat → Nat → Nat

/-- The 128-byte place in a quarter's cache space that holds a line, by effective cache size in MiB and line number (R464: not specified). DESIGN CHOICE, log
entry 6; DEDUCED, log entry 59. -/
opaque Config.cacheCell : Nat → Nat → Nat

/-- The 80 bits of a beat of PRBS31 from a start state, by the number of its 8-byte word in the run (R483: which bit goes to which lane is not stated).
DESIGN CHOICE, log entry 56. -/
opaque Config.prbsBeat : Nat → Nat → Nat

/-- The value a vector register that was never written reads as, by draw, register and thread (R37: it may differ between runs). DESIGN CHOICE, log entry 47. -/
opaque Config.unwrittenReg : Nat → Nat → Nat → Nat

/-- What field `k` (key, address, width, operand) of a deferred-add log entry says whose 16 bytes this device did not write (R359: no layout is stated).
DESIGN CHOICE, log entry 107. -/
opaque Config.logField : Nat → Nat → Nat

/-- How many group slots collective work takes on a reserved processor while a collective is open on its quarter, by draw and processor (R592: not stated). DESIGN CHOICE, log entry
124. -/
opaque Config.collSlots : Nat → Nat → Nat

/-- The physical value of an analogue figure that the spec names without a formula, by register key (estimates, powers, margins). -/
opaque Config.analogue : Nat → Nat → Nat

end Sys2Proof
end

