-- ==== Sys2Proof/Machine/RegMap.lean ====
section
/-!
DEFINITION. The register map (R759 to R769 and the field maps of every chapter): where each register lies, which bits each access type
of R12 covers, its reset value, and which bits CLR_COUNTS clears (R763). A register's key is its BAR 0 offset, with the instance
number of a selected bank (a channel, a unit, a port, a watch, a page's route, a range) above it, and the shadow copy of an RWS
register above that.
-/
namespace Sys2Proof.Machine
open Sys2Proof

/-- One block register: its block (0 to 8 for device pages, `0x10 + b` for block `b` of a quarter), page offset, reset value, and the bit
masks of its access types. `cnt` are the bits CLR_COUNTS clears, `hi` marks a latched high half, `q0` a register of Q0's instance only. -/
structure RegDef where
  blk : Nat
  off : Nat
  reset : Nat := 0
  rw : Nat := 0
  w1c : Nat := 0
  w1s : Nat := 0
  rws : Nat := 0
  rwl : Nat := 0
  cnt : Nat := 0
  hi : Bool := false
  q0 : Bool := false
deriving DecidableEq, Repr

/-- Block registers of the clusterTime page (R61). -/
def clusterTimeRegs : List RegDef := [
  { blk := 0x04, off := 0x040 },
  { blk := 0x04, off := 0x044, hi := true },
  { blk := 0x04, off := 0x048, reset := 0xF008, rwl := 0xF1FF },
  { blk := 0x04, off := 0x04C, reset := 0xFF0000 },
  { blk := 0x04, off := 0x050, rw := 0xFFFFFFFF },
  { blk := 0x04, off := 0x054, rw := 0xFFFFFFFF },
  { blk := 0x04, off := 0x058 },
  { blk := 0x04, off := 0x05C, cnt := 0xFFFFFFFF }]

/-- Block registers of the command page (R89). -/
def commandRegs : List RegDef := [
  { blk := 0x05, off := 0x040, rw := 0x7FFFF000 },
  { blk := 0x05, off := 0x044, rw := 0x1FFF },
  { blk := 0x05, off := 0x048, reset := 0x10, rw := 0x7F },
  { blk := 0x05, off := 0x04C, reset := 0x2710, rw := 0xFFFFFFFF },
  { blk := 0x05, off := 0x050, reset := 0x3E80064, rw := 0xFFFFFFFF },
  { blk := 0x05, off := 0x054, reset := 0x14, rw := 0xFFFF },
  { blk := 0x05, off := 0x058, rw := 0xFFF },
  { blk := 0x05, off := 0x05C, rw := 0xFFFFFFFF },
  { blk := 0x05, off := 0x060, rw := 0xFFFFFFFF }]

/-- Block registers of the array page (R182). -/
def arrayRegs : List RegDef := [
  { blk := 0x10, off := 0x040, reset := 0x8, rw := 0x1F },
  { blk := 0x10, off := 0x044, cnt := 0xFFFFFFFF },
  { blk := 0x10, off := 0x048, cnt := 0xFFFFFFFF },
  { blk := 0x10, off := 0x04C },
  { blk := 0x10, off := 0x050 },
  { blk := 0x10, off := 0x054, cnt := 0xFFFFFFFF },
  { blk := 0x10, off := 0x058, cnt := 0xFFFFFFFF, hi := true },
  { blk := 0x10, off := 0x05C, cnt := 0xFFFFFFFF },
  { blk := 0x10, off := 0x060, cnt := 0xFFFFFFFF, hi := true }]

/-- Block registers of the sparse page (R261). -/
def sparseRegs : List RegDef := [
  { blk := 0x11, off := 0x040, reset := 0x10, rw := 0x1FF },
  { blk := 0x11, off := 0x044, cnt := 0xFFFFFFFF },
  { blk := 0x11, off := 0x048, cnt := 0xFFFFFFFF },
  { blk := 0x11, off := 0x04C, cnt := 0xFFFFFFFF, hi := true },
  { blk := 0x11, off := 0x050, cnt := 0xFFFFFFFF },
  { blk := 0x11, off := 0x054, cnt := 0xFFFFFFFF, hi := true },
  { blk := 0x11, off := 0x058, cnt := 0xFFFFFFFF },
  { blk := 0x11, off := 0x05C, cnt := 0xFFFF0000 },
  { blk := 0x11, off := 0x060, reset := 0xC000, rw := 0x1FFFF },
  { blk := 0x11, off := 0x064, reset := 0x40, rw := 0xFFFF, cnt := 0xFFFF0000 },
  { blk := 0x11, off := 0x068, cnt := 0xFFFFFFFF },
  { blk := 0x11, off := 0x06C, cnt := 0xFFFFFFFF },
  { blk := 0x11, off := 0x070, cnt := 0xFFFFFFFF },
  { blk := 0x11, off := 0x074, cnt := 0xFFFFFFFF, hi := true }]

/-- Block registers of the sampler page (R298). -/
def samplerRegs : List RegDef := [
  { blk := 0x12, off := 0x040, rw := 0x7FFFFFFF },
  { blk := 0x12, off := 0x044, reset := 0x80, rw := 0x1F1 },
  { blk := 0x12, off := 0x048, cnt := 0xFFFFFFFF },
  { blk := 0x12, off := 0x04C, cnt := 0xFFFFFFFF, hi := true },
  { blk := 0x12, off := 0x050, cnt := 0xFFFFFFFF },
  { blk := 0x12, off := 0x054, cnt := 0xFFFFFFFF },
  { blk := 0x12, off := 0x058, cnt := 0xFFFFFFFF },
  { blk := 0x12, off := 0x05C, cnt := 0xFFFFFFFF },
  { blk := 0x12, off := 0x060, cnt := 0xFFFF0000 }]

/-- Block registers of the embedding page (R339). -/
def embeddingRegs : List RegDef := [
  { blk := 0x13, off := 0x040, rw := 0x7FFFFFFF },
  { blk := 0x13, off := 0x044, rw := 0x1 },
  { blk := 0x13, off := 0x048, rw := 0x7FFFFFFF },
  { blk := 0x13, off := 0x04C, reset := 0x10, rw := 0x7F },
  { blk := 0x13, off := 0x050, reset := 0x10, rw := 0x7F },
  { blk := 0x13, off := 0x054, rw := 0xFFFFFFFF },
  { blk := 0x13, off := 0x058, rw := 0xFFFFFFFF },
  { blk := 0x13, off := 0x05C, rw := 0xFFFFFFFF },
  { blk := 0x13, off := 0x060, reset := 0x40000, rw := 0x1FFFFF },
  { blk := 0x13, off := 0x064, reset := 0x11408, rw := 0x800FFFFF },
  { blk := 0x13, off := 0x068, reset := 0x400, rw := 0xFFFF },
  { blk := 0x13, off := 0x06C, cnt := 0xFFFFFFFF },
  { blk := 0x13, off := 0x070, cnt := 0xFFFFFFFF },
  { blk := 0x13, off := 0x074, cnt := 0xFFFFFFFF },
  { blk := 0x13, off := 0x078, cnt := 0xFFFFFFFF },
  { blk := 0x13, off := 0x07C, cnt := 0xFFFFFFFF },
  { blk := 0x13, off := 0x080, cnt := 0xFFFFFFFF }]

/-- Block registers of the lane page (R371). -/
def laneRegs : List RegDef := [
  { blk := 0x14, off := 0x040, reset := 0xFF7F8020 },
  { blk := 0x14, off := 0x044 },
  { blk := 0x14, off := 0x048, cnt := 0xFFFFFFFF },
  { blk := 0x14, off := 0x04C, cnt := 0xFFFFFFFF },
  { blk := 0x14, off := 0x050, cnt := 0xFFFFFFFF },
  { blk := 0x14, off := 0x054, cnt := 0xFFFFFFFF, hi := true },
  { blk := 0x14, off := 0x058 }]

/-- Block registers of the training page (R430). -/
def trainingRegs : List RegDef := [
  { blk := 0x08, off := 0x040, rw := 0xFFFFFFFF },
  { blk := 0x08, off := 0x044, rw := 0xFFFFFFFF },
  { blk := 0x08, off := 0x048, rw := 0xFFFFFFFF },
  { blk := 0x08, off := 0x04C, rw := 0xFFFFFFFF },
  { blk := 0x08, off := 0x050, rw := 0xFFFFFFFF },
  { blk := 0x08, off := 0x054, rw := 0xFFFFFFFF },
  { blk := 0x08, off := 0x058, rw := 0xFFFFFFFF },
  { blk := 0x08, off := 0x05C },
  { blk := 0x08, off := 0x060, cnt := 0xFFFFFFFF },
  { blk := 0x08, off := 0x064, cnt := 0xFFFFFFFF, hi := true },
  { blk := 0x08, off := 0x068, cnt := 0xFFFFFFFF }]

/-- Block registers of the erg page (R484). -/
def ergRegs : List RegDef := [
  { blk := 0x15, off := 0x040, reset := 0x80, rw := 0x1FF },
  { blk := 0x15, off := 0x044, reset := 0x40, rw := 0x1FF },
  { blk := 0x15, off := 0x048, reset := 0x80015E },
  { blk := 0x15, off := 0x04C, cnt := 0xFFFF0000 },
  { blk := 0x15, off := 0x050, cnt := 0xFFFFFFFF },
  { blk := 0x15, off := 0x054, cnt := 0xFFFFFFFF, hi := true },
  { blk := 0x15, off := 0x058, cnt := 0xFFFFFFFF },
  { blk := 0x15, off := 0x05C, cnt := 0xFFFFFFFF, hi := true },
  { blk := 0x15, off := 0x060, cnt := 0xFFFFFFFF },
  { blk := 0x15, off := 0x064, cnt := 0xFFFFFFFF, hi := true },
  { blk := 0x15, off := 0x068, cnt := 0xFFFFFFFF },
  { blk := 0x15, off := 0x06C, cnt := 0xFFFFFFFF },
  { blk := 0x15, off := 0x070, cnt := 0xFFFFFFFF }]

/-- Block registers of the memory page (R486). -/
def memoryRegs : List RegDef := [
  { blk := 0x16, off := 0x040, rw := 0xFFFFFFFF, q0 := true },
  { blk := 0x16, off := 0x044, rw := 0xFFFFFFFF, q0 := true },
  { blk := 0x16, off := 0x048, rw := 0xFFFFFFFF, q0 := true },
  { blk := 0x16, off := 0x04C, q0 := true },
  { blk := 0x16, off := 0x050, cnt := 0xFFFFFFFF },
  { blk := 0x16, off := 0x054, cnt := 0xFFFFFFFF },
  { blk := 0x16, off := 0x058, cnt := 0xFFFFFFFF, hi := true },
  { blk := 0x16, off := 0x060, rw := 0x3F },
  { blk := 0x16, off := 0x064 },
  { blk := 0x16, off := 0x068, cnt := 0xFFFFFFFF },
  { blk := 0x16, off := 0x06C, w1s := 0x1 },
  { blk := 0x16, off := 0x070, reset := 0x200032, rw := 0x80FFFFFF },
  { blk := 0x16, off := 0x080, reset := 0x10000, rw := 0xFFFF0078, w1s := 0x7 },
  { blk := 0x16, off := 0x084, rw := 0x1FF01FF },
  { blk := 0x16, off := 0x088, reset := 0x1, rw := 0x7FFFFFFF },
  { blk := 0x16, off := 0x08C, w1c := 0x2, cnt := 0xFFFF0000 },
  { blk := 0x16, off := 0x090 },
  { blk := 0x16, off := 0x094 },
  { blk := 0x16, off := 0x098 },
  { blk := 0x16, off := 0x09C }]

/-- Block registers of the ecc page (R517). -/
def eccRegs : List RegDef := [
  { blk := 0x17, off := 0x040, reset := 0x30, rw := 0x1F1 },
  { blk := 0x17, off := 0x044, reset := 0xA0040, rw := 0xFFFFFFFF },
  { blk := 0x17, off := 0x048, reset := 0x4000100, rw := 0xFFFFFFFF },
  { blk := 0x17, off := 0x04C, reset := 0x1E, rw := 0x8000FFFF },
  { blk := 0x17, off := 0x050, rw := 0x7F },
  { blk := 0x17, off := 0x054, cnt := 0xFFFF0000 },
  { blk := 0x17, off := 0x058, cnt := 0xFFFFFFFF },
  { blk := 0x17, off := 0x05C, cnt := 0xFFFFFFFF },
  { blk := 0x17, off := 0x060, reset := 0xFFFFFFFF },
  { blk := 0x17, off := 0x064, reset := 0xFFFFFFFF },
  { blk := 0x17, off := 0x068, reset := 0xFFFFFFFF },
  { blk := 0x17, off := 0x06C, cnt := 0xFFFFFFFF },
  { blk := 0x17, off := 0x070 },
  { blk := 0x17, off := 0x074, cnt := 0xFFFF0000 },
  { blk := 0x17, off := 0x078 },
  { blk := 0x17, off := 0x07C, q0 := true },
  { blk := 0x17, off := 0x080, q0 := true }]

/-- Block registers of the seif page (R555). -/
def seifRegs : List RegDef := [
  { blk := 0x18, off := 0x040, reset := 0xFFFF, rwl := 0xFFFF, q0 := true },
  { blk := 0x18, off := 0x044, rwl := 0x1FFFF, q0 := true },
  { blk := 0x18, off := 0x048, rw := 0x7FFFFFFF, q0 := true },
  { blk := 0x18, off := 0x04C, reset := 0xFFFF, rwl := 0xFFFF, q0 := true },
  { blk := 0x18, off := 0x050, rw := 0x3F3F, q0 := true },
  { blk := 0x18, off := 0x060, rw := 0x7 },
  { blk := 0x18, off := 0x064, reset := 0x1, rw := 0x5, w1s := 0x2 },
  { blk := 0x18, off := 0x068, cnt := 0xFFFF0000 },
  { blk := 0x18, off := 0x06C, reset := 0xFFFF },
  { blk := 0x18, off := 0x070, reset := 0x1000000, rw := 0x1FFF001F },
  { blk := 0x18, off := 0x074, cnt := 0xFFFFFFFF },
  { blk := 0x18, off := 0x078, cnt := 0xFFFFFFFF },
  { blk := 0x18, off := 0x07C, cnt := 0xFFFFFFFF },
  { blk := 0x18, off := 0x080, cnt := 0xFFFFFFFF },
  { blk := 0x18, off := 0x084, cnt := 0xFFFFFFFF },
  { blk := 0x18, off := 0x088, cnt := 0xFFFFFFFF },
  { blk := 0x18, off := 0x08C, cnt := 0xFFFFFFFF },
  { blk := 0x18, off := 0x090, cnt := 0xFFFFFFFF, hi := true },
  { blk := 0x18, off := 0x094, cnt := 0xFFFFFFFF },
  { blk := 0x18, off := 0x098, cnt := 0xFFFFFFFF, hi := true }]

/-- Block registers of the collective page (R593). -/
def collectiveRegs : List RegDef := [
  { blk := 0x19, off := 0x040, reset := 0x8, rw := 0x3F },
  { blk := 0x19, off := 0x044, rw := 0x7FFFF000 },
  { blk := 0x19, off := 0x048, rw := 0x7F },
  { blk := 0x19, off := 0x04C },
  { blk := 0x19, off := 0x050, rw := 0xFFFF },
  { blk := 0x19, off := 0x054 },
  { blk := 0x19, off := 0x058, w1c := 0x7 },
  { blk := 0x19, off := 0x05C, cnt := 0xFFFFFFFF },
  { blk := 0x19, off := 0x060, cnt := 0xFFFFFFFF, hi := true },
  { blk := 0x19, off := 0x064, cnt := 0xFFFFFFFF }]

/-- Block registers of the job page (R637). -/
def jobRegs : List RegDef := [
  { blk := 0x07, off := 0x040, reset := 0x20000, rw := 0x70000, rwl := 0x3FFF },
  { blk := 0x07, off := 0x044, reset := 0xFFFF, rwl := 0xFFFF },
  { blk := 0x07, off := 0x048, rw := 0x7FFFFFFF },
  { blk := 0x07, off := 0x04C },
  { blk := 0x07, off := 0x050 },
  { blk := 0x07, off := 0x054, rw := 0xFFFF01FF },
  { blk := 0x07, off := 0x058, cnt := 0xFFFF0000 },
  { blk := 0x07, off := 0x05C, reset := 0xFFFF, rw := 0x30000 },
  { blk := 0x07, off := 0x060, rw := 0x7FFFFFFF },
  { blk := 0x07, off := 0x064, rw := 0x7FFFFFFF },
  { blk := 0x07, off := 0x068, rw := 0x7FFFFFFF },
  { blk := 0x07, off := 0x06C, rw := 0x7FFFFFFF },
  { blk := 0x07, off := 0x070, rw := 0xFFFFFFFF },
  { blk := 0x07, off := 0x074, rw := 0xFFFFFFFF },
  { blk := 0x07, off := 0x078, rw := 0x3F },
  { blk := 0x07, off := 0x07C, rw := 0x807FFFFF },
  { blk := 0x07, off := 0x080, rw := 0x7FFFFF },
  { blk := 0x07, off := 0x084, rw := 0x7FFFFF },
  { blk := 0x07, off := 0x088, rw := 0x7FFFFF },
  { blk := 0x07, off := 0x08C },
  { blk := 0x07, off := 0x090 },
  { blk := 0x07, off := 0x094, w1s := 0xF },
  { blk := 0x07, off := 0x098 },
  { blk := 0x07, off := 0x09C },
  { blk := 0x07, off := 0x0A0, cnt := 0xFFFFFFFF },
  { blk := 0x07, off := 0x0A4, cnt := 0xFFFFFFFF, hi := true }]

/-- Block registers of the power page (R669). -/
def powerRegs : List RegDef := [
  { blk := 0x06, off := 0x040, reset := 0x5DC, rws := 0x7FF },
  { blk := 0x06, off := 0x044, reset := 0x5A0024, rws := 0xFF003F },
  { blk := 0x06, off := 0x048, reset := 0x1100020, rw := 0x13F },
  { blk := 0x06, off := 0x04C, reset := 0x21010 },
  { blk := 0x06, off := 0x050 },
  { blk := 0x06, off := 0x054 },
  { blk := 0x06, off := 0x058, reset := 0x20190, rw := 0xF0FFF },
  { blk := 0x06, off := 0x05C, reset := 0x1, rw := 0x1FFFF7F },
  { blk := 0x06, off := 0x060, reset := 0x64, rw := 0xFF },
  { blk := 0x06, off := 0x064, reset := 0x1F4, rw := 0x7FF },
  { blk := 0x06, off := 0x068, reset := 0x32, rw := 0x7F },
  { blk := 0x06, off := 0x06C, cnt := 0xFFFFFFFF },
  { blk := 0x06, off := 0x070 },
  { blk := 0x06, off := 0x074, cnt := 0xFFFFFFFF },
  { blk := 0x06, off := 0x078, cnt := 0xFFFFFFFF, hi := true },
  { blk := 0x06, off := 0x07C, cnt := 0xFFFFFFFF },
  { blk := 0x06, off := 0x080, cnt := 0xFFFFFFFF, hi := true },
  { blk := 0x06, off := 0x084, cnt := 0xFFFFFFFF },
  { blk := 0x06, off := 0x088, cnt := 0xFFFFFFFF, hi := true },
  { blk := 0x06, off := 0x08C, cnt := 0xFFFFFFFF },
  { blk := 0x06, off := 0x090, cnt := 0xFFFFFFFF, hi := true },
  { blk := 0x06, off := 0x094, cnt := 0xFFFFFFFF },
  { blk := 0x06, off := 0x098, cnt := 0xFFFFFFFF, hi := true },
  { blk := 0x06, off := 0x09C, w1c := 0x1 }]

/-- Block registers of the host page (R693). -/
def hostRegs : List RegDef := [
  { blk := 0x02, off := 0x040, reset := 0x96481FD5 },
  { blk := 0x02, off := 0x044, cnt := 0xFFFF0000 },
  { blk := 0x02, off := 0x048, rw := 0xF0000000 },
  { blk := 0x02, off := 0x04C, rw := 0xFFFF },
  { blk := 0x02, off := 0x050, rw := 0x3FFF },
  { blk := 0x02, off := 0x054, rw := 0x3F },
  { blk := 0x02, off := 0x058, w1s := 0xFFFFFFFF },
  { blk := 0x02, off := 0x05C, w1s := 0xFFFFFFFF },
  { blk := 0x02, off := 0x060, rw := 0x7 },
  { blk := 0x02, off := 0x064, rw := 0x803F0FFF },
  { blk := 0x02, off := 0x068, reset := 0x1, rw := 0xFFFFFFFF },
  { blk := 0x02, off := 0x06C, w1c := 0xFF },
  { blk := 0x02, off := 0x070, rw := 0xFF00, w1s := 0x1 },
  { blk := 0x02, off := 0x074, w1c := 0xF },
  { blk := 0x02, off := 0x078, w1c := 0xC, w1s := 0x1 },
  { blk := 0x02, off := 0x080, rw := 0xFFFFFFFF },
  { blk := 0x02, off := 0x084, rw := 0xFFFFFFFF },
  { blk := 0x02, off := 0x088, rw := 0xFFFFFFFF },
  { blk := 0x02, off := 0x08C, rw := 0xFFFFFFFF },
  { blk := 0x02, off := 0x090, rw := 0xFFFFFFFF },
  { blk := 0x02, off := 0x094, rw := 0xFFFFFFFF },
  { blk := 0x02, off := 0x098, rw := 0xFFFFFFFF },
  { blk := 0x02, off := 0x09C, rw := 0xFFFFFFFF }]

/-- Block registers of the boot page (R724). -/
def bootRegs : List RegDef := [
  { blk := 0x00, off := 0x040, reset := 0x1 },
  { blk := 0x00, off := 0x044 },
  { blk := 0x00, off := 0x048, cnt := 0x3FF00 },
  { blk := 0x00, off := 0x04C },
  { blk := 0x00, off := 0x050 },
  { blk := 0x00, off := 0x054 },
  { blk := 0x00, off := 0x058 }]

/-- Block registers of the security page (R726). -/
def securityRegs : List RegDef := [
  { blk := 0x01, off := 0x040 },
  { blk := 0x01, off := 0x044 },
  { blk := 0x01, off := 0x048 },
  { blk := 0x01, off := 0x04C },
  { blk := 0x01, off := 0x050 },
  { blk := 0x01, off := 0x054, reset := 0x4, w1c := 0xC0, w1s := 0x20, rwl := 0x1F },
  { blk := 0x01, off := 0x060, rwl := 0xFFFFFFFF },
  { blk := 0x01, off := 0x064, rwl := 0xFFFFFFFF },
  { blk := 0x01, off := 0x068, rwl := 0xFFFFFFFF },
  { blk := 0x01, off := 0x06C, rwl := 0xFFFFFFFF },
  { blk := 0x01, off := 0x070, rwl := 0xFFFFFFFF },
  { blk := 0x01, off := 0x074, rwl := 0xFFFFFFFF },
  { blk := 0x01, off := 0x078, rwl := 0xFFFFFFFF },
  { blk := 0x01, off := 0x07C, rwl := 0xFFFFFFFF },
  { blk := 0x01, off := 0x080 },
  { blk := 0x01, off := 0x084 },
  { blk := 0x01, off := 0x088 },
  { blk := 0x01, off := 0x08C },
  { blk := 0x01, off := 0x090 },
  { blk := 0x01, off := 0x094 },
  { blk := 0x01, off := 0x098 },
  { blk := 0x01, off := 0x09C },
  { blk := 0x01, off := 0x0C0 },
  { blk := 0x01, off := 0x0C4 },
  { blk := 0x01, off := 0x0C8 },
  { blk := 0x01, off := 0x0CC },
  { blk := 0x01, off := 0x0D0 },
  { blk := 0x01, off := 0x0D4 },
  { blk := 0x01, off := 0x0D8 },
  { blk := 0x01, off := 0x0DC },
  { blk := 0x01, off := 0x0E0 },
  { blk := 0x01, off := 0x0E4 },
  { blk := 0x01, off := 0x0E8 },
  { blk := 0x01, off := 0x0EC },
  { blk := 0x01, off := 0x0F0 },
  { blk := 0x01, off := 0x0F4 },
  { blk := 0x01, off := 0x0F8 },
  { blk := 0x01, off := 0x0FC },
  { blk := 0x01, off := 0x100 },
  { blk := 0x01, off := 0x104 },
  { blk := 0x01, off := 0x108 },
  { blk := 0x01, off := 0x10C },
  { blk := 0x01, off := 0x110 },
  { blk := 0x01, off := 0x114 },
  { blk := 0x01, off := 0x118 },
  { blk := 0x01, off := 0x11C },
  { blk := 0x01, off := 0x120 },
  { blk := 0x01, off := 0x124 },
  { blk := 0x01, off := 0x128 },
  { blk := 0x01, off := 0x12C },
  { blk := 0x01, off := 0x130 },
  { blk := 0x01, off := 0x134 },
  { blk := 0x01, off := 0x138 },
  { blk := 0x01, off := 0x13C }]

/-- Block registers of the pin page (R757). -/
def pinRegs : List RegDef := [
  { blk := 0x03, off := 0x040 },
  { blk := 0x03, off := 0x044, rw := 0xFF },
  { blk := 0x03, off := 0x048, rw := 0xFF },
  { blk := 0x03, off := 0x04C },
  { blk := 0x03, off := 0x050, reset := 0x1, rw := 0xFFFF },
  { blk := 0x03, off := 0x054 },
  { blk := 0x03, off := 0x058, reset := 0x80000000, rw := 0x3F }]

/-- The block registers of a block. -/
def blockRegs (blk : Nat) : List RegDef :=
  match blk with
  | 0x00 => bootRegs
  | 0x01 => securityRegs
  | 0x02 => hostRegs
  | 0x03 => pinRegs
  | 0x04 => clusterTimeRegs
  | 0x05 => commandRegs
  | 0x06 => powerRegs
  | 0x07 => jobRegs
  | 0x08 => trainingRegs
  | 0x10 => arrayRegs
  | 0x11 => sparseRegs
  | 0x12 => samplerRegs
  | 0x13 => embeddingRegs
  | 0x14 => laneRegs
  | 0x15 => ergRegs
  | 0x16 => memoryRegs
  | 0x17 => eccRegs
  | 0x18 => seifRegs
  | 0x19 => collectiveRegs
  | _ => []

/-! Register addresses (R769). A device register is a BAR 0 offset; a quarter register is a function of the quarter. -/

/-- BAR 0 offset of page offset `o` in block `b` of quarter `q` (R759). -/
def qreg (q b o : Nat) : Nat := (0x100 + 0x20 * q + b) * 0x1000 + o

namespace Reg

/-- CT_NOW_LO. -/
def ctNowLo : Nat := 0x4040
/-- CT_NOW_HI. -/
def ctNowHi : Nat := 0x4044
/-- CT_CFG. -/
def ctCfg : Nat := 0x4048
/-- CT_STATE. -/
def ctState : Nat := 0x404C
/-- CT_SET_LO. -/
def ctSetLo : Nat := 0x4050
/-- CT_SET_HI. -/
def ctSetHi : Nat := 0x4054
/-- CT_OFFSET. -/
def ctOffset : Nat := 0x4058
/-- CT_LATE_COUNT. -/
def ctLateCount : Nat := 0x405C
/-- CP_PROG_BASE. -/
def cpProgBase : Nat := 0x5040
/-- CP_PROG_SIZE. -/
def cpProgSize : Nat := 0x5044
/-- CP_TXN_STAGE. -/
def cpTxnStage : Nat := 0x5048
/-- CP_TIMEOUT. -/
def cpTimeout : Nat := 0x504C
/-- CP_WDOG. -/
def cpWdog : Nat := 0x5050
/-- CP_COMMIT_LEAD. -/
def cpCommitLead : Nat := 0x5054
/-- CP_EVENT_SEL. -/
def cpEventSel : Nat := 0x5058
/-- CP_EVENT_VALUE. -/
def cpEventValue : Nat := 0x505C
/-- CP_EVENT_ADD. -/
def cpEventAdd : Nat := 0x5060
/-- ARRAY_CHK_TOL of quarter `q`. -/
def arrayChkTol (q : Nat) : Nat := qreg q 0x0 0x40
/-- ARRAY_DETECT of quarter `q`. -/
def arrayDetect (q : Nat) : Nat := qreg q 0x0 0x44
/-- ARRAY_RECOMPUTE of quarter `q`. -/
def arrayRecompute (q : Nat) : Nat := qreg q 0x0 0x48
/-- ARRAY_FAULT of quarter `q`. -/
def arrayFault (q : Nat) : Nat := qreg q 0x0 0x4C
/-- ARRAY_FAULT_ROW of quarter `q`. -/
def arrayFaultRow (q : Nat) : Nat := qreg q 0x0 0x50
/-- ARRAY_BUSY_LO of quarter `q`. -/
def arrayBusyLo (q : Nat) : Nat := qreg q 0x0 0x54
/-- ARRAY_BUSY_HI of quarter `q`. -/
def arrayBusyHi (q : Nat) : Nat := qreg q 0x0 0x58
/-- ARRAY_MAC_LO of quarter `q`. -/
def arrayMacLo (q : Nat) : Nat := qreg q 0x0 0x5C
/-- ARRAY_MAC_HI of quarter `q`. -/
def arrayMacHi (q : Nat) : Nat := qreg q 0x0 0x60
/-- SME_DENSITY_THRESH of quarter `q`. -/
def smeDensityThresh (q : Nat) : Nat := qreg q 0x1 0x40
/-- SME_SEGMENTS of quarter `q`. -/
def smeSegments (q : Nat) : Nat := qreg q 0x1 0x44
/-- SME_BUSY_LO of quarter `q`. -/
def smeBusyLo (q : Nat) : Nat := qreg q 0x1 0x48
/-- SME_BUSY_HI of quarter `q`. -/
def smeBusyHi (q : Nat) : Nat := qreg q 0x1 0x4C
/-- SME_MATCH_LO of quarter `q`. -/
def smeMatchLo (q : Nat) : Nat := qreg q 0x1 0x50
/-- SME_MATCH_HI of quarter `q`. -/
def smeMatchHi (q : Nat) : Nat := qreg q 0x1 0x54
/-- SME_DROP of quarter `q`. -/
def smeDrop (q : Nat) : Nat := qreg q 0x1 0x58
/-- SME_FAULT of quarter `q`. -/
def smeFault (q : Nat) : Nat := qreg q 0x1 0x5C
/-- PRED_MARGIN of quarter `q`. -/
def predMargin (q : Nat) : Nat := qreg q 0x1 0x60
/-- PRED_TARGET of quarter `q`. -/
def predTarget (q : Nat) : Nat := qreg q 0x1 0x64
/-- PRED_SKIPS of quarter `q`. -/
def predSkips (q : Nat) : Nat := qreg q 0x1 0x68
/-- PRED_MISSES of quarter `q`. -/
def predMisses (q : Nat) : Nat := qreg q 0x1 0x6C
/-- PRED_OFF_LO of quarter `q`. -/
def predOffLo (q : Nat) : Nat := qreg q 0x1 0x70
/-- PRED_OFF_HI of quarter `q`. -/
def predOffHi (q : Nat) : Nat := qreg q 0x1 0x74
/-- SAMP_GRAPH of quarter `q`. -/
def sampGraph (q : Nat) : Nat := qreg q 0x2 0x40
/-- SAMP_SERVE of quarter `q`. -/
def sampServe (q : Nat) : Nat := qreg q 0x2 0x44
/-- SAMP_EDGES_LO of quarter `q`. -/
def sampEdgesLo (q : Nat) : Nat := qreg q 0x2 0x48
/-- SAMP_EDGES_HI of quarter `q`. -/
def sampEdgesHi (q : Nat) : Nat := qreg q 0x2 0x4C
/-- SAMP_HALO_HITS of quarter `q`. -/
def sampHaloHits (q : Nat) : Nat := qreg q 0x2 0x50
/-- SAMP_REMOTE_SENT of quarter `q`. -/
def sampRemoteSent (q : Nat) : Nat := qreg q 0x2 0x54
/-- SAMP_REMOTE_SERVED of quarter `q`. -/
def sampRemoteServed (q : Nat) : Nat := qreg q 0x2 0x58
/-- SAMP_DROP of quarter `q`. -/
def sampDrop (q : Nat) : Nat := qreg q 0x2 0x5C
/-- SAMP_LATENCY of quarter `q`. -/
def sampLatency (q : Nat) : Nat := qreg q 0x2 0x60
/-- EMB_TBL_DIR of quarter `q`. -/
def embTblDir (q : Nat) : Nat := qreg q 0x3 0x40
/-- EMB_LLOG_BASE of quarter `q`. -/
def embLlogBase (q : Nat) : Nat := qreg q 0x3 0x48
/-- EMB_SERVE of quarter `q`. -/
def embServe (q : Nat) : Nat := qreg q 0x3 0x44
/-- EMB_LLOG_SIZE of quarter `q`. -/
def embLlogSize (q : Nat) : Nat := qreg q 0x3 0x4C
/-- EMB_COAL of quarter `q`. -/
def embCoal (q : Nat) : Nat := qreg q 0x3 0x50
/-- EMB_SPILL_LO of quarter `q`. -/
def embSpillLo (q : Nat) : Nat := qreg q 0x3 0x54
/-- EMB_SPILL_HI of quarter `q`. -/
def embSpillHi (q : Nat) : Nat := qreg q 0x3 0x58
/-- EMB_DRIFT_LO of quarter `q`. -/
def embDriftLo (q : Nat) : Nat := qreg q 0x3 0x5C
/-- EMB_DRIFT_HI of quarter `q`. -/
def embDriftHi (q : Nat) : Nat := qreg q 0x3 0x60
/-- EMB_BAL of quarter `q`. -/
def embBal (q : Nat) : Nat := qreg q 0x3 0x64
/-- EMB_MIG_MAX of quarter `q`. -/
def embMigMax (q : Nat) : Nat := qreg q 0x3 0x68
/-- EMB_SERVED of quarter `q`. -/
def embServed (q : Nat) : Nat := qreg q 0x3 0x6C
/-- EMB_FORWARDED of quarter `q`. -/
def embForwarded (q : Nat) : Nat := qreg q 0x3 0x70
/-- EMB_REDIRECTED of quarter `q`. -/
def embRedirected (q : Nat) : Nat := qreg q 0x3 0x74
/-- EMB_DROP of quarter `q`. -/
def embDrop (q : Nat) : Nat := qreg q 0x3 0x78
/-- EMB_MIGRATED of quarter `q`. -/
def embMigrated (q : Nat) : Nat := qreg q 0x3 0x7C
/-- EMB_SPILLS of quarter `q`. -/
def embSpills (q : Nat) : Nat := qreg q 0x3 0x80
/-- LANE_CAPS of quarter `q`. -/
def laneCaps (q : Nat) : Nat := qreg q 0x4 0x40
/-- LANE_FAULT of quarter `q`. -/
def laneFault (q : Nat) : Nat := qreg q 0x4 0x44
/-- LANE_REMOTE of quarter `q`. -/
def laneRemote (q : Nat) : Nat := qreg q 0x4 0x48
/-- LANE_RERUNS of quarter `q`. -/
def laneReruns (q : Nat) : Nat := qreg q 0x4 0x4C
/-- LANE_ISSUE_LO of quarter `q`. -/
def laneIssueLo (q : Nat) : Nat := qreg q 0x4 0x50
/-- LANE_ISSUE_HI of quarter `q`. -/
def laneIssueHi (q : Nat) : Nat := qreg q 0x4 0x54
/-- LANE_RESIDENT of quarter `q`. -/
def laneResident (q : Nat) : Nat := qreg q 0x4 0x58
/-- TRN_STASH_LO. -/
def trnStashLo : Nat := 0x8040
/-- TRN_SPARE_LO. -/
def trnSpareLo : Nat := 0x8048
/-- TRN_STASH_HI. -/
def trnStashHi : Nat := 0x8044
/-- TRN_SPARE_HI. -/
def trnSpareHi : Nat := 0x804C
/-- TRN_HOST_LO. -/
def trnHostLo : Nat := 0x8050
/-- TRN_HOST_HI. -/
def trnHostHi : Nat := 0x8054
/-- TRN_HOST_SIZE. -/
def trnHostSize : Nat := 0x8058
/-- TRN_TWIN_SPARE. -/
def trnTwinSpare : Nat := 0x805C
/-- TRN_MOVED_LO. -/
def trnMovedLo : Nat := 0x8060
/-- TRN_MOVED_HI. -/
def trnMovedHi : Nat := 0x8064
/-- TRN_DROP. -/
def trnDrop : Nat := 0x8068
/-- ERG_CACHE of quarter `q`. -/
def ergCache (q : Nat) : Nat := qreg q 0x5 0x40
/-- ERG_HINT_QUOTA of quarter `q`. -/
def ergHintQuota (q : Nat) : Nat := qreg q 0x5 0x44
/-- ERG_LAYOUT of quarter `q`. -/
def ergLayout (q : Nat) : Nat := qreg q 0x5 0x48
/-- ERG_KEEP of quarter `q`. -/
def ergKeep (q : Nat) : Nat := qreg q 0x5 0x4C
/-- ERG_HIT_LO of quarter `q`. -/
def ergHitLo (q : Nat) : Nat := qreg q 0x5 0x50
/-- ERG_HIT_HI of quarter `q`. -/
def ergHitHi (q : Nat) : Nat := qreg q 0x5 0x54
/-- ERG_MISS_LO of quarter `q`. -/
def ergMissLo (q : Nat) : Nat := qreg q 0x5 0x58
/-- ERG_MISS_HI of quarter `q`. -/
def ergMissHi (q : Nat) : Nat := qreg q 0x5 0x5C
/-- ERG_DMA_LO of quarter `q`. -/
def ergDmaLo (q : Nat) : Nat := qreg q 0x5 0x60
/-- ERG_DMA_HI of quarter `q`. -/
def ergDmaHi (q : Nat) : Nat := qreg q 0x5 0x64
/-- ERG_WRITEBACK of quarter `q`. -/
def ergWriteback (q : Nat) : Nat := qreg q 0x5 0x68
/-- ERG_LAST_DROP of quarter `q`. -/
def ergLastDrop (q : Nat) : Nat := qreg q 0x5 0x6C
/-- ERG_UNADDR of quarter `q`. -/
def ergUnaddr (q : Nat) : Nat := qreg q 0x5 0x70
/-- MEM_ILV0 of quarter `q`. -/
def memIlv0 (q : Nat) : Nat := qreg q 0x6 0x40
/-- MEM_ILV1 of quarter `q`. -/
def memIlv1 (q : Nat) : Nat := qreg q 0x6 0x44
/-- MEM_ILV2 of quarter `q`. -/
def memIlv2 (q : Nat) : Nat := qreg q 0x6 0x48
/-- MEM_ILV_STATE of quarter `q`. -/
def memIlvState (q : Nat) : Nat := qreg q 0x6 0x4C
/-- MEM_UNMAPPED of quarter `q`. -/
def memUnmapped (q : Nat) : Nat := qreg q 0x6 0x50
/-- MEM_RD_LO of quarter `q`. -/
def memRdLo (q : Nat) : Nat := qreg q 0x6 0x54
/-- MEM_RD_HI of quarter `q`. -/
def memRdHi (q : Nat) : Nat := qreg q 0x6 0x58
/-- MEM_CH_SEL of quarter `q`. -/
def memChSel (q : Nat) : Nat := qreg q 0x6 0x60
/-- MEM_CH_STATE of quarter `q`. -/
def memChState (q : Nat) : Nat := qreg q 0x6 0x64
/-- MEM_CH_RETRAINS of quarter `q`. -/
def memChRetrains (q : Nat) : Nat := qreg q 0x6 0x68
/-- MEM_RETRAIN_REQ of quarter `q`. -/
def memRetrainReq (q : Nat) : Nat := qreg q 0x6 0x6C
/-- MEM_HRT of quarter `q`. -/
def memHrt (q : Nat) : Nat := qreg q 0x6 0x70
/-- MEM_TG_CTRL of quarter `q`. -/
def memTgCtrl (q : Nat) : Nat := qreg q 0x6 0x80
/-- MEM_TG_FRAMES of quarter `q`. -/
def memTgFrames (q : Nat) : Nat := qreg q 0x6 0x84
/-- MEM_TG_SEED of quarter `q`. -/
def memTgSeed (q : Nat) : Nat := qreg q 0x6 0x88
/-- MEM_TG_STATUS of quarter `q`. -/
def memTgStatus (q : Nat) : Nat := qreg q 0x6 0x8C
/-- MEM_TG_FIRST of quarter `q`. -/
def memTgFirst (q : Nat) : Nat := qreg q 0x6 0x90
/-- MEM_TG_LANE0 of quarter `q`. -/
def memTgLane0 (q : Nat) : Nat := qreg q 0x6 0x94
/-- MEM_TG_LANE1 of quarter `q`. -/
def memTgLane1 (q : Nat) : Nat := qreg q 0x6 0x98
/-- MEM_TG_LANE2 of quarter `q`. -/
def memTgLane2 (q : Nat) : Nat := qreg q 0x6 0x9C
/-- ECC_CFG of quarter `q`. -/
def eccCfg (q : Nat) : Nat := qreg q 0x7 0x40
/-- ECC_BUCKET of quarter `q`. -/
def eccBucket (q : Nat) : Nat := qreg q 0x7 0x44
/-- ECC_SCRUB of quarter `q`. -/
def eccScrub (q : Nat) : Nat := qreg q 0x7 0x48
/-- ECC_SCRUB_TARGET of quarter `q`. -/
def eccScrubTarget (q : Nat) : Nat := qreg q 0x7 0x4C
/-- ECC_SEL of quarter `q`. -/
def eccSel (q : Nat) : Nat := qreg q 0x7 0x50
/-- ECC_LEVEL of quarter `q`. -/
def eccLevel (q : Nat) : Nat := qreg q 0x7 0x54
/-- ECC_CE of quarter `q`. -/
def eccCe (q : Nat) : Nat := qreg q 0x7 0x58
/-- ECC_UE of quarter `q`. -/
def eccUe (q : Nat) : Nat := qreg q 0x7 0x5C
/-- ECC_LAP_COUNT of quarter `q`. -/
def eccLapCount (q : Nat) : Nat := qreg q 0x7 0x6C
/-- ECC_LAP_LAST of quarter `q`. -/
def eccLapLast (q : Nat) : Nat := qreg q 0x7 0x60
/-- ECC_LAP_MIN of quarter `q`. -/
def eccLapMin (q : Nat) : Nat := qreg q 0x7 0x64
/-- ECC_LAP_MAX of quarter `q`. -/
def eccLapMax (q : Nat) : Nat := qreg q 0x7 0x68
/-- ECC_SPARES of quarter `q`. -/
def eccSpares (q : Nat) : Nat := qreg q 0x7 0x70
/-- ECC_MERGE of quarter `q`. -/
def eccMerge (q : Nat) : Nat := qreg q 0x7 0x74
/-- ECC_LOG_HEAD of quarter `q`. -/
def eccLogHead (q : Nat) : Nat := qreg q 0x7 0x78
/-- ECC_RETIRED of quarter `q`. -/
def eccRetired (q : Nat) : Nat := qreg q 0x7 0x7C
/-- ECC_REPAIR of quarter `q`. -/
def eccRepair (q : Nat) : Nat := qreg q 0x7 0x80
/-- SEIF_NODE of quarter `q`. -/
def seifNode (q : Nat) : Nat := qreg q 0x8 0x40
/-- SEIF_TWIN of quarter `q`. -/
def seifTwin (q : Nat) : Nat := qreg q 0x8 0x4C
/-- SEIF_TOPO of quarter `q`. -/
def seifTopo (q : Nat) : Nat := qreg q 0x8 0x44
/-- SEIF_ROUTE of quarter `q`. -/
def seifRoute (q : Nat) : Nat := qreg q 0x8 0x48
/-- SEIF_SPARE of quarter `q`. -/
def seifSpare (q : Nat) : Nat := qreg q 0x8 0x50
/-- SEIF_PORT_SEL of quarter `q`. -/
def seifPortSel (q : Nat) : Nat := qreg q 0x8 0x60
/-- SEIF_PORT_CTRL of quarter `q`. -/
def seifPortCtrl (q : Nat) : Nat := qreg q 0x8 0x64
/-- SEIF_PORT_STATE of quarter `q`. -/
def seifPortState (q : Nat) : Nat := qreg q 0x8 0x68
/-- SEIF_PEER of quarter `q`. -/
def seifPeer (q : Nat) : Nat := qreg q 0x8 0x6C
/-- SEIF_CREDIT of quarter `q`. -/
def seifCredit (q : Nat) : Nat := qreg q 0x8 0x70
/-- SEIF_FEC_CORR of quarter `q`. -/
def seifFecCorr (q : Nat) : Nat := qreg q 0x8 0x74
/-- SEIF_FEC_UNCORR of quarter `q`. -/
def seifFecUncorr (q : Nat) : Nat := qreg q 0x8 0x78
/-- SEIF_REPLAY of quarter `q`. -/
def seifReplay (q : Nat) : Nat := qreg q 0x8 0x7C
/-- SEIF_CRC of quarter `q`. -/
def seifCrc (q : Nat) : Nat := qreg q 0x8 0x80
/-- SEIF_DROP of quarter `q`. -/
def seifDrop (q : Nat) : Nat := qreg q 0x8 0x84
/-- SEIF_DOWNS of quarter `q`. -/
def seifDowns (q : Nat) : Nat := qreg q 0x8 0x88
/-- SEIF_TX_LO of quarter `q`. -/
def seifTxLo (q : Nat) : Nat := qreg q 0x8 0x8C
/-- SEIF_TX_HI of quarter `q`. -/
def seifTxHi (q : Nat) : Nat := qreg q 0x8 0x90
/-- SEIF_RX_LO of quarter `q`. -/
def seifRxLo (q : Nat) : Nat := qreg q 0x8 0x94
/-- SEIF_RX_HI of quarter `q`. -/
def seifRxHi (q : Nat) : Nat := qreg q 0x8 0x98
/-- COLL_LANES of quarter `q`. -/
def collLanes (q : Nat) : Nat := qreg q 0x9 0x40
/-- COLL_PARK_BASE of quarter `q`. -/
def collParkBase (q : Nat) : Nat := qreg q 0x9 0x44
/-- COLL_PARK_SIZE of quarter `q`. -/
def collParkSize (q : Nat) : Nat := qreg q 0x9 0x48
/-- COLL_JOB_GEN of quarter `q`. -/
def collJobGen (q : Nat) : Nat := qreg q 0x9 0x4C
/-- COLL_EPOCH_Q of quarter `q`. -/
def collEpochQ (q : Nat) : Nat := qreg q 0x9 0x50
/-- COLL_OPEN of quarter `q`. -/
def collOpen (q : Nat) : Nat := qreg q 0x9 0x54
/-- COLL_ERR of quarter `q`. -/
def collErr (q : Nat) : Nat := qreg q 0x9 0x58
/-- COLL_ADDS_LO of quarter `q`. -/
def collAddsLo (q : Nat) : Nat := qreg q 0x9 0x5C
/-- COLL_ADDS_HI of quarter `q`. -/
def collAddsHi (q : Nat) : Nat := qreg q 0x9 0x60
/-- COLL_DROP of quarter `q`. -/
def collDrop (q : Nat) : Nat := qreg q 0x9 0x64
/-- JOB_CFG. -/
def jobCfg : Nat := 0x7040
/-- JOB_LEADER. -/
def jobLeader : Nat := 0x7044
/-- JOB_GROUP. -/
def jobGroup : Nat := 0x7048
/-- JOB_ALIAS. -/
def jobAlias : Nat := 0x7060
/-- JOB_ADOPT_DIR. -/
def jobAdoptDir : Nat := 0x7064
/-- JOB_ADOPT_GRAPH. -/
def jobAdoptGraph : Nat := 0x7068
/-- JOB_RESTART_IMG. -/
def jobRestartImg : Nat := 0x706C
/-- JOB_STEP. -/
def jobStep : Nat := 0x704C
/-- JOB_EPOCH. -/
def jobEpoch : Nat := 0x7050
/-- JOB_RESHARD. -/
def jobReshard : Nat := 0x7054
/-- JOB_STATE. -/
def jobState : Nat := 0x7058
/-- JOB_ADOPT. -/
def jobAdopt : Nat := 0x705C
/-- JOB_STRANDS_LO. -/
def jobStrandsLo : Nat := 0x7070
/-- JOB_STRANDS_HI. -/
def jobStrandsHi : Nat := 0x7074
/-- TWIN_RANGE_SEL. -/
def twinRangeSel : Nat := 0x7078
/-- TWIN_RANGE_BASE. -/
def twinRangeBase : Nat := 0x707C
/-- TWIN_RANGE_LEN. -/
def twinRangeLen : Nat := 0x7080
/-- TWIN_JRNL_BASE. -/
def twinJrnlBase : Nat := 0x7084
/-- TWIN_JRNL_SIZE. -/
def twinJrnlSize : Nat := 0x7088
/-- TWIN_JRNL_USED. -/
def twinJrnlUsed : Nat := 0x708C
/-- TWIN_JRNL_PEAK. -/
def twinJrnlPeak : Nat := 0x7090
/-- TWIN_FILL. -/
def twinFill : Nat := 0x709C
/-- TWIN_CTRL. -/
def twinCtrl : Nat := 0x7094
/-- TWIN_STATE. -/
def twinState : Nat := 0x7098
/-- TWIN_MIRROR_LO. -/
def twinMirrorLo : Nat := 0x70A0
/-- TWIN_MIRROR_HI. -/
def twinMirrorHi : Nat := 0x70A4
/-- PWR_CAP. -/
def pwrCap : Nat := 0x6040
/-- PWR_ORDER. -/
def pwrOrder : Nat := 0x6044
/-- PWR_FREQ. -/
def pwrFreq : Nat := 0x6048
/-- PWR_FREQ_NOW. -/
def pwrFreqNow : Nat := 0x604C
/-- PWR_POWER. -/
def pwrPower : Nat := 0x6050
/-- PWR_ALLOC. -/
def pwrAlloc : Nat := 0x6054
/-- PWR_RAMP. -/
def pwrRamp : Nat := 0x6058
/-- PWR_STAGGER. -/
def pwrStagger : Nat := 0x605C
/-- PWR_THERM. -/
def pwrTherm : Nat := 0x6060
/-- PWR_EXT. -/
def pwrExt : Nat := 0x6064
/-- PWR_DROOP. -/
def pwrDroop : Nat := 0x6068
/-- PWR_DROOP_EVENTS. -/
def pwrDroopEvents : Nat := 0x606C
/-- PWR_THR_NOW. -/
def pwrThrNow : Nat := 0x6070
/-- PWR_THR_CAP_LO. -/
def pwrThrCapLo : Nat := 0x6074
/-- PWR_THR_CAP_HI. -/
def pwrThrCapHi : Nat := 0x6078
/-- PWR_THR_THERMAL_LO. -/
def pwrThrThermalLo : Nat := 0x607C
/-- PWR_THR_THERMAL_HI. -/
def pwrThrThermalHi : Nat := 0x6080
/-- PWR_THR_DROOP_LO. -/
def pwrThrDroopLo : Nat := 0x6084
/-- PWR_THR_DROOP_HI. -/
def pwrThrDroopHi : Nat := 0x6088
/-- PWR_THR_RAMP_LO. -/
def pwrThrRampLo : Nat := 0x608C
/-- PWR_THR_RAMP_HI. -/
def pwrThrRampHi : Nat := 0x6090
/-- PWR_THR_EXT_LO. -/
def pwrThrExtLo : Nat := 0x6094
/-- PWR_THR_EXT_HI. -/
def pwrThrExtHi : Nat := 0x6098
/-- PWR_TRIP. -/
def pwrTrip : Nat := 0x609C
/-- HOST_ID. -/
def hostId : Nat := 0x2040
/-- HOST_LINK. -/
def hostLink : Nat := 0x2044
/-- HOST_B2WIN_LO. -/
def hostB2winLo : Nat := 0x2048
/-- HOST_B2WIN_HI. -/
def hostB2winHi : Nat := 0x204C
/-- HOST_IRQ_SEL. -/
def hostIrqSel : Nat := 0x2050
/-- HOST_IRQ_ROUTE. -/
def hostIrqRoute : Nat := 0x2054
/-- HOST_IRQ_EOI_LO. -/
def hostIrqEoiLo : Nat := 0x2058
/-- HOST_IRQ_EOI_HI. -/
def hostIrqEoiHi : Nat := 0x205C
/-- HOST_WATCH_SEL. -/
def hostWatchSel : Nat := 0x2060
/-- HOST_WATCH_CFG. -/
def hostWatchCfg : Nat := 0x2064
/-- HOST_WATCH_THRESH. -/
def hostWatchThresh : Nat := 0x2068
/-- HOST_WATCH_STATUS. -/
def hostWatchStatus : Nat := 0x206C
/-- HOST_RESET. -/
def hostReset : Nat := 0x2070
/-- HOST_ERR. -/
def hostErr : Nat := 0x2074
/-- HOST_ATTEST_CTRL. -/
def hostAttestCtrl : Nat := 0x2078
/-- HOST_ATTEST_NONCE0. -/
def hostAttestNonce : Nat := 0x2080
/-- BOOT_STATUS. -/
def bootStatus : Nat := 0x40
/-- BOOT_DETAIL. -/
def bootDetail : Nat := 0x44
/-- BOOT_TESTS. -/
def bootTests : Nat := 0x48
/-- BOOT_SEIF. -/
def bootSeif : Nat := 0x4C
/-- BOOT_SEIF_FAIL. -/
def bootSeifFail : Nat := 0x50
/-- BOOT_SEIF_NO_LIGHT. -/
def bootSeifNoLight : Nat := 0x54
/-- BOOT_TIME. -/
def bootTime : Nat := 0x58
/-- SEC_STATE. -/
def secState : Nat := 0x1040
/-- SEC_KEYS. -/
def secKeys : Nat := 0x1044
/-- SEC_PART. -/
def secPart : Nat := 0x1048
/-- SEC_SERIAL_LO. -/
def secSerialLo : Nat := 0x104C
/-- SEC_SERIAL_HI. -/
def secSerialHi : Nat := 0x1050
/-- SEC_OWNER_PROG. -/
def secOwnerProg : Nat := 0x1054
/-- SEC_OWNER_HASH0. -/
def secOwnerHash : Nat := 0x1060
/-- SEC_ID_PUB0. -/
def secIdPub : Nat := 0x1080
/-- SEC_ROM_DIGEST0. -/
def secRomDigest : Nat := 0x10C0
/-- SEC_FW_DIGEST0. -/
def secFwDigest : Nat := 0x1100
/-- PIN_STATE. -/
def pinState : Nat := 0x3040
/-- PIN_GPIO_DIR. -/
def pinGpioDir : Nat := 0x3044
/-- PIN_GPIO_OUT. -/
def pinGpioOut : Nat := 0x3048
/-- PIN_GPIO_IN. -/
def pinGpioIn : Nat := 0x304C
/-- PIN_GPIO_FUNC. -/
def pinGpioFunc : Nat := 0x3050
/-- PIN_LASER. -/
def pinLaser : Nat := 0x3054
/-- PIN_LASER_PWR. -/
def pinLaserPwr : Nat := 0x3058

end Reg

end Sys2Proof.Machine
end

