-- ==== Sys2Proof/Machine/State.lean ====
section
/-!
DEFINITION. The machine's state as plain data: every register, memory, buffer, queue, counter, mode and pin the spec gives the block,
the queue of waiting commands, and the state after reset. Field names follow the spec; INVENTORY.md lists each with its rule.
-/
namespace Sys2Proof.Machine
open Sys2Proof

/-! ### Memory system and registers -/

/-- One line of the Erg cache (R464): its DRAM line number (local address / 128), the quarter that holds it, the valid and dirty bits of
its four sectors, hint and use count (R466, R468), the order of its last write, and the strands whose running descriptors took a use. -/
structure Line where
  tag : Nat
  quarter : Nat
  valid : BitVec 4 := 0
  dirty : BitVec 4 := 0
  hint : BitVec 2 := 0
  uses : Nat := 0
  stamp : Nat := 0
  users : List Nat := []
deriving DecidableEq, Repr

/-- One open merge entry (R500): the quarter that holds it, its word (local address / 8), byte mask and bytes. -/
structure Merge where
  quarter : Nat
  word : Nat
  mask : BitVec 8
  bytes : BitVec 64
deriving DecidableEq, Repr

/-- The sizes of a quarter's Erg layout in force (R455, R456), in MiB. -/
structure Layout where
  stage : Nat := 16
  coal : Nat := 16
  cache : Nat := 128
deriving DecidableEq, Repr

/-- What a unit of R494 (a DRAM channel, or a quarter's share of the Erg store) keeps beside its ECC registers: the scrubber's place and the
start of its lap, whether LAP_SLOW was set for this lap, the time of the last type 0x01 record, and the history of R508 as
(word, corrections, time of the last one), least recently corrected first. -/
structure UnitSt where
  scrubAt : Nat := 0
  lapStart : Nat := 0
  slow : Bool := false
  lastCe : Option Nat := none
  history : List (Nat × Nat × Nat) := []
  /-- When the MC last changed the scrub rate of the unit's kind (R507). -/
  rateAt : Nat := 0
deriving DecidableEq, Repr

/-- A remap table entry (R513): device channel, bank, row, the spare in use and the mask of bad spares. -/
structure Remap where
  chan : Nat
  bank : Nat
  row : Nat
  spare : Nat
  bad : Nat
deriving DecidableEq, Repr

/-- What a valid copy of the repair record says (R513): its sequence number, remap table and retirement list. -/
structure RepairCopy where
  seq : Nat := 0
  remaps : List Remap := []
  retired : List Nat := []
deriving DecidableEq, Repr

/-- A running traffic generator (R483): device channel, whether STOP was written, and its settings. -/
structure TgRun where
  chan : Nat
  stop : Bool := false
  /-- MODE, PATTERN, LOOPS, SEED and frames it was started with. -/
  mode : Nat := 0
  pattern : Nat := 0
  loops : Nat := 1
  seed : Nat := 1
  first : Nat := 0
  last : Nat := 0
deriving DecidableEq, Repr

/-- A host access that waits in a device area for a fill, a quiesced channel, a row under remap, or an earlier access to its bytes (R462, R480, R509): a read with
its tag, or a write with its bytes and whether it carries poison. -/
structure Parked where
  addr : Nat
  len : Nat
  tag : Nat := 0
  data : Option (List Byte × Bool) := none
deriving DecidableEq, Repr

/-- A block in a mirror queue (R605): quarter, block, its number in the order of entry, and whether it has been sent. -/
structure MirrorEnt where
  quarter : Nat
  block : Nat
  num : Nat
  sent : Bool := false
deriving DecidableEq, Repr

/-- What a transaction waits for once its TXN_COMMIT or TXN_PREPARE runs (R96, R100, R101). -/
inductive CommitKind where
  | localCommit
  | coordinator
  | participant
deriving DecidableEq, Repr


/-- A TXN_COMMIT or TXN_PREPARE that waits (R96, R100, R101): what it does, its strand (64 once that strand has gone on), the node it acts as, GROUP,
VOTERS, COORD, MEMBERS, PUB_TIME, when its header waits ended, and whether its vote has been sent. -/
structure Waiter where
  kind : CommitKind
  strand : Nat
  node : Nat := 0
  group : Nat := 0
  voters : Nat := 0
  coord : Nat := 0
  needed : Nat := 0
  pubTime : Nat := 0
  readyAt : Nat := 0
  voted : Bool := false
deriving DecidableEq, Repr

/-- An open transaction (R92 to R104): its staged bytes, poisoned blocks, hints and register writes, the staging units it takes in each
quarter, when each of its members completed, the commit or prepare descriptors that wait for it, the decision with its time, the decided
frequency (R649), its staged blocks that the twin has not acknowledged and whether they have been sent (R607), whether an ABORT vote was sent
without a TXN_PREPARE (R614), and the migrations its publication commits with the notices to send (R334). -/
structure Txn where
  id : Nat
  aborted : Bool := false
  stage : List Host.Cell := []
  stagePoison : List Nat := []
  stageHint : SMap (List Nat) := []
  stageRegs : List (Nat × Nat) := []
  units : List Nat := []
  ends : List Nat := []
  waiters : List Waiter := []
  decision : Option (Bool × Nat) := none
  freq : Option Nat := none
  stageSent : List Nat := []
  stageDone : Bool := false
  abortSent : Bool := false
  /-- Whether a member has been fetched (R91); before, only a TXN_COMMIT or TXN_PREPARE waits for it. -/
  opened : Bool := true
  notices : List (MigNote × List Nat) := []
  /-- Notices that its EMB_SYNC adopts (R335). -/
  adopted : List MigNote := []
deriving DecidableEq, Repr

/-! ### Sampler -/

/-- What the sampler knows of one frontier row (R270, R294): a remote answer is awaited, the vertex is dropped, or the edges taken as slot,
source vertex and edge identifier. -/
inductive SampRow where
  | waiting
  | dropped
  | edges (l : List (Nat × Nat × Nat))
deriving DecidableEq, Repr

/-- A SAMPLE that waits for remote answers (R280, R292): its strand, current layer, frontier bounds, vertices by local identifier with their
row flags (1 halo, 2 remote), seed map words, entries of the layers done (row, column, multiplicity, edge identifier), and the rows
of the current layer. -/
structure SampRun where
  strand : Nat
  layer : Nat := 0
  bounds : List Nat := [0]
  verts : List Nat := []
  flags : SMap Nat := []
  seeds : List Nat := []
  layers : List (List (Nat × Nat × Nat × Nat)) := []
  rows : List SampRow := []
deriving DecidableEq, Repr


/-! ### Gather engine -/

/-- A lookup-log record (R318): its quarter and place in the log, requester, bag, BAG_FIRST, position, window, row, weight, DET, and whether its
bag gradient has been expanded. -/
structure LRec where
  quarter : Nat
  place : Nat
  node : Nat
  bag : Nat
  bagFirst : Nat
  pos : Nat
  table : Nat
  tag : Nat
  r : Nat
  w : Nat
  det : Bool
  expanded : Bool := false
  /-- Whether the row was served for the adopted node (R630). -/
  alt : Bool := false
deriving DecidableEq, Repr

/-- A group of a running EMB_LOOKUP (R313): bag, pool group (0 when DET is 0), serving node, entries. -/
structure EmbGroup where
  bag : Nat
  pool : Nat
  node : Nat
  entries : List EmbEntry
deriving DecidableEq, Repr

/-- An answer that arrived for a group: node that served it, entries served, index words dropped, partial, poison. -/
structure LookAns where
  group : Nat
  node : Nat
  served : Nat
  dropped : List Nat
  vals : List Nat
  poison : Bool := false
deriving DecidableEq, Repr

/-- A running EMB_LOOKUP: its strand, groups and answers. -/
structure LookRun where
  strand : Nat
  groups : List EmbGroup
  answers : List LookAns := []
deriving DecidableEq, Repr

/-- A group that this node pools and for which it awaits migrated rows (R316). -/
structure ServeRun where
  id : Nat
  req : EmbReq
  rows : SMap (Option (List Nat) × Bool) := []
deriving DecidableEq, Repr

/-- An update window on this node (R325). -/
structure Window where
  table : Nat
  tag : Nat
  /-- The window that a stand-in keeps for its adopted node (R630). -/
  alt : Bool := false
  flushes : List Nat := []
  forwards : List Nat := []
  unacked : Nat := 0
  spilled : Bool := false
  stage1 : Bool := false
  stage2 : Bool := false
deriving DecidableEq, Repr

/-- A migration this node takes part in as old owner (R334): target, sends not yet acknowledged, and the bytes of the drift entry that its PENDING entry
replaced, if there was one (R338). -/
structure MigOut where
  table : Nat
  r : Nat
  node : Nat
  unacked : Nat
  prev : List Byte := []
deriving DecidableEq, Repr

/-- A sorted run in the spill area (R326): its offset and length there, and its contributions. -/
structure SpillRun where
  off : Nat
  len : Nat
  ks : List Contrib
deriving DecidableEq, Repr

/-- The gather engine's state: lookup log, requester logs by address with their record counts and BAG_FIRST, running lookups, groups that await
rows, windows, the coalescing buffer, the runs that spilled, contributions held for want of room (R339), load totals and trackers by quarter as
(table, row, count), migrations as old owner, verdicts received as new owner, notices not yet adopted, boundaries counted, and FORWARD entries with
the boundary of their commit. -/
structure Emb where
  llog : List LRec := []
  rlogs : SMap (Nat × Nat) := []
  looks : List LookRun := []
  serves : List ServeRun := []
  nextServe : Nat := 0
  windows : List Window := []
  coal : List Contrib := []
  runs : List SpillRun := []
  heldIn : List Contrib := []
  load : Nat := 0
  trackers : List (List (Nat × Nat × Nat)) := [[], [], [], []]
  /-- Load and tracked rows of the measurement window that ended last, and whether its selection is still to come (R333). -/
  winLoad : Nat := 0
  winRows : List (Nat × Nat × Nat) := []
  selDue : Bool := false
  /-- Whether the loads of the nodes below this one in the tree are still to come (R333). -/
  sumDue : Bool := false
  /-- Measurement windows ended since the job started (R39). -/
  meas : Nat := 0
  migOut : List MigOut := []
  /-- Migrations as new owner (R334): table, row, and the bytes of the drift entry that the PENDING entry replaced. -/
  migIn : List (Nat × Nat × List Byte) := []
  verdicts : List (Nat × Nat × Bool) := []
  notes : List MigNote := []
  boundaries : Nat := 0
  forwards : List (Nat × Nat × Nat) := []
  /-- Tables and step tags that held lookup-log records, windows or contributions at the last step boundary (R616). -/
  openTags : List (Nat × Nat) := []
  /-- Strands whose EMB_GRAD waits for its gradients to be accepted, and whether its FLUSH markers have been sent (R323). -/
  gradWait : List (Nat × Bool) := []
deriving DecidableEq, Repr

/-! ### Lane processors -/

/-- A resident or saved thread group (R342, R347, R385): processor, next instruction, masks, exception word, scalar registers, predicates, vector
registers written since dispatch by register · 32 + thread, divergence stack as (KIND, mask, index) with the top first, and each thread's
count of floating-point atomic adds. -/
structure LaneGroup where
  g : Nat
  proc : Nat := 0
  pc : Nat := 0
  active : Nat := 0xFFFFFFFF
  exited : Nat := 0
  flags : Nat := 0
  s : SMap Nat := []
  p : List Nat := [0xFFFFFFFF, 0, 0, 0, 0, 0, 0, 0]
  v : SMap Nat := []
  stack : List (Nat × Nat × Nat) := []
  adds : SMap Nat := []
deriving DecidableEq, Repr

/-- A deferred add (R359): key, address, whether it is FP64, operand bits, and its place in the log at ATOM_BASE. -/
structure DefAdd where
  key : Nat
  addr : Nat
  wide : Bool
  val : Nat
  place : Nat := 0
deriving DecidableEq, Repr

/-- A running launch (R345, R346): strand, quarter, the LANE_LAUNCH descriptor it runs, processors, groups not yet dispatched (first the saved ones
of a restore, then from `next`), the processor that took the last group, resident groups, deferred adds, drops, lowest dropped key. -/
structure LaneRun where
  strand : Nat
  quarter : Nat
  desc : BitVec 512
  procFirst : Nat
  procCount : Nat
  saved : List LaneGroup := []
  next : Nat := 0
  last : Option Nat := none
  resident : List LaneGroup := []
  adds : List DefAdd := []
  drops : Nat := 0
  dropPos : Nat := 2 ^ 64 - 1
deriving DecidableEq, Repr

/-- What the MC's job-scoped policies of the sparse engines have gathered since they last acted, and what takes effect at the next step boundary
(R251, R260): step boundaries since the cold start, and at the last comparison of each quarter; segments near the threshold by quarter on the array
and on the SME; audits since the cold start, and the predicted-off elements and misses of each audit not yet evaluated, oldest first; the margin to
come, and the thresholds to come by quarter. -/
structure Policy where
  steps : Nat := 0
  tuned : SMap Nat := []
  segArray : SMap Nat := []
  segSme : SMap Nat := []
  audits : Nat := 0
  /-- Whether the audits reached 64 samples before the last step boundary, so that an adapted margin is in force (R260). -/
  adapted : Bool := false
  auditLog : List (Nat × Nat) := []
  margin : Option Nat := none
  thresh : SMap Nat := []
deriving DecidableEq, Repr

/-- A running ACT_STASH to the twin, or ACT_FETCH from the twin or the host (R426, R427): its strand, whether it fetches, its target, the bytes
not yet acknowledged or received, the offset of the next host read to issue. -/
structure StashRun where
  strand : Nat
  fetch : Bool
  target : Nat
  left : Nat
  next : Nat := 0
deriving DecidableEq, Repr

/-! ### Seif links -/

/-- A packet at a port, queued or not yet acknowledged: its number on the port, contents, class, flits, those not yet sent, and the port
whose receive buffer holds it when it is forwarded. -/
structure TxEntry where
  id : Nat
  msg : Msg
  cls : Nat
  flits : Nat
  unsent : Nat
  /-- The port whose receive buffer holds flits of it that have not left, and how many (R531). -/
  entry : Option (Nat × Nat) := none
  /-- Bytes of the packet (R528, R555). -/
  bytes : Nat := 0
deriving DecidableEq, Repr

/-- A packet that a port is receiving: its class, the flits that have come, those that the receive buffer holds, and whether this device is its destination and takes
it in as it comes (R531). -/
structure Asm where
  cls : Nat
  n : Nat
  kept : Nat
  own : Bool
deriving DecidableEq, Repr

/-- A Seif port (R527 to R537, R551 to R553): time of the last heartbeat received and sent, when it next retrains, next SEQ to send and to expect,
whether it discards flits until a replay begins, the SEQ of the last NAK without progress and how often, credits held, flits held in its
receive buffer, credits the neighbour holds, allotments (all by wadi · 2 + class), packets, flits in the replay buffer as (SEQ,
packet), wadi served last, packets being received by wadi, and complete ones with their wadi. -/
structure PortSt where
  lastHb : Nat := 0
  hbSent : Nat := 0
  trainDue : Nat := 0
  txSeq : Nat := 0
  rxSeq : Nat := 0
  rxWait : Bool := false
  stallSeq : Option Nat := none
  stalls : Nat := 0
  credits : SMap Nat := []
  held : SMap Nat := []
  granted : SMap Nat := []
  allot : SMap Nat := []
  nextId : Nat := 0
  entries : List TxEntry := []
  replay : List (Nat × Nat) := []
  served : Nat := 15
  asm : SMap Asm := []
  ready : List (Nat × Asm) := []
  /-- Collective packets for this device whose contents have not come yet: wadi, class and flits that they hold (R566). -/
  arrived : List (Nat × Nat × Nat) := []
  /-- When it last sent a time message (R46). -/
  timeSent : Nat := 0
  /-- Whether IDENT has been sent in the training under way (R551). -/
  identSent : Bool := false
  /-- Whether the peer's IDENT has come in the training under way (R551). -/
  identSeen : Bool := false
  /-- The count of the codeword received last (R523). -/
  rxCount : Nat := 0
deriving DecidableEq, Repr

/-- The Seif links: ports, and HOPSEQ counts and the numbers accepted, by port group · 16 + wadi (R535). -/
structure Seif where
  ports : List PortSt := List.replicate 32 {}
  hopTx : SMap Nat := []
  hopRx : SMap (List Nat) := []
deriving DecidableEq, Repr

/-! ### Collectives -/

/-- A partial of one element (R570, R574): FP32 bits, or the FP64 bits of h with those of l; and whether a poisoned contribution entered it. -/
structure CVal where
  v : Nat
  l : Nat := 0
  bad : Bool := false
deriving DecidableEq, Repr

/-- An open collective (R587): its strand, quarter, opcode, matching fields (R565), wadi, members in rank order, own rank, contribution of each
element, partials received by transfer and segment, own results by segment, transfers sent, segments still to come, whether its own
shard is done, wire bytes received by sender and segment with a mask of poisoned 64-byte pieces, block lengths known by sender,
bytes sent and not acknowledged, bytes received, bytes expected. -/
structure CollRun where
  strand : Nat
  /-- The node it runs as (R627). -/
  as : Nat := 0xFFFF
  quarter : Nat
  op : Nat
  group : Nat
  tag : Nat
  epoch : Nat
  det : Bool
  arith : Bool
  count : Nat
  thinK : Nat
  wadi : Nat
  members : List Nat
  rank : Nat
  src : List (Nat × Bool) := []
  recv : SMap (List CVal) := []
  res : SMap (List CVal) := []
  sent : List Nat := []
  left : Nat := 0
  owned : Bool := false
  parts : SMap (List Byte × Nat) := []
  lens : SMap Nat := []
  unacked : Nat := 0
  got : Nat := 0
  expect : Nat := 0
  /-- Whether its own shard is summed and an RNG_LANE_SEED holds its first draw (R450). -/
  held : Bool := false
  /-- Whether its share of the work is done and it completes once its packets have been routed (R589). -/
  ready : Bool := false
  /-- Whether a packet that did not agree has come: it ends at its timeout (R567). -/
  mismatch : Bool := false
  /-- The last whole ring step by segment, in a ring of more than 255 members (R565). -/
  steps : SMap Nat := []
deriving DecidableEq, Repr

/-- A collective packet that stays in the receive buffer of a port because the parking area is full, the node it is for, and the class and flits that it holds there (R566). -/
structure Stuck where
  port : Nat
  dst : Nat
  pkt : CollPkt
  cls : Nat
  flits : Nat
deriving DecidableEq, Repr

/-- Collectives: open ones, packets parked in each quarter's parking area with the node they are for, oldest first, those that stay in the receive buffer
of a port because the area is full, and early abort packets as node, group and tag (R566). -/
structure Coll where
  runs : List CollRun := []
  parked : List (Nat × Nat × CollPkt) := []
  stuck : List Stuck := []
  aborts : List (Nat × Nat × Nat) := []
  /-- RESERVE as in force, by quarter, where a write waits until no collective is open (R593). -/
  lanes : SMap Nat := []
deriving DecidableEq, Repr

/-! ### The job and the twin -/

/-- A restart this device takes part in (R616): its number, and where it stands. -/
inductive RestartPhase where
  | none
  /-- Decided transactions have yet to publish (step 2). -/
  | publishing
  /-- The mirror queues must drain (step 3). -/
  | draining
  /-- READY has been sent. -/
  | ready
deriving DecidableEq, Repr

/-- A decision that waits for the acknowledgement of the coordinator's twin (R615), with its voters. -/
structure HeldDecision where
  dec : Decision
  nodes : List Nat
  /-- The adopted node that sends it (R627). -/
  src : Option Nat := none
deriving DecidableEq, Repr

/-- A running fill (R603, R633): 2 mirror, 3 hand-back; whether this device sends it, receives it, and whether each side has ended. -/
structure Fill where
  kind : Nat
  sends : Bool
  receives : Bool
  sentEnd : Bool := false
  gotEnd : Bool := false
  /-- The next block to send waits for its channel (R480). -/
  due : Bool := false
  /-- Blocks sent that the twin has acknowledged, and blocks received (R606, R637). -/
  acked : Nat := 0
  got : Nat := 0
deriving DecidableEq, Repr

/-- The job's own state beside its registers: the number of the current restart and its phase, the leader's message time, READY messages and the last
one's arrival, the START time, the shard-map translations staged for it (lost node, stand-in, hand-back) in the order of their notices, failovers accepted and nodes that
resigned or are lost as the leader knows them, twin heartbeats, decisions kept as a coordinator's twin with the node they are kept for,
decisions that wait for the twin, the forming message received and whether this device attaches, the running fill, whether a hand-back
fill has ended, DETACH, whether an alias was written, the twin keys received since reset, and requests that the end of a command
acts on: resign, restart with a number. -/
structure Job where
  number : Nat := 0
  phase : RestartPhase := .none
  msgAt : Nat := 0
  collecting : Bool := false
  readyFrom : List Nat := []
  readyAt : Nat := 0
  startAt : Option Nat := none
  translations : List (Nat × Nat × Bool) := []
  taken : List (Nat × Nat) := []
  gone : List Nat := []
  hbSent : Nat := 0
  hbLast : Option Nat := none
  kept : List (Nat × Decision) := []
  held : List HeldDecision := []
  form : Option FormMsg := none
  /-- The forming message sent last (R603). -/
  said : Option FormMsg := none
  /-- By group and identifier, the time of the decision to commit that was taken last (R615, R623). -/
  decided : List ((Nat × Nat) × Nat) := []
  forming : Bool := false
  attaching : Bool := false
  fill : Option Fill := none
  handBackDone : Bool := false
  handBackAsk : Option (Nat × Nat) := none
  detach : Bool := false
  aliased : Bool := false
  /-- The twin has announced its spare area since it was last unpaired (R430). -/
  spareKnown : Bool := false
  twinKeys : List (Nat × List Byte) := []
  resignDue : Bool := false
  /-- TWIN_CTRL.FORM or ATTACH was written (R603, R633). -/
  formDue : Bool := false
  attachDue : Bool := false
  restartDue : Option Nat := none
  /-- A boundary transaction must be marked aborted before the command ends (R613). -/
  abortDue : Bool := false
deriving DecidableEq, Repr

/-- The memory system, the register file and cluster time: everything a read or a write of an address can touch. DESIGN CHOICE, log entry 9. -/
structure Core where
  /-- Cluster time in ns (R44). -/
  ct : Nat := 0
  /-- Nanoseconds of cluster time that have passed since the end of cold or warm reset, steps of cluster time left out: what timers count (R111). -/
  up : Nat := 0
  /-- The model's own counter of free values drawn so far; no rule rests on its value. -/
  free : Nat := 0
  /-- Registers by key; an unlisted register holds its reset value (R11). -/
  regs : SMap Nat := []
  /-- Latched high halves, by reader and register (R767). -/
  latch : SMap Nat := []
  /-- The value every local address reads as: DRAM and the Erg store, unlisted bytes zero (R459, R477). -/
  mem : List Host.Cell := []
  /-- The values held in the DRAM cells (R468). -/
  dram : List Host.Cell := []
  /-- Poisoned 64 B blocks (local address / 64), as read (R491). -/
  poison : List Nat := []
  /-- Poisoned blocks in the DRAM cells. -/
  dramPoison : List Nat := []
  /-- Cache lines, most recently used first (R464, R467). -/
  lines : List Line := []
  /-- Order of writes to lines (R467). -/
  stamp : Nat := 0
  /-- Open merge entries, oldest first (R500). -/
  merge : List Merge := []
  /-- Bit errors standing in the cells of a word (local address / 8), as an 80-bit pattern over codeword positions (R488). -/
  errs : SMap (BitVec 80) := []
  /-- Corrected words whose write back is queued: DRAM (R492) and Erg store (R493), oldest first. -/
  corrections : List Nat := []
  /-- The Erg layout in force in each quarter (R455). -/
  layouts : List Layout := [{}, {}, {}, {}]
  /-- The interleave mode in force of each group (R461). -/
  ilv : BitVec 96 := 0
  /-- Groups whose zero fill runs (R462). -/
  ilvFill : List Nat := []
  /-- Per unit state, by quarter · 128 + unit. -/
  units : SMap UnitSt := []
  /-- The time since reset from which each quarter's leak instants count (R495), and leak instants taken since. -/
  leakBase : List (Nat × Nat) := [(0, 0), (0, 0), (0, 0), (0, 0)]
  /-- Failing rows waiting for a remap, by channel, bank and row (R508). -/
  failing : List (Nat × Nat × Nat) := []
  /-- The row remap table (R513). -/
  remaps : List Remap := []
  /-- Rows being copied to a spare (R509). -/
  remapBusy : List Remap := []
  /-- Retired 64 KiB pages (local address / 65536), ascending (R511). -/
  retired : List Nat := []
  /-- Failing rows that a step boundary has released for remapping (R509). -/
  failDue : List (Nat × Nat × Nat) := []
  /-- The bytes of the two copies of the repair record in SPI flash, and whether a change waits to be written (R513, R514). -/
  repair : List (List Byte) := [[], []]
  repairDue : Bool := false
  /-- Quarters whose layout change waits (R456). -/
  layoutDue : List Nat := []
  /-- When each device channel last ran a hidden retrain (R479). -/
  hrtLast : SMap Nat := []
  /-- Device channels for which a full retrain is scheduled (R481). -/
  retrainDue : List Nat := []
  /-- Host accesses that wait, in their order of arrival (R462, R480, R509). -/
  parked : List Parked := []
  /-- Running traffic generators (R483). -/
  tg : List TgRun := []
  /-- Open transactions. -/
  txns : List Txn := []
  /-- The mirror queues of the four quarters, oldest first (R605, R608), and the number of the next entry. -/
  mirrorQ : List MirrorEnt := []
  mirrorNext : Nat := 0
  /-- `mirrorNext` at the end of the last command that entered a block: later entries are the running command's. -/
  mirrorMark : Nat := 0
  /-- The node that the running command acts as, when a stand-in strand runs it (R627). -/
  actAs : Option Nat := none
  /-- The job and the twin. -/
  job : Job := {}
  /-- Bytes the journal holds (R609). -/
  journal : Nat := 0
  /-- Addresses of uncorrectable words found and not yet acted on by the job policy of R613. -/
  ueFound : List Nat := []
  /-- Blocks in which the running descriptor of a strand itself found an uncorrectable word (R496), as (strand, block). -/
  ownUe : List (Nat × Nat) := []
  /-- The samplers' running descriptors. -/
  samps : List SampRun := []
  /-- Launches on the lane processors. -/
  lanes : List LaneRun := []
  /-- What the 16 bytes of the deferred-add log entries written so far say, by those bytes as a number (R359, R369): a dictionary of the encoding, which no reset changes. -/
  addLogs : SMap DefAdd := []
  /-- The strand whose launch took the last group on each lane processor, by quarter · 128 + processor (R349). -/
  laneServed : SMap Nat := []
  /-- Quarters whose RNG_LANE_SEED holds dispatch and first code-5 draws (R450), with the strand that runs it. -/
  laneSeed : List (Nat × Nat) := []
  /-- Transfers with stash areas of the twin and the host. -/
  stash : List StashRun := []
  /-- The gather engines. -/
  emb : Emb := {}
  /-- Policies of the sparse engines. -/
  policy : Policy := {}
  /-- What each quarter's array ran last: STAT + 4 · SHADOW_DRAIN + 8, 0 for nothing (R151). -/
  arrayPrev : SMap Nat := []
  /-- The SME's row cache of each quarter (R239): addresses of the B row slabs it holds, most recently used first. -/
  rowCache : SMap (List Nat) := []
  /-- The Seif links. -/
  seif : Seif := {}
  /-- Collectives. -/
  coll : Coll := {}
  /-- Messages that the running command produced and that have not been routed yet. -/
  out : List Msg := []
  /-- What the device has sent, oldest first. -/
  wire : List Msg := []
  /-- Messages for the samplers and gather engines that wait for the ramp limiter or the end of an emergency stop, oldest first, with their sender in `src` (R656, R664). -/
  inbox : List Msg := []
  /-- The emergency stop holds the DRAM channels (R664). -/
  memStop : Bool := false
  /-- Strands whose packet was found unreachable by the running command (R548). -/
  linkLost : List Nat := []
  /-- A write of this step found the journal or its mirror queue full: the writer waits (R605, R612). -/
  stall : Bool := false
deriving DecidableEq, Repr


/-! ### Strands -/

/-- Where a strand stands in the steps of R76. -/
inductive Phase where
  /-- IDLE. -/
  | idle
  /-- RUN: the next descriptor is to be fetched. -/
  | fetch
  /-- WAIT_TIME. -/
  | waitTime
  /-- WAIT_EVENT. -/
  | waitEvent
  /-- RUN: all header waits have ended; the descriptor may start. -/
  | ready
  /-- RUN: the descriptor has started and waits for something outside its own strand. -/
  | busy
  /-- RUN: the descriptor's status is decided; its completion is to be written. -/
  | done
  /-- HALTED. -/
  | halted
  /-- FAULTED. -/
  | faulted
deriving DecidableEq, Repr

/-- What a descriptor's completion record will hold (R84). -/
structure Comp where
  status : Nat := 0
  posNan : Nat := 2 ^ 64 - 1
  posOver : Nat := 2 ^ 64 - 1
  posDrop : Nat := 2 ^ 64 - 1
  drops : Nat := 0
  retries : Nat := 0
  late : Bool := false
  cancelled : Bool := false
  storeDropped : Bool := false
  startIgnored : Bool := false
  /-- Completion time where it was fixed before the record is written (R97). -/
  tEnd : Option Nat := none
deriving DecidableEq, Repr

/-- A strand (R66, R80, R90, R442). Its configuration registers stand in the register file; the rest of its registers are these fields. -/
structure Strand where
  phase : Phase := .idle
  stopping : Bool := false
  pc : Nat := 0
  desc : BitVec 512 := 0
  lastErr : Nat := 0
  haltReason : Nat := 0
  head : Nat := 0
  wraps : Nat := 0
  steps : Nat := 0
  /-- Loop counters of levels 0 to 3: count and ACTIVE (R80). -/
  loops : List (Nat × Bool) := [(0, false), (0, false), (0, false), (0, false)]
  /-- When the descriptor's timeout began (R76). -/
  tOut : Nat := 0
  /-- When the descriptor began execution (R84); none before. -/
  tStart : Option Nat := none
  /-- From when the strand watchdog counts (R86). -/
  tWdog : Nat := 0
  /-- Start time of a strand start delayed by the ramp stagger (R662). -/
  startAt : Nat := 0
  /-- Whether a collective that waits for its start time holds a timed-event entry (R59). -/
  entry : Bool := false
  /-- Units of the ramp limiter that its descriptor runs on (R656). -/
  units : List Nat := []
  /-- The next descriptor after this one, if a control opcode set it. -/
  next : Option Nat := none
  comp : Comp := {}
  /-- How the strand stops once the descriptor has completed: 0 goes on, else a HALT_REASON (R90). -/
  haltNext : Nat := 0
  /-- The descriptor read a poisoned block (R497). -/
  sawPoison : Bool := false
  /-- FP32 additions it makes when it completes: address and addend (R419). -/
  adds : List (Nat × Nat) := []
  /-- The fetch failed: no header is acted on (R772). -/
  fetchFailed : Bool := false
  /-- Rounding context: KEY, STREAM, POS_BASE (R442). -/
  rkey : BitVec 64 := 0
  rstream : BitVec 16 := 0
  rpos : BitVec 48 := 0
deriving DecidableEq, Repr

/-- Strands, event counters and the timers of the command processors. -/
structure Ctl where
  strands : List Strand := List.replicate 64 {}
  /-- Event counters 0 to 4,095 (R69). -/
  events : SMap Nat := []
  /-- Votes that arrived at this device as a coordinator, with their arrival times (R101). -/
  votes : List (Vote × Nat) := []
  /-- When the step watchdog's count was last set to zero (R87). -/
  stepWdog : Nat := 0
  /-- Whether a strand has been started since reset (R50, R56). -/
  started : Bool := false
  /-- Frequency changes decided at a step boundary and not yet made: time and 25 MHz step (R651). -/
  freqDue : List (Nat × Nat) := []
  /-- Latched swap time of each page whose ARM_TIME is set (R108). -/
  armTime : SMap Nat := []
  /-- Engine drain lanes and lanes: the lane-keyed states that differ from their reset seeds, by quarter, unit and lane (R444, R446). -/
  lfsr : SMap Nat := []
  /-- Round-robin place of each engine's arbitration (R68): the strand served last, by quarter and engine. -/
  served : SMap Nat := []
  /-- Decisions to commit that wait for a timed-event entry (R59). -/
  decWait : List Decision := []
deriving DecidableEq, Repr


/-! ### Cluster time distribution -/

/-- Cluster-time distribution (R46 to R56): the last time message of each port with its arrival (`up`), consecutive messages within ±1 ns, arrival of
the parent's last message and of the last one a root originated, whether a parent is followed, whether a step to a parent's time was
made, whether a root has been heard of since reset, the value that the next TREF_PPS edge loads, the offset still to be slewed in ns with the tick count
toward the next correction, the ns for which cluster time stands still (R44), good and bad TREF_PPS edges in a row, and the frequency discipline of R46:
the difference `freqErr` to make good in every `freqSpan` ns, what has come together of it, and the ns counted since the last TREF_PPS edge; for a follower the offset and the own
time at its parent's last message, with the ns counted since (R52). -/
structure Sync where
  heard : SMap (TimeMsg × Nat) := []
  good : Nat := 0
  parentAt : Nat := 0
  rootAt : Nat := 0
  following : Bool := false
  stepped : Bool := false
  rootSeen : Bool := false
  setArmed : Option Nat := none
  slew : Int := 0
  slewTick : Nat := 0
  hold : Nat := 0
  ppsGood : Nat := 0
  ppsBad : Nat := 0
  freqErr : Int := 0
  freqSpan : Nat := 1
  freqAcc : Int := 0
  refTicks : Nat := 0
  parentSeen : Option (Int × Nat) := none
  parentTicks : Nat := 0
deriving DecidableEq, Repr

/-! ### Power -/

/-- A start that waits in the ramp limiter (R656, R658): when it was requested, its unit (quarter · 256 + 0 array, 1 SME, 2 + p lane processor p, 130
sampler, 131 gather engine, 132 DMA engine). -/
structure RampReq where
  since : Nat
  unit : Nat
  /-- The strands that wait for it; 64 stands for a message of another device (R661). -/
  claims : List Nat := []
deriving DecidableEq, Repr

/-- The ramp limiter (R656): bucket level in A / 14,000 as of a time, waiting starts, units admitted whose start has not run yet, and when
each unit last had work. -/
structure Ramp where
  level : Nat := 400 * 14000
  since : Nat := 0
  waiting : List RampReq := []
  admitted : List Nat := []
  lastWork : SMap Nat := []
deriving DecidableEq, Repr

/-- Power and thermal control (ch. "Power, droop and thermal control"): the throttle input as seen and whether its cap is still in force, highest steps
that fitted 95% of the allocation in the last periods, whether COMPUTE was paced for the cap in the last period and is now, the allocation's
start, thermal pacing, the emergency stop, DRAM pacing, stacks whose refresh is doubled, stretching quarters, throttle reason durations in ns
with the time they stand at, since when power exceeds 1,650 W and until when it must stay below, the raise that is stepping as (target,
next step's time), set points in mV of the writable rails (VDD_CMP_Q0 to Q3, VDD_BASE, VDD_SRAM), rails whose regulator does not
answer, reported watts by rail, the last estimate, samples of the thermal model in ms, when the thermal loop last ran, enabled column eighths by quarter with the time of
the last change, and ramp bucket. -/
structure Power where
  throttle : Bool := false
  extCap : Bool := false
  fits : List Nat := []
  paced : Bool := false
  pacing : Bool := false
  /-- LINK, MEM and COMPUTE allocations of the current control period, in W (R642). -/
  alloc : List Nat := [0, 0, 0]
  periodAt : Nat := 0
  thermal : Bool := false
  emergency : Bool := false
  memHot : Bool := false
  refresh : List Nat := []
  /-- Quarters whose compute clock stretches, with the time of the last reading below the threshold (R654). -/
  stretch : SMap Nat := []
  reasonNs : List Nat := [0, 0, 0, 0, 0]
  reasonAt : Nat := 0
  overAt : Option Nat := none
  under : Nat := 0
  /-- COMPUTE is paced to the short-term limits (R647). -/
  short : Bool := false
  /-- Whether something was paced for the cap in this control period, and in the one before (R670). -/
  capNow : Bool := false
  capBefore : Bool := false
  raise : Option (Nat × Nat) := none
  volts : List Nat := [750, 750, 750, 750, 800, 850]
  avsLost : List Nat := []
  rails : List Nat := []
  estimate : Nat := 0
  thermalMs : Nat := 0
  thermalAt : Option Nat := none
  columns : SMap (Nat × Nat) := []
  ramp : Ramp := {}
deriving DecidableEq, Repr

/-! ### Host interface -/

/-- The PCIe function (R671 to R689): Bus Master Enable, Max_Payload_Size and Max_Read_Request_Size in bytes, MSI-X Enable and function mask,
log2 of the BAR 2 size, vectors whose pending condition stood at 1 when last evaluated, errors logged in AER (1 Unsupported Request, 2 Poisoned
TLP, 3 ECRC), the Subsystem IDs loaded from flash, and whether configuration requests get retry status. PRESUMED, log entry 12. -/
structure HostSt where
  bme : Bool := false
  mps : Nat := 128
  mrrs : Nat := 512
  msixEn : Bool := false
  fmask : Bool := false
  bar2 : Nat := 28
  conds : List Nat := []
  aer : List Nat := []
  subsys : Nat := 0
  retry : Bool := true
deriving DecidableEq, Repr

/-! ### Boot, security, pins -/

/-- The fuse block (R716). DESIGN CHOICE, log entry 8. -/
structure Fuses where
  lifecycle : Nat := 0
  vendorHash : List (List Byte) := List.replicate 4 (List.replicate 32 0)
  ownerHash : List (List Byte) := List.replicate 4 (List.replicate 32 0)
  programmed : BitVec 8 := 0
  revoked : BitVec 8 := 0
  svnMin : Nat := 0
  uds : List Byte := List.replicate 32 0
  serial : Nat := 0
  part : Nat := 0x000E9648
  vendor : Nat := 0x1FD5
deriving DecidableEq, Repr

/-- The running firmware image's fuse requests (R715): RAISE_SVN, SVN, KEY_SLOT, REVOKE. -/
structure ImageReq where
  raiseSvn : Bool := false
  svn : Nat := 0
  keySlot : Nat := 0
  revoke : Nat := 0
deriving DecidableEq, Repr

/-- Management state (R35) and the boot sequence: pages whose lock bit is set, fuses, flash, the hold of R665, failed supply checks in a row, whether all
boot stages before READY are done, whether this boot follows a warm reset, the image's fuse requests, the SMBus offset, when an owner-slot
request and an attestation request were accepted, and the end of a STEP pulse of the GPIOs. -/
structure Mgmt where
  locks : List Nat := []
  fuses : Fuses := {}
  flash : Flash := {}
  held : Bool := false
  supplyFails : Nat := 0
  bootDone : Bool := false
  warm : Bool := false
  image : ImageReq := {}
  smbOffset : Nat := 0
  ownerAt : Option Nat := none
  attestAt : Option Nat := none
  pulseEnd : Option Nat := none
  /-- HOST_RESET.WARM was written with its key; the warm reset follows at the end of the command (R689). -/
  warmDue : Bool := false
deriving DecidableEq, Repr

/-! ### The whole state -/

/-- The block: memory system, registers and engines; strands; cluster-time distribution; power; host interface; management; waiting commands. -/
structure State where
  core : Core := {}
  ctl : Ctl := {}
  sync : Sync := {}
  pwr : Power := {}
  host : HostSt := {}
  mgmt : Mgmt := {}
  /-- Commands that wait, first in first out. -/
  pending : List Instr := []
deriving DecidableEq, Repr

/-- Why the machine stops with a fault: no command of this block does. The spec gives every command an effect or leaves the state as it is,
so no constructor is needed (safe: nothing stops here). -/
inductive Fault where
deriving DecidableEq, Repr

/-- Why a command has no meaning. -/
inductive Refusal where
  /-- Raised by `exec` for a command whose meaning is not modelled, by its mnemonic (safe: the machine stops). -/
  | notModelled (mnemonic : String)
deriving DecidableEq, Repr

/-- The machine at the end of cold reset, before the boot sequence runs (R11, R44, R89, R459, R477, R724): boot stage 1, every register at the value of its
Reset column, memory zero. DESIGN CHOICE, log entries 4, 8, 9; DEDUCED, log entry 10; PRESUMED, log entry 12. -/
def State.reset : State := {}

end Sys2Proof.Machine
end

