-- ==== Sys2Proof/Machine/Regs.lean ====
section
/-!
DEFINITION. The register file: keys, reset values, and reads and writes of fields (R12, R759 to R768).
-/
namespace Sys2Proof.Machine
open Sys2Proof

/-- The block code and quarter of a mapped page: device pages 0 to 8, block `b` of quarter `q` at page `0x100 + 0x20·q + b` (R759, R760). -/
def pageBlock (p : Nat) : Option (Nat × Nat) :=
  if p ≤ 8 then some (p, 0)
  else if 0x100 ≤ p ∧ p < 0x180 ∧ p % 0x20 < 10 then some (0x10 + p % 0x20, (p - 0x100) / 0x20)
  else none

/-- Pages that STORE_IMM may write (R760). -/
def isStepBlock (b : Nat) : Bool := b == 6 || b == 7 || b == 8 || (decide (0x10 ≤ b) && decide (b ≤ 0x14)) || b == 0x19

/-- Job pages (R760, R762). -/
def isJobBlock (b : Nat) : Bool := b == 5 || b == 7 || b == 8 || (decide (0x10 ≤ b) && decide (b ≤ 0x15)) || b == 0x19

/-- Pages with RWL fields (R760). -/
def hasRwl (b q : Nat) : Bool := b == 1 || b == 4 || b == 7 || (b == 0x18 && q == 0)

/-- Pages with RWS fields (R760). -/
def hasRws (b : Nat) : Bool := b == 6

/-- Key of a register in the file: instance number of a selected bank above the BAR 0 offset. -/
def bankKey (bank off : Nat) : Nat := bank * 2 ^ 26 + off

/-- Key of the shadow copy of an RWS register (R105). -/
def shadowKey (off : Nat) : Nat := 2 ^ 41 + off

/-- The block register at a BAR 0 offset, if a chapter defines one there (R761, R769). -/
def regDef? (off : Nat) : Option RegDef :=
  match pageBlock (off / 4096) with
  | none => none
  | some (b, q) => (blockRegs b).find? (fun d => d.off == off % 4096 && (!d.q0 || q == 0))

/-- The strand and register of a strand register on the command page (R90). -/
def strandReg? (off : Nat) : Option (Nat × Nat) :=
  if off / 4096 = 5 ∧ 0x100 ≤ off % 4096 ∧ off % 4096 < 0x900 then
    some ((off % 4096 - 0x100) / 0x20, (off % 4096) % 0x20)
  else none

/-- The value a register holds at the end of cold reset (R11, R762). MSI-X vector control words hold their mask bit. PRESUMED, log entry 12. -/
def resetWord (key : Nat) : Nat :=
  let off := key % 2 ^ 26
  let o := off % 4096
  match pageBlock (off / 4096) with
  | none => 0
  | some (b, q) =>
    if o = 0 then b + q * 256 + 0x9648 * 65536
    else if o = 4 then 0x100
    else if o < 0x40 then 0
    else match strandReg? off with
      | some (s, r) => if r = 0 then 8 + (s % 4) * 16 else 0
      | none =>
        if off / 4096 = 2 ∧ 0x400 ≤ o ∧ o < 0x800 then (if o % 16 = 12 then 1 else 0)
        else match regDef? off with
          | some d => d.reset
          | none => 0

/-- The word held at a key. -/
def Core.reg (c : Core) (key : Nat) : Nat :=
  match sfind c.regs key with
  | some v => v
  | none => resetWord key

/-- Write the word at a key. -/
def Core.setReg (c : Core) (key v : Nat) : Core :=
  { c with regs := if v % 2 ^ 32 = resetWord key then sdel c.regs key else sput c.regs key (v % 2 ^ 32) }

/-- Bits `[lo + w - 1 : lo]` of a register. -/
def Core.fld (c : Core) (key lo w : Nat) : Nat := field (c.reg key) lo w

/-- Write bits `[lo + w - 1 : lo]` of a register. -/
def Core.setFld (c : Core) (key lo w v : Nat) : Core := c.setReg key (putField (c.reg key) lo w v)

/-- Set a bit of a register. -/
def Core.setBit (c : Core) (key i : Nat) (b : Bool) : Core := c.setFld key i 1 (b2n b)

/-- Add to a saturating count field. -/
def Core.incFld (c : Core) (key lo w n : Nat) : Core := c.setFld key lo w (satAdd w (c.fld key lo w) n)

/-- Add to a saturating 32-bit count. -/
def Core.inc (c : Core) (key n : Nat) : Core := c.incFld key 0 32 n

/-- A 64-bit count whose low half stands at `lo` and whose high half at the next word. -/
def Core.reg64 (c : Core) (lo : Nat) : Nat := c.reg lo + c.reg (lo + 4) * 2 ^ 32

/-- Add to a 64-bit count. -/
def Core.inc64 (c : Core) (lo n : Nat) : Core :=
  let v := (c.reg64 lo + n) % 2 ^ 64
  (c.setReg lo (v % 2 ^ 32)).setReg (lo + 4) (v / 2 ^ 32)

/-- Set bit `i` of a page's INT_STATUS (R762). -/
def Core.raise (c : Core) (page i : Nat) : Core := c.setBit (page * 4096 + 0x10) i true

/-- Page number of block `b` of quarter `q` (R759). -/
def qpage (q b : Nat) : Nat := 0x100 + 0x20 * q + b

/-- The MC's or a device's event that passed its time: CT_LATE_COUNT and the LATE interrupt (R58, R62). -/
def Core.lateEvent (c : Core) : Core := (c.inc Reg.ctLateCount 1).raise 4 3

/-- A fresh free value: nothing constrains it. -/
def Core.fresh (c : Core) : Core × Nat := ({ c with free := c.free + 1 }, Config.freeValue c.free)

/-- Whether a local function-wide bit of CT_STATE shows a LOCKED, ACQUIRE, UNSYNC or HOLDOVER device (R61). -/
def Core.sync (c : Core) : Nat := c.fld Reg.ctState 0 2

/-- The node identifier of this device (R453). -/
def Core.node (c : Core) : Nat := c.fld (Reg.seifNode 0) 0 16

/-- The node that runs the current command: an adopted node for its stand-in strands (R627), else this device. DEDUCED, log entry 26. -/
def Core.me (c : Core) : Nat := c.actAs.getD c.node

/-- The adopted node, if there is one (R625). -/
def Core.adopted? (c : Core) : Option Nat := if c.fld Reg.jobState 3 1 = 1 then some (c.fld Reg.jobAdopt 0 16) else none

/-- Whether a node identifier names this device or its adopted node (R626). -/
def Core.isMe (c : Core) (n : Nat) : Bool := n == c.node || c.adopted? == some n

/-- The twin's node identifier (R601). -/
def Core.twin (c : Core) : Nat := c.fld (Reg.seifTwin 0) 0 16

/-- TWIN_STATE.PAIR (R637). -/
def Core.pair (c : Core) : Nat := c.fld Reg.twinState 0 3

/-- Change TWIN_STATE.PAIR; FORMED is raised when it becomes FORMED (R638). It changes TRN_TWIN_SPARE.VALID with it: 1 while the pair is formed and an announcement has arrived (R430, R431).
DEDUCED, log entry 73. -/
def Core.setPair (c : Core) (v : Nat) : Core :=
  let c0 := c.setFld Reg.twinState 0 3 v
  let c1 := if v = 2 ∧ c.pair ≠ 2 then c0.raise 7 4 else c0
  let on := c.job.spareKnown && (v == 2 || v == 5)
  if (c1.fld Reg.trnTwinSpare 16 1 == 1) == on then c1 else (c1.setBit Reg.trnTwinSpare 16 on).raise 8 1

/-- JOB_STATE.STATE (R637). -/
def Core.jobState (c : Core) : Nat := c.fld Reg.jobState 0 3

end Sys2Proof.Machine
end

