-- ==== Sys2Proof/Machine/Ecc.lean ====
section
/-!
DEFINITION. The code that protects every stored word (R488 to R491), and what a found error does: counts, buckets, records, poison and
row failure (R494 to R496, R508, R515, R516). Errors are held as patterns over the 80 codeword positions; the code is linear, so the
pattern alone decides the outcome of a read.
-/
namespace Sys2Proof.Machine
open Sys2Proof

/-- One multiplication by α in GF(2⁷), α⁷ = α³ + 1 (R489). -/
def gfStep (x : Nat) : Nat := if x * 2 < 128 then x * 2 else (x * 2 - 128) ^^^ 0x09

/-- α to the power `j`. -/
def gfPow (j : Nat) : Nat := iter gfStep (j % 127) 1

/-- Powers of α from 0 to 126. -/
def gfTable : List Nat := (upto 127).map gfPow

/-- α to the power `j`, from the table. -/
def gf (tab : List Nat) (j : Nat) : Nat := nth 0 tab (j % 127)

/-- The syndromes S1, S3 and S0 of an error pattern (R490). -/
def syndromes (e : BitVec 80) : Nat × Nat × Nat :=
  let t := gfTable
  let x := e.toNat
  let s1 := (upto 79).foldl (fun a j => if x.testBit j then a ^^^ gf t j else a) 0
  let s3 := (upto 79).foldl (fun a j => if x.testBit j then a ^^^ gf t (3 * j) else a) 0
  let s0 := (upto 80).foldl (fun a j => if x.testBit j then 1 - a else a) 0
  (s1, s3, s0)

/-- One step of the division by the code's generator polynomial x¹⁴ + x⁹ + x⁸ + x⁶ + x⁵ + x⁴ + x² + x + 1, the product of the minimal polynomials of α and
α³ (R489). -/
def bchStep (r b : Nat) : Nat := let x := 2 * r + b; if x < 2 ^ 14 then x else x ^^^ 0x4377

/-- The codeword of 64 data bits and a poison bit (R488, R489): check bits 65 to 78 make the BCH code's sums zero, bit 79 the parity. -/
def encodeWord (data p : Nat) : Nat :=
  let x := data % 2 ^ 64 + p % 2 * 2 ^ 64
  let r := (upto 127).foldl (fun r i => bchStep r (if i < 65 then b2n (x.testBit (64 - i)) else 0)) 0
  let y := x + r * 2 ^ 65
  y + ((upto 79).foldl (fun a j => if y.testBit j then 1 - a else a) 0) * 2 ^ 79

/-- The outcome of reading a word (R490). -/
inductive EccOutcome where
  | clean
  /-- Corrected: the positions flipped, as a pattern, and the two position numbers (0xFF when none). -/
  | corrected (mask : Nat) (bit0 bit1 : Nat)
  | uncorrectable
deriving DecidableEq, Repr

/-- The single position of R490 that explains S1 and S3. -/
def onePos (t : List Nat) (s1 s3 : Nat) : Option Nat := firstN 79 (fun i => gf t i == s1 && gf t (3 * i) == s3)

/-- The pair of positions of R490 that explains S1 and S3. -/
def twoPos (t : List Nat) (s1 s3 : Nat) : Option (Nat × Nat) :=
  (upto 79).findSome? (fun i =>
    match onePos t (s1 ^^^ gf t i) (s3 ^^^ gf t (3 * i)) with
    | some j => if i < j then some (i, j) else none
    | none => none)

/-- The decision of R490. DESIGN CHOICE, log entry 11. -/
def eccDecide (e : BitVec 80) : EccOutcome :=
  let t := gfTable
  let (s1, s3, s0) := syndromes e
  if s1 = 0 ∧ s3 = 0 then (if s0 = 0 then .clean else .corrected (2 ^ 79) 79 0xFF)
  else match onePos t s1 s3 with
    | some i => if s0 = 1 then .corrected (2 ^ i) i 0xFF else .corrected (2 ^ i + 2 ^ 79) i 79
    | none =>
      if s0 = 0 then
        match twoPos t s1 s3 with
        | some (i, j) => .corrected (2 ^ i + 2 ^ j) i j
        | none => .uncorrectable
      else .uncorrectable

/-! ### Addresses (R451, R454, R460, R461) -/

/-- First address above DRAM. -/
def dramEnd : Nat := 96 * 2 ^ 32
/-- First address of the Erg store. -/
def ergBase : Nat := 0x8000000000
/-- First address of register space. -/
def regBase : Nat := 0xF000000000

/-- What a local address names (R451). -/
inductive Place where
  | dram
  | erg (q off : Nat)
  | reg (off : Nat)
  | unmapped
deriving DecidableEq, Repr

/-- Decode a local address (R451, R454). -/
def place (a : Nat) : Place :=
  if a < dramEnd then .dram
  else if ergBase ≤ a ∧ a < ergBase + 2 ^ 31 then .erg ((a - ergBase) / 2 ^ 29) ((a - ergBase) % 2 ^ 29)
  else if regBase ≤ a ∧ a < regBase + 2 ^ 26 then .reg (a - regBase)
  else .unmapped

/-- Local address of offset `off` of quarter `q`'s Erg store (R454). -/
def ergAddr (q off : Nat) : Nat := ergBase + (q % 4) * 2 ^ 29 + off % 2 ^ 29

/-- Local address of an Erg store offset that names its quarter (R454). -/
def ergByte (off : Nat) : Nat := ergAddr (off / 2 ^ 29) off

/-- Device channel and channel offset of a DRAM address under the interleave modes (R461). -/
def dramChan (ilv : BitVec 96) (a : Nat) : Nat × Nat :=
  let k := a / 2 ^ 32
  let b := a % 2 ^ 32
  if ilv.getLsbD k then
    let j := b / 2 ^ 30
    let x := field b 8 22
    let h := (field x 0 6 ^^^ field x 6 6 ^^^ field x 12 6 ^^^ field x 18 4 ^^^ (k % 64)) % 64
    (j * 64 + h, k * 2 ^ 24 + field x 6 16 * 256 + b % 256)
  else
    let x := field b 8 24
    ((field x 0 8 ^^^ field x 8 8 ^^^ field x 16 8 ^^^ k) % 256, k * 2 ^ 24 + field x 8 16 * 256 + b % 256)

/-- The local address of a channel offset: the inverse of `dramChan` (R461). -/
def dramAddr (ilv : BitVec 96) (c o : Nat) : Nat :=
  let k := o / 2 ^ 24
  let hi := field o 8 16
  if ilv.getLsbD k then
    let h := (c % 64) ^^^ field hi 0 6 ^^^ field hi 6 6 ^^^ field hi 12 4 ^^^ (k % 64)
    k * 2 ^ 32 + (c / 64) * 2 ^ 30 + (hi * 64 + h % 64) * 256 + o % 256
  else
    let l := (c ^^^ field hi 0 8 ^^^ field hi 8 8 ^^^ k) % 256
    k * 2 ^ 32 + (hi * 256 + l) * 256 + o % 256

/-- Quarter that serves a local address: the home quarter of a DRAM address (R463), or the Erg store's quarter. -/
def homeQuarter (c : Core) (a : Nat) : Nat :=
  match place a with
  | .dram => (dramChan c.ilv a).1 / 64
  | .erg q _ => q
  | _ => 0

/-- The unit of R494 that holds a word: quarter and unit number, 64 for the Erg store. -/
def unitOf (c : Core) (a : Nat) : Nat × Nat :=
  match place a with
  | .dram => let ch := (dramChan c.ilv a).1; (ch / 64, ch % 64)
  | .erg q _ => (q, 64)
  | _ => (0, 64)

/-- Bytes of a quarter's addressable region (R455). -/
def Core.top (c : Core) (q : Nat) : Nat :=
  let l := nth {} c.layouts q
  (510 - l.stage - l.coal - l.cache) * 2 ^ 20

/-! ### Bytes -/

/-- Store bytes at an address of a byte table. -/
def putBytes (m : List Host.Cell) (a : Nat) (bs : List Byte) : List Host.Cell :=
  soverlay m a bs.length ((runFrom a bs).filter (fun p => decide (p.2 ≠ 0)))

/-- `n` bytes of a byte table from an address. -/
def getBytes (m : List Host.Cell) (a n : Nat) : List Byte := let s := sslice m a n; (upto n).map (fun i => sget (0 : Byte) s (a + i))

/-- Flip the bits of `x` in the eight bytes at `a`. -/
def xorWord (m : List Host.Cell) (a x : Nat) : List Host.Cell :=
  (upto 8).foldl (fun m i =>
    let v := field x (8 * i) 8
    if v = 0 then m else sset (0 : Byte) m (a + i) (sget (0 : Byte) m (a + i) ^^^ BitVec.ofNat 8 v)) m

/-! ### Error records (R515, R516) -/

/-- Who made an access: the quarter, the record SOURCE code, the reading strand and descriptor, its transaction, whether a
single-sector miss takes the narrow path (R471), what a write carries (hint, use count, poison), and the DRAM line whose words a read takes from
the Erg store cells that hold it. -/
structure Acc where
  q : Nat := 0
  src : Nat := 0
  strand : Option Nat := none
  index : Nat := 0
  txn : Option Nat := none
  narrow : Bool := false
  hint : Nat := 0
  uses : Nat := 0
  poison : Bool := false
  line : Option Nat := none
deriving DecidableEq, Repr

/-- The local address that an access carried for a word of the cells at `a` (R516): the DRAM address of a cached word. -/
def Acc.carried (acc : Acc) (a : Nat) : Nat := match acc.line with | some l => l * 128 + a % 128 | none => a

/-- The varying fields of an error record (R516). -/
structure LogRec where
  kind : Nat
  source : Nat := 5
  unit : Nat := 64
  word : Nat := 0
  addr : Nat := 2 ^ 64 - 1
  syndrome : Nat := 0
  bit0 : Nat := 0xFF
  bit1 : Nat := 0xFF
  strand : Nat := 0xFF
  index : Nat := 0
  count : Nat := 0
  row : Nat := 0
deriving DecidableEq, Repr

/-- The 64 bytes of an error record (R516). -/
def logBytes (q time : Nat) (r : LogRec) : List Byte :=
  leBytes 1 r.kind ++ leBytes 1 r.source ++ leBytes 1 r.unit ++ leBytes 1 q ++ leBytes 4 r.word ++ leBytes 8 time
    ++ leBytes 8 r.addr ++ leBytes 2 r.syndrome ++ leBytes 1 r.bit0 ++ leBytes 1 r.bit1 ++ leBytes 1 r.strand
    ++ leBytes 3 r.index ++ leBytes 4 r.count ++ leBytes 4 r.row ++ leBytes 24 0

/-- The device writes whole words of the Erg store: good codewords, which end errors and cancel queued rewrites of those words (R493) and clear the poison of
whole blocks (R499). -/
def Core.putErg (c : Core) (a : Nat) (bs : List Byte) : Core :=
  let w := a / 8
  let n := bs.length / 8
  { c with mem := putBytes c.mem a bs, errs := sclear c.errs w n, corrections := c.corrections.filter (fun x => decide (x < w ∨ w + n ≤ x)),
           poison := c.poison.filter (fun b => decide (b * 64 < a ∨ a + bs.length < b * 64 + 64)) }

/-- Append an error record to a quarter's ring: record n goes to slot n mod 15,872 (R515). -/
def Core.log (c : Core) (q : Nat) (r : LogRec) : Core :=
  let n := c.reg (Reg.eccLogHead q)
  let a := ergAddr q (0x1FF08000 + 64 * (n % 15872))
  (c.setReg (Reg.eccLogHead q) (n + 1)).putErg a (logBytes q c.ct r)

/-- Where a word lies for an error record: channel offset / 8 or Erg quarter offset / 8, and bank and row. -/
def wordPlace (c : Core) (a : Nat) : Nat × Nat × Nat :=
  match place a with
  | .dram => let o := (dramChan c.ilv a).2; (o / 8, field o 10 5, field o 15 16)
  | .erg _ off => (off / 8, 0, 0)
  | _ => (0, 0, 0)

/-- The spare that a remapped row occupies (R510); 0 for a row in place. -/
def Core.spareOf (c : Core) (chan bank row : Nat) : Nat :=
  match c.remaps.find? (fun m => m.chan == chan && m.bank == bank && m.row == row) with | some m => m.spare | none => 0

/-- The record fields that name an access and a word. -/
def recAt (c : Core) (acc : Acc) (a kind : Nat) : LogRec :=
  let (w, b, r) := wordPlace c a
  let (q, u) := unitOf c a
  { kind := kind, source := acc.src, unit := u, word := w, addr := acc.carried a, strand := acc.strand.getD 0xFF,
    index := acc.index, row := r + b * 2 ^ 16 + (if u < 64 then c.spareOf (q * 64 + u) b r else 0) * 2 ^ 21 }

/-- State of a unit. -/
def Core.unit (c : Core) (q u : Nat) : UnitSt := sget {} c.units (q * 128 + u)

/-- Replace the state of a unit. -/
def Core.setUnit (c : Core) (q u : Nat) (x : UnitSt) : Core := { c with units := sset {} c.units (q * 128 + u) x }

/-- Mark a full retrain of a device channel as scheduled (R481). -/
def Core.schedRetrain (c : Core) (chan : Nat) : Core :=
  if c.retrainDue.contains chan then c else { c with retrainDue := c.retrainDue ++ [chan] }

/-- One more corrected word in a unit's bucket (R495); `r` names the read that corrected it. DEDUCED, log entry 58. -/
def Core.bucket (c : Core) (q u : Nat) (r : LogRec) : Core :=
  let k := bankKey u (Reg.eccLevel q)
  let th := max 1 (c.fld (Reg.eccBucket q) 0 16)
  let l := c.fld k 0 16 + 1
  if l > th then
    let c1 := (c.setFld k 0 16 0).incFld k 16 16 1
    let c2 := (c1.log q { r with kind := 0x05, unit := u, count := c1.fld k 16 16 }).raise (qpage q 7) 0
    if u < 64 ∧ c.fld (bankKey u (Reg.memHrt q)) 31 1 = 0 then c2.schedRetrain (q * 64 + u) else c2
  else c.setFld k 0 16 l

/-- A row becomes failing (R508). -/
def Core.failRow (c : Core) (chan bank row : Nat) : Core :=
  if c.failing.contains (chan, bank, row) || c.remapBusy.any (fun m => m.chan == chan && m.bank == bank && m.row == row) then c else { c with failing := c.failing ++ [(chan, bank, row)] }

/-- Count a correction of a word in its channel's history; the REPEAT-th makes its row failing (R508). -/
def Core.noteHistory (c : Core) (q u w bank row : Nat) : Core :=
  let x := c.unit q u
  let n := match x.history.find? (fun h => h.1 == w) with
    | some h => h.2.1 + 1
    | none => 1
  let rest := x.history.filter (fun h => h.1 != w)
  let rest := if rest.length ≥ 16 then rest.drop 1 else rest
  let c1 := c.setUnit q u { x with history := rest ++ [(w, n, c.up)] }
  if n = max 1 (c.fld (Reg.eccCfg q) 4 4) then c1.failRow (q * 64 + u) bank row else c1

/-- A corrected word (R492 to R494, R508, R516). -/
def Core.corrected (c : Core) (acc : Acc) (a : Nat) (e : BitVec 80) (b0 b1 : Nat) : Core :=
  let (q, u) := unitOf c a
  let (w, bank, row) := wordPlace c a
  let c1 := c.inc (bankKey u (Reg.eccCe q)) 1
  let x := c1.unit q u
  let due : Bool := match x.lastCe with
    | none => true
    | some t => decide (t + 1000000 ≤ c.ct)
  let (s1, s3, s0) := syndromes e
  let r := { recAt c1 acc a 0x01 with syndrome := s1 + s3 * 128 + s0 * 2 ^ 14, bit0 := b0, bit1 := b1 }
  let c2 := if c1.fld (Reg.eccCfg q) 0 1 = 1 ∧ due then (c1.log q r).setUnit q u { x with lastCe := some c.ct } else c1
  let c3 := c2.bucket q u r
  let c4 := if u < 64 then c3.noteHistory q u w bank row else c3
  if c4.corrections.contains (a / 8) then c4 else { c4 with corrections := c4.corrections ++ [a / 8] }

/-- Count and log an uncorrectable word, and fail its row (R496, R508): type 0x04 when the read of a merge found it (R503), else 0x02. -/
def Core.countUe (c : Core) (acc : Acc) (a : Nat) (e : BitVec 80) : Core :=
  let (q, u) := unitOf c a
  let (_, bank, row) := wordPlace c a
  let (s1, s3, s0) := syndromes e
  let c1 := ((c.inc (bankKey u (Reg.eccUe q)) 1).raise (qpage q 7) 1).log q
    { recAt c acc a (if acc.src = 4 then 0x04 else 0x02) with syndrome := s1 + s3 * 128 + s0 * 2 ^ 14 }
  let c2 := { c1 with ueFound := insN c1.ueFound (acc.carried a), ownUe := match acc.strand with | some k => (k, acc.carried a / 64) :: c1.ownUe | none => c1.ownUe }
  if u < 64 then c2.failRow (q * 64 + u) bank row else c2

/-- The line of an address in its home quarter's cache. -/
def Core.line? (c : Core) (a : Nat) : Option Line := c.lines.find? (fun l => l.tag == a / 128)

/-- Whether a sector of a line is valid in the cache. -/
def Core.sectorValid (c : Core) (a : Nat) : Bool :=
  match c.line? a with
  | some l => l.valid.getLsbD (a % 128 / 32)
  | none => false

/-- The local address of the Erg store cells that hold a cache line. Where a line lies in the cache's space is not stated (R464). DEDUCED, log entry 59. -/
def Core.lineCell (c : Core) (l : Line) : Nat :=
  let mib := (nth {} c.layouts l.quarter).cache
  ergAddr l.quarter (c.top l.quarter + Config.cacheCell mib l.tag % (mib * 2 ^ 13) * 128)

/-- The address whose bytes an Erg store cell at or above TOP holds for the cache (R771); the cell's own address where no line lies there. -/
def Core.heldAt (c : Core) (a : Nat) : Nat :=
  match place a with
  | .erg q off =>
    if off < c.top q then a
    else match c.lines.find? (fun l => l.quarter == q && c.lineCell l == a / 128 * 128) with
      | some l => l.tag * 128 + a % 128
      | none => a
  | _ => a

/-- A word's bytes as readers see them, with those of its open merge entry laid over (R502). -/
def Core.overlay (c : Core) (m : List Host.Cell) (w : Nat) : List Host.Cell :=
  match c.merge.find? (fun e => e.word == w) with
  | some e => (upto 8).foldl (fun m j =>
      if e.mask.getLsbD j then sset (0 : Byte) m (w * 8 + j) (BitVec.ofNat 8 (field e.bytes.toNat (8 * j) 8)) else m) m
  | none => m

/-- The data and poison bits an error pattern leaves flipped after a read: into the cells, and into what readers see unless the
sector is held in the cache (R771), but not into the bytes of an open merge entry (R502). -/
def Core.flip (c : Core) (a x : Nat) (cached : Bool) : Core :=
  let h := c.heldAt a
  let m := c.overlay (xorWord c.mem h (x % 2 ^ 64)) (h / 8)
  let d := xorWord c.dram a (x % 2 ^ 64)
  let p := if x.testBit 64 then insN c.poison (h / 64) else c.poison
  let dp := if x.testBit 64 then insN c.dramPoison (a / 64) else c.dramPoison
  match place a with
  | .dram => if cached then { c with dram := d, dramPoison := dp } else { c with mem := m, dram := d, poison := p, dramPoison := dp }
  | _ => { c with mem := m, poison := p }

/-- Poison a block (R496): a DRAM block in its cells, which readers see unless the cache holds a sector of it; a fetch of the rest of such a block brings its
poison (`Core.fetch`, R771). -/
def Core.poisonBlock (c : Core) (a : Nat) : Core :=
  match place a with
  | .dram =>
    let b := a / 64
    { c with poison := if c.sectorValid (b * 64) || c.sectorValid (b * 64 + 32) then c.poison else insN c.poison b, dramPoison := insN c.dramPoison b }
  | _ => { c with poison := insN c.poison (c.heldAt a / 64) }

/-- Read one word's cells (local address `a`, 8-byte aligned): correct and count, or report it uncorrectable (R490, R494). A DRAM word whose sector the
cache holds is not what readers of its address see. DESIGN CHOICE, log entry 11; DEDUCED, log entry 58. -/
def Core.checkWord (c : Core) (acc : Acc) (a : Nat) : Core × Bool :=
  let e := sget (0 : BitVec 80) c.errs (a / 8)
  let cached := c.sectorValid a
  if e = 0 then (c, false)
  else match eccDecide e with
    | .clean => ({ c.flip a e.toNat cached with errs := sdel c.errs (a / 8) }, false)
    | .corrected m b0 b1 =>
      let left := e.toNat ^^^ m
      let c1 := (c.flip a left cached).corrected acc a e b0 b1
      ({ c1 with errs := sset (0 : BitVec 80) c1.errs (a / 8) (BitVec.ofNat 80 m) }, false)
    | .uncorrectable =>
      let c1 := (c.flip a e.toNat cached).countUe acc a e
      ({ c1 with errs := sdel c1.errs (a / 8) }, true)

/-- Read the words of a range of cells; an uncorrectable word poisons its whole block, whose other words are read for the
write-back (R496, R771). Answers whether any word was uncorrectable. -/
def Core.checkCells (c : Core) (acc : Acc) (a words : Nat) : Core × Bool :=
  (upto words).foldl (fun (p : Core × Bool) i =>
    let w := a + 8 * i
    let (c1, bad) := p.1.checkWord acc w
    if bad then
      let blk := w / 64 * 64
      let c2 := (upto 8).foldl (fun d j => (d.checkWord acc (blk + 8 * j)).1) c1
      ({ c2.poisonBlock w with errs := sclear c2.errs (blk / 8) 8 }, true)
    else (c1, p.2)) (c, false)

end Sys2Proof.Machine
end

