-- ==== Sys2Proof/Machine/Ops.lean ====
section
/-!
DEFINITION. Reads and writes of local memory: the Erg cache and its hints (R463 to R471), the merge buffer (R500 to R503), poison (R497 to
R499), dropped accesses (R452, R458, R482, R511), the step journal and the mirror queues (R605, R609), and transaction staging
(R92 to R94).
-/
namespace Sys2Proof.Machine
open Sys2Proof

/-! ### Channels, retirement, mirrored ranges -/

/-- Whether a device channel is in state FAILED (R482). -/
def Core.chFailed (c : Core) (chan : Nat) : Bool := c.fld (bankKey (chan % 64) (Reg.memChState (chan / 64))) 0 3 == 4

/-- Whether a DRAM address lies in a FAILED channel. -/
def Core.addrFailed (c : Core) (a : Nat) : Bool := c.chFailed (dramChan c.ilv a).1

/-- Whether an address lies in a retired page (R511). -/
def Core.isRetired (c : Core) (a : Nat) : Bool := c.retired.contains (a / 65536)

/-- The mirror delta D (R604). -/
def Core.mirrorD (c : Core) : Nat := min (c.fld Reg.jobCfg 8 6) 47 * 2 ^ 32

/-- Whether an address lies in a valid mirrored range (R604). -/
def Core.inMirrored (c : Core) (a : Nat) : Bool :=
  (upto 64).any (fun i =>
    let b := c.reg (bankKey i Reg.twinRangeBase)
    let base := field b 0 23 * 65536
    let len := c.fld (bankKey i Reg.twinRangeLen) 0 23 * 65536
    b.testBit 31 && decide (base + len ≤ c.mirrorD) && decide (base ≤ a) && decide (a < base + len))

/-- Whether an address lies in the mirror area (R604). -/
def Core.inMirrorArea (c : Core) (a : Nat) : Bool := decide (c.mirrorD ≤ a) && decide (a < 2 * c.mirrorD)

/-- The journal's base and the bytes it may hold (R612). -/
def Core.journalRange (c : Core) : Nat × Nat :=
  let base := c.fld Reg.twinJrnlBase 0 23 * 65536
  let size := c.fld Reg.twinJrnlSize 0 23 * 65536
  if 2 * c.mirrorD ≤ base ∧ base + size ≤ dramEnd then (base, size) else (base, 0)

/-- Whether writes are mirrored: the pair is formed or a fill runs (R605, R633). -/
def Core.mirroring (c : Core) : Bool := c.pair == 2 || c.pair == 4 || c.pair == 5

/-! ### Cache lines -/

/-- Whether the range `[a, a + n)` meets `[lo, hi)`. -/
def meets (a n lo hi : Nat) : Bool := decide (n ≠ 0) && decide (a < hi) && decide (lo < a + n)

/-- The DRAM bytes of a sector of a line take the values the cache holds; the sector's cells are good again, and the channel has accepted a write to its
burst (R492). -/
def Core.spillSector (c : Core) (tag i : Nat) : Core :=
  let a := tag * 128 + i * 32
  let d := putBytes c.dram a (getBytes c.mem a 32)
  { c with dram := d, errs := sclear c.errs (a / 8) 4, corrections := c.corrections.filter (fun w => w / 8 != a / 64) }

/-- The poison of a block of DRAM after dirty sectors of its line were written, `n` of two (R491, R498, R499): the words written carry the poison of the
block as held, and words not written keep theirs. -/
def Core.spillPoison (c : Core) (b n : Nat) : Core :=
  if n = 0 then c
  else if c.poison.contains b then { c with dramPoison := insN c.dramPoison b }
  else if n = 2 then { c with dramPoison := delN c.dramPoison b } else c

/-- Whether a DRAM address's channel is quiesced (R480). -/
def Core.quiesced (c : Core) (tag : Nat) : Bool :=
  let ch := (dramChan c.ilv (tag * 128)).1
  c.fld (bankKey (ch % 64) (Reg.memChState (ch / 64))) 0 3 == 3

/-- Whether a row of DRAM is being copied to a spare (R509). -/
def Core.rowBusy (c : Core) (a : Nat) : Bool :=
  let (ch, o) := dramChan c.ilv a
  c.remapBusy.any (fun m => m.chan == ch && m.bank == field o 10 5 && m.row == field o 15 16)

/-- Whether requests to a DRAM address wait in its home quarter's device area (R480, R509), or all of them because memory issue has stopped (R664). -/
def Core.held (c : Core) (a : Nat) : Bool := c.memStop || c.quiesced (a / 128) || c.rowBusy a

/-- Whether a group whose zero fill runs holds a byte of a range (R462). -/
def Core.filling (c : Core) (a n : Nat) : Bool := c.ilvFill.any (fun k => meets a n (k * 2 ^ 32) ((k + 1) * 2 ^ 32))

/-- Whether a host access that waits meets a range; `writes` asks for those that write (R480: requests to one address complete in their order of arrival). -/
def Core.parkedAt (c : Core) (a n : Nat) (writes : Bool) : Bool := c.parked.any (fun p => (p.data.isSome || !writes) && meets a n p.addr (p.addr + p.len))

/-- The words of a cached sector are read from the Erg store cells of its line (R771). -/
def Core.checkHeld (c : Core) (acc : Acc) (a : Nat) : Core × Bool :=
  if c.errs.isEmpty then (c, false)
  else match c.line? a with
    | some l => c.checkCells { acc with line := some l.tag } (c.lineCell l + a % 128) 4
    | none => (c, false)

/-- Cells of a line that take new words hold good codewords. -/
def Core.freshHeld (c : Core) (a words : Nat) : Core :=
  if c.errs.isEmpty then c
  else match c.line? a with
    | some l => let w := (c.lineCell l + a % 128) / 8; { c with errs := sclear c.errs w words, corrections := c.corrections.filter (fun x => decide (x < w ∨ w + words ≤ x)) }
    | none => c

/-- Write a line's dirty sectors back to DRAM, read from its cells (R465, R771). Writes to a FAILED channel are dropped (R482). -/
def Core.spillLine (c : Core) (l : Line) : Core :=
  if l.dirty = 0 then c
  else if c.addrFailed (l.tag * 128) then c
  else
    let c1 := (upto 4).foldl (fun d i =>
      if l.dirty.getLsbD i then (d.checkHeld { q := l.quarter, src := 3 } (l.tag * 128 + 32 * i)).1.spillSector l.tag i else d) c
    let c2 := (upto 2).foldl (fun d i => d.spillPoison (2 * l.tag + i) (b2n (l.dirty.getLsbD (2 * i)) + b2n (l.dirty.getLsbD (2 * i + 1)))) c1
    c2.inc (Reg.ergWriteback l.quarter) 1

/-- A write-back waits while its channel is quiesced or its row is being remapped (R480, R509). -/
def Core.writeBack (c : Core) (l : Line) : Core :=
  if l.dirty != 0 && !c.addrFailed (l.tag * 128) && c.held (l.tag * 128) then { c with stall := true } else c.spillLine l

/-- Remove a line from the cache. -/
def Core.dropLine (c : Core) (tag : Nat) : Core := { c with lines := c.lines.filter (fun l => l.tag != tag) }

/-- What its addresses read once a line has left the cache: the values held in DRAM (R468, R771), with open merge entries over them, and the poison that
their writes brought (R499, R502). -/
def Core.revert (c : Core) (l : Line) : Core :=
  let a := l.tag * 128
  let m := (c.merge.filter (fun e => e.word / 16 == l.tag)).foldl (fun m e => c.overlay m e.word) (putBytes c.mem a (getBytes c.dram a 128))
  let p := (upto 2).foldl (fun p i => let b := 2 * l.tag + i; if c.dramPoison.contains b || (c.poison.contains b && c.merge.any (fun (e : Merge) => e.word / 8 == b)) then insN p b else delN p b) c.poison
  { c with mem := m, poison := p }

/-- A line is written back and leaves the cache (R465). -/
def Core.evict (c : Core) (l : Line) : Core := ((c.writeBack l).revert l).dropLine l.tag

/-- The lines that share a line's set. DEDUCED, log entry 59. -/
def Core.setLines (c : Core) (q tag : Nat) : List Line :=
  let mib := (nth {} c.layouts q).cache
  c.lines.filter (fun l => l.quarter == q && Config.cacheSet mib l.tag == Config.cacheSet mib tag)

/-- The victim of a full set: least recently used STREAM, then least recently used with hint 0, then the LAST line written earliest;
lines of a quiesced channel or a row under remap are skipped and KEEP lines are never victims (R467). Lines stand most recently used first. -/
def Core.victim (c : Core) (ls : List Line) : Option Line :=
  let ok := (ls.filter (fun l => !c.held (l.tag * 128))).reverse
  match ok.find? (fun l => l.hint == 1#2) with
  | some l => some l
  | none => match ok.find? (fun l => l.hint == 0#2) with
    | some l => some l
    | none => (sortBy (fun x y => decide (x.stamp ≤ y.stamp)) (ok.filter (fun l => l.hint == 3#2))).head?

/-- Make room for a new line (R467): an evicted line is written back; with no eligible victim the allocation waits. Fewer than 16 lines in the quarter
always fit. -/
def Core.makeRoom (c : Core) (q tag : Nat) : Core :=
  if (c.lines.filter (fun l => l.quarter == q)).length < 16 then c
  else
    let ls := c.setLines q tag
    if ls.length < 16 then c
    else match c.victim ls with
      | some v => c.evict v
      | none => { c with stall := true }

/-- Put a line first, as most recently used, after changing it. -/
def Core.useLine (c : Core) (q a : Nat) (f : Line → Line) : Core :=
  let tag := a / 128
  match c.line? a with
  | some l => { c with lines := f l :: c.lines.filter (fun x => x.tag != tag) }
  | none =>
    let c1 := c.makeRoom q tag
    { c1 with lines := f { tag := tag, quarter := q } :: c1.lines }

/-- Pinned bytes of a quarter's cache (R469). -/
def Core.pinned (c : Core) (q : Nat) : Nat := 128 * (c.lines.filter (fun l => l.quarter == q && l.hint == 2#2)).length

/-- Whether a KEEP write of a line would exceed the quota or the 12 lines of its set (R469, R484). -/
def Core.keepDenied (c : Core) (q tag : Nat) : Bool :=
  let lay := nth {} c.layouts q
  let quota := min (c.fld (Reg.ergHintQuota q) 0 9) (lay.cache - 16) * 2 ^ 20
  if c.lines.any (fun l => l.tag == tag && l.hint == 2#2) then false
  else decide (c.pinned q + 128 > quota) ||
    (decide (c.pinned q ≥ 12 * 128) && decide (((c.setLines q tag).filter (fun l => l.hint == 2#2)).length ≥ 12))

/-- The hint a write applies to one line (R466, R468, R469): hint 0 leaves it unchanged, LAST sets the use count, a LAST count of 0 and a
refused KEEP act as hint 0. -/
def Core.applyHint (c : Core) (q a hint uses : Nat) : Core :=
  if hint = 0 ∨ (hint = 3 ∧ uses = 0) then c
  else if hint = 2 ∧ c.keepDenied q (a / 128) then (c.incFld (Reg.ergKeep q) 16 16 1).raise (qpage q 5) 1
  else c.useLine q a (fun l => { l with hint := BitVec.ofNat 2 hint, uses := if hint = 3 then uses else 0, users := [] })

/-! ### Reading -/

/-- Fetch sectors of a missing line from DRAM (R471): one 32 B half burst on the narrow path, else the 64 B half of the sector, with the poison of their block
(R491). The fetch waits while the channel is quiesced or the row is being remapped (R480, R509). Answers whether an uncorrectable word was met. DEDUCED, log entry 58. -/
def Core.fetch (c : Core) (acc : Acc) (a : Nat) (narrow : Bool) : Core × Bool :=
  if c.held a then ({ c with stall := true }, false) else
  let q := (dramChan c.ilv a).1 / 64
  let i := a % 128 / 32
  let first := if narrow then i else i / 2 * 2
  let n := if narrow then 1 else 2
  let (c1, bad) := (upto n).foldl (fun (p : Core × Bool) j =>
    let (d, b) := p.1.checkCells acc (a / 128 * 128 + (first + j) * 32) 4
    (d, p.2 || b)) (c, false)
  let c2 := c1.inc64 (Reg.memRdLo q) (32 * n)
  let bits := BitVec.ofNat 4 ((2 ^ n - 1) * 2 ^ first)
  let c3 := c2.useLine q a (fun l => { l with valid := l.valid ||| bits })
  let c4 := if c3.dramPoison.contains (a / 64) then { c3 with poison := insN c3.poison (a / 64) } else c3
  (c4.freshHeld (a / 128 * 128 + first * 32) (4 * n), bad)

/-- Whether a block's poison gives an access status 0x31. The descriptor that itself found the block uncorrectable reports 0x30 until it completes (R496). -/
def Core.seesPoison (c : Core) (acc : Acc) (a : Nat) : Bool :=
  c.poison.contains (a / 64) && !(match acc.strand with | some k => c.ownUe.contains (k, a / 64) | none => false)

/-- Count sector hits and misses in a line's home quarter (R484). -/
def Core.countSectors (c : Core) (a hits misses : Nat) : Core :=
  let q := (dramChan c.ilv a).1 / 64
  let c1 := if hits = 0 then c else c.inc64 (Reg.ergHitLo q) hits
  if misses = 0 then c1 else c1.inc64 (Reg.ergMissLo q) misses

/-- A strand's descriptor takes a use of a LAST line at its first read of it (R468). -/
def Core.takeUse (c : Core) (acc : Acc) (a : Nat) : Core :=
  match acc.strand with
  | none => c
  | some k => match c.line? a with
    | none => c
    | some l =>
      if l.hint = 3#2 ∧ l.uses ≠ 0 ∧ !l.users.contains k then
        c.useLine l.quarter a (fun l => { l with uses := l.uses - 1, users := l.users ++ [k] })
      else c

/-- 32 B sectors of one line of DRAM read through its home quarter's cache, `ss` their addresses: hit and miss counts, fetch (R471), LAST use,
cells of the sectors held (R771), poison. Answers the status the access gives a descriptor. -/
def Core.touchLine (c : Core) (acc : Acc) (ss : List Nat) : Core × Nat :=
  match ss with
  | [] => (c, 0)
  | a :: _ =>
    if c.isRetired a then (c, 0x31)
    else if c.addrFailed a then ({ c with poison := insN (insN c.poison (a / 128 * 2)) (a / 128 * 2 + 1) }, 0x30)
    else
      let missing := ss.filter (fun s => !c.sectorValid s)
      let c0 := c.countSectors a (ss.length - missing.length) missing.length
      let narrow := acc.narrow && ss.length == 1
      let starts := if narrow then missing else (missing.map (fun s => s / 64 * 64)).foldl insN []
      let (c0, bad0) := (ss.filter c.sectorValid).foldl (fun (p : Core × Bool) s => let (d, b) := p.1.checkHeld acc s; (d, p.2 || b)) (c0, false)
      let (c1, bad) := starts.foldl (fun (p : Core × Bool) s => let (d, b) := p.1.fetch acc s narrow; (d, p.2 || b)) (c0, bad0)
      let c2 := if missing.isEmpty then c1.useLine ((dramChan c1.ilv a).1 / 64) a id else c1
      let c3 := c2.takeUse acc a
      (c3, if ss.any (c3.seesPoison acc) then 0x31 else if bad then 0x30 else 0)

/-- The effects of reading the cells of a range of the Erg store's addressable region, whole sectors (R771): only words that hold bit
errors and poisoned blocks matter. -/
def Core.touchErg (c : Core) (acc : Acc) (a n : Nat) : Core × Nat :=
  if n = 0 then (c, 0)
  else
    let lo := a / 32 * 32
    let len := ceilDiv (a + n) 32 * 32 - lo
    let ws := (sslice c.errs (lo / 8) (len / 8)).map (fun p => p.1 * 8)
    let (c1, bad) := ws.foldl (fun (p : Core × Bool) w => let (d, b) := p.1.checkCells acc w 1; (d, p.2 || b)) (c, false)
    let seen := c1.poison.any (fun b => meets lo len (b * 64) (b * 64 + 64) && c1.seesPoison acc (b * 64))
    (c1, if seen then 0x31 else if bad then 0x30 else 0)

/-- Count an access to an unmapped address or register space (R452). -/
def Core.unmapped (c : Core) (q : Nat) : Core := c.inc (Reg.memUnmapped q) 1

/-- Count an access at or above TOP (R458, R485). -/
def Core.unaddr (c : Core) (q : Nat) : Core := (c.inc (Reg.ergUnaddr q) 1).raise (qpage q 5) 0

/-- The sectors a range touches, by address. -/
def sectorsOf (a n : Nat) : List Nat :=
  if n = 0 then [] else (upto ((a + n - 1) / 32 - a / 32 + 1)).map (fun i => (a / 32 + i) * 32)

/-- Count an access in each quarter whose Erg store it reaches at or above TOP (R458). -/
def Core.countAbove (c : Core) (a n : Nat) : Core :=
  (upto 4).foldl (fun d i => if meets a n (ergBase + i * 2 ^ 29 + d.top i) (ergBase + (i + 1) * 2 ^ 29) then d.unaddr i else d) c

/-- What a range's accesses leave outside memory proper: whether any of it is unmapped, and in which quarters it lies above TOP. -/
def Core.countOutside (c : Core) (q a n : Nat) : Core :=
  (if meets a n dramEnd ergBase || meets a n (ergBase + 2 ^ 31) (a + n + 1) then c.unmapped q else c).countAbove a n

/-- The effects of reading `n` bytes at `a`, and the status they give a descriptor: 0, 0x30 or 0x31 (R496, R497). Reads of unmapped addresses,
register space and offsets above TOP count and read zero; a read of a group under its zero fill, or of bytes that a waiting host write is to change, waits
(R462, R480). -/
def Core.touch (c : Core) (acc : Acc) (a n : Nat) : Core × Nat :=
  if c.filling a n || c.parkedAt a n true then ({ c with stall := true }, 0) else
  let ss := if a < dramEnd then (sectorsOf a (min (a + n) dramEnd - a)) else []
  let lines := (ss.map (· / 128)).foldl insN []
  let (c1, st1) := lines.foldl (fun (p : Core × Nat) l =>
    let (d, st) := p.1.touchLine acc (ss.filter (fun s => s / 128 == l))
    (d, max p.2 st)) (c.countOutside acc.q a n, 0)
  (upto 4).foldl (fun (p : Core × Nat) i =>
    let lo := max a (ergBase + i * 2 ^ 29)
    let hi := min (a + n) (ergBase + i * 2 ^ 29 + p.1.top i)
    let (d, st) := p.1.touchErg acc lo (hi - lo)
    (d, max p.2 st)) (c1, st1)

/-- The open transaction with an identifier. -/
def Core.txn? (c : Core) (id : Nat) : Option Txn := c.txns.find? (fun t => t.id == id)

/-- Change an open transaction. -/
def Core.setTxn (c : Core) (id : Nat) (f : Txn → Txn) : Core :=
  { c with txns := c.txns.map (fun t => if t.id == id then f t else t) }

/-- The byte a reader sees of a table of staged bytes and one of memory: the staged one first (R93); zero outside memory (R452, R458). -/
def Core.seenByte (c : Core) (stage mem : List Host.Cell) (a : Nat) : Byte :=
  (sfind stage a).getD (match place a with
    | .dram => sget 0 mem a
    | .erg q off => if off < c.top q then sget 0 mem a else 0
    | _ => 0)

/-- The staged bytes that a member of a transaction sees (R93). -/
def Core.stageOf (c : Core) (txn : Option Nat) : List Host.Cell :=
  match txn.bind c.txn? with
  | some t => t.stage
  | none => []

/-- The byte a reader sees. DEDUCED, log entry 10. -/
def Core.byteAt (c : Core) (txn : Option Nat) (a : Nat) : Byte := c.seenByte (c.stageOf txn) c.mem a

/-- `n` bytes as a reader sees them. -/
def Core.bytesAt (c : Core) (txn : Option Nat) (a n : Nat) : List Byte :=
  let st := sslice (c.stageOf txn) a n
  let m := sslice c.mem a n
  (upto n).map (fun i => c.seenByte st m (a + i))

/-- A little-endian number of `n` bytes as a reader sees it (R6). -/
def Core.numAt (c : Core) (txn : Option Nat) (a n : Nat) : Nat := ofLE (c.bytesAt txn a n)

/-- Read `n` bytes: effects, status and bytes. A poisoned staged block counts as poison (R498). -/
def Core.read (c : Core) (acc : Acc) (a n : Nat) : Core × Nat × List Byte :=
  let (c1, st) := c.touch acc a n
  let st := match acc.txn.bind c.txn? with
    | some t => if n ≠ 0 ∧ (upto ((a + n - 1) / 64 - a / 64 + 1)).any (fun i => t.stagePoison.contains (a / 64 + i)) then max st 0x31 else st
    | none => st
  (c1, st, c1.bytesAt acc.txn a n)

/-- Whether a read waits in the device area: for a fill, a host write before it, a full retrain or a row remap, unless the cache holds its sectors (R462, R480,
R509). -/
def Core.readWaits (c : Core) (a n : Nat) : Bool :=
  c.filling a n || c.parkedAt a n true || (sectorsOf a n).any (fun s => decide (s < dramEnd) && !c.sectorValid s && c.held s)

/-! ### Writing -/

/-- A 64 B block read by the device itself for the journal or the twin: its bytes, and whether it is poisoned. Its words are decoded as on every read (R490,
R494), and a retired page reads poisoned (R511). -/
def Core.readBlock (c : Core) (b : Nat) : Core × List Byte × Bool :=
  let (c1, st) := c.touch { q := homeQuarter c (b * 64), src := 5 } (b * 64) 64
  (c1, c1.bytesAt none (b * 64) 64, decide (st ≠ 0) || c1.poison.contains b)

/-- Whether a write to a block takes effect: it lies in DRAM that is neither retired nor FAILED, or below TOP (R452, R458, R482, R511). -/
def Core.writable (c : Core) (a : Nat) : Bool :=
  match place a with
  | .dram => !c.isRetired a && !c.addrFailed a
  | .erg q off => decide (off < c.top q)
  | _ => false

/-- What a write does to a block's poison before its bytes land (R497 to R499). `full` tells whether the write covers all 64 bytes. -/
def Core.blockPoison (c : Core) (acc : Acc) (b : Nat) (full : Bool) : Core :=
  if acc.poison then { c with poison := insN c.poison b }
  else if full then { c with poison := delN c.poison b } else c

/-- Mark the sector of an address valid and dirty. -/
def Core.dirtySector (c : Core) (a : Nat) : Core :=
  let q := (dramChan c.ilv a).1 / 64
  let b := BitVec.ofNat 4 (2 ^ (a % 128 / 32))
  let c1 := { c with stamp := c.stamp + 1 }
  c1.useLine q a (fun l => { l with valid := l.valid ||| b, dirty := l.dirty ||| b, stamp := c1.stamp })

/-- A write that covers part of a sector fetches it first when it is not valid (R465). -/
def Core.fetchFirst (c : Core) (acc : Acc) (a : Nat) : Core :=
  match place a with
  | .dram => if c.sectorValid a then c else (c.fetch acc a true).1
  | _ => c

/-- A sector of DRAM that takes whole words is dirty in the cache. -/
def Core.dirtied (c : Core) (a : Nat) : Core := match place a with | .dram => c.dirtySector a | _ => c

/-- The read-modify-write that closes a merge entry (R501, R503). -/
def Core.closeMerge (c : Core) (e : Merge) : Core :=
  let a := e.word * 8
  let acc : Acc := { q := e.quarter, src := 4 }
  let c1 := { c with merge := c.merge.filter (fun x => x.word != e.word) }
  let c2 := c1.incFld (Reg.eccMerge e.quarter) 16 16 1
  let c3 := match place a with
    | .dram => if c2.sectorValid a then (c2.checkHeld acc (a / 32 * 32)).1 else (c2.fetch acc a true).1
    | _ => (c2.checkCells acc a 1).1
  let c4 := { c3 with mem := (upto 8).foldl (fun m j =>
      if e.mask.getLsbD j then sset (0 : Byte) m (a + j) (BitVec.ofNat 8 (field e.bytes.toNat (8 * j) 8)) else m) c3.mem }
  match place a with
  | .dram => (c4.dirtySector a).freshHeld a 1
  | _ => { c4 with errs := sdel c4.errs e.word, corrections := c4.corrections.filter (fun w => w != e.word) }

/-- The open entry of a word, if one is open, performs its read-modify-write first (R502). -/
def Core.settleWord (c : Core) (a : Nat) : Core := match c.merge.find? (fun e => e.word == a / 8) with | some e => c.closeMerge e | none => c

/-- Close the oldest open merge entry of a quarter, if one is open. -/
def Core.closeOldest (c : Core) (q : Nat) : Core :=
  match c.merge.find? (fun e => e.quarter == q) with
  | some e => c.closeMerge e
  | none => c

/-- A whole word is written: an open entry is discarded (R502), and Erg store cells take a good codeword and cancel a queued rewrite (R493). -/
def Core.wholeWord (c : Core) (a : Nat) : Core :=
  let w := a / 8
  let c1 := { c with merge := c.merge.filter (fun e => e.word != w) }
  match place a with
  | .dram => c1.freshHeld a 1
  | _ => { c1 with errs := sdel c1.errs w, corrections := c1.corrections.filter (fun x => x != w) }

/-- Readers see the bytes of a word's open entry (R502). -/
def Core.laid (c : Core) (w : Nat) : Core := { c with mem := c.overlay c.mem w }

/-- A narrow write enters the merge buffer (R500, R501): into the word's open entry, or a new one, the oldest making room; a filled entry
writes the whole word. DEDUCED, log entry 53. -/
def Core.mergeWord (c : Core) (acc : Acc) (a mask bytes : Nat) : Core :=
  let w := a / 8
  let q := homeQuarter c a
  match c.merge.find? (fun e => e.word == w) with
  | some e =>
    let m := e.mask ||| BitVec.ofNat 8 mask
    let b := (upto 8).foldl (fun b j => if mask.testBit j then putField b (8 * j) 8 (field bytes (8 * j) 8) else b) e.bytes.toNat
    let c1 : Core := { c with merge := c.merge.map (fun x => if x.word == w then { x with mask := m, bytes := BitVec.ofNat 64 b } else x) }
    if m = 255#8 then (((c1.fetchFirst acc a).laid w).dirtied a).wholeWord a else c1.laid w
  | none =>
    let c1 := if (c.merge.filter (fun e => e.quarter == q)).length ≥ 64 then c.closeOldest q else c
    let c2 : Core := { c1 with merge := c1.merge ++ [{ quarter := q, word := w, mask := BitVec.ofNat 8 mask, bytes := BitVec.ofNat 64 bytes }] }
    c2.laid w

/-- A write of a line applies its hint (R466). -/
def Core.hintLine (c : Core) (line hint uses : Nat) : Core :=
  match place (line * 128) with
  | .dram => if c.writable (line * 128) then c.applyHint ((dramChan c.ilv (line * 128)).1 / 64) (line * 128) hint uses else c
  | _ => c

/-- The aligned words of a sector that a write of `n` bytes at `a` covers whole. -/
def wholeWords (s a n : Nat) : List Nat := (upto 4).filter (fun i => decide (a ≤ s + 8 * i) && decide (s + 8 * i + 8 ≤ a + n))

/-- What a write does to a sector before its bytes land: it counts, and a sector it covers in part with whole words is fetched (R465). -/
def Core.enterSector (c : Core) (acc : Acc) (a n s : Nat) : Core :=
  match place s with
  | .dram =>
    if !c.writable s then c
    else
      let v := c.sectorValid s
      let d := c.countSectors s (b2n v) (1 - b2n v)
      let k := (wholeWords s a n).length
      if k = 0 ∨ k = 4 then d else d.fetchFirst acc s
  | _ => c

/-- The bytes of whole words and the narrow rest of a write land in a sector (R465, R500): the `n` bytes of `bs` are written at `a`. -/
def Core.landSector (c : Core) (acc : Acc) (a n : Nat) (bs : List Byte) (s : Nat) : Core :=
  if !c.writable s then c
  else
    let whole := wholeWords s a n
    let part := (upto 4).filter (fun i => !whole.contains i && decide (a < s + 8 * i + 8) && decide (s + 8 * i < a + n))
    let d1 := if whole.isEmpty then c else c.dirtied s
    let d2 := whole.foldl (fun d i => d.wholeWord (s + 8 * i)) d1
    part.foldl (fun d i =>
      let w := s + 8 * i
      let put := (upto 8).filter (fun j => decide (a ≤ w + j) && decide (w + j < a + n))
      d.mergeWord acc w (put.foldl (fun m j => m + 2 ^ j) 0) (put.foldl (fun v j => putField v (8 * j) 8 (nth (0 : Byte) bs (w + j - a)).toNat) 0)) d2

/-- Run an operation on every 64 B block that `n` bytes at `a` touch and a write there changes, with whether the bytes cover it. -/
def Core.onBlocks (c : Core) (a n : Nat) (f : Core → Nat → Bool → Core) : Core :=
  (upto ((a + n - 1) / 64 - a / 64 + 1)).foldl (fun d i =>
    let b := a / 64 + i
    if d.writable (b * 64) then f d b (decide (a ≤ b * 64) && decide (b * 64 + 64 ≤ a + n)) else d) c

/-- Bytes of at most one line of DRAM, or of the Erg store, take their place (R465, R466, R499, R500): neither journaled nor mirrored. -/
def Core.putPiece (c : Core) (acc : Acc) (a : Nat) (bs : List Byte) : Core :=
  let n := bs.length
  let c1 := c.onBlocks a n (fun d b full => d.blockPoison acc b full)
  let c2 := (sectorsOf a n).foldl (fun d s => d.enterSector acc a n s) c1
  let whole (x : Nat) : Bool := decide (a ≤ x / 8 * 8) && decide (x / 8 * 8 + 8 ≤ a + n)
  let c3 := { c2 with mem := putBytes c2.mem a ((runFrom a bs).map (fun p => if whole p.1 && c2.writable p.1 then p.2 else sget (0 : Byte) c2.mem p.1)) }
  let c4 := (sectorsOf a n).foldl (fun d s => d.landSector acc a n bs s) c3
  if acc.hint = 0 then c4
  else (upto ((a + n - 1) / 128 - a / 128 + 1)).foldl (fun d i => d.hintLine (a / 128 + i) acc.hint acc.uses) c4

/-- Append a journal record: a block's prior contents, before a write changes it (R609). It is written like any other line, its second block poisoned when the
block was. A full journal, or one that lies in a group under a zero fill, makes the writer wait (R462, R612). DEDUCED, log entry 75. -/
def Core.journalBlock (c : Core) (b : Nat) : Core :=
  let (base, size) := c.journalRange
  if c.journal + 128 > size then ({ c with stall := true }).raise 7 7
  else if c.filling (base + c.journal) 128 then { c with stall := true }
  else
    let (c1, bs, p) := c.readBlock b
    let a := base + c1.journal
    let acc : Acc := { q := homeQuarter c1 a, src := 5 }
    let c2 := c1.putPiece acc a (leBytes 8 (b * 64 + b2n p) ++ leBytes 56 0)
    { c2.putPiece { acc with poison := p } (a + 64) bs with journal := c1.journal + 128 }

/-- Enter a written block in its home quarter's mirror queue (R605). A queue that was full when the command began makes the writer wait; the blocks that a
command enters past 8,192 wait for their places. DEDUCED, log entry 112. -/
def Core.mirrorBlock (c : Core) (b : Nat) : Core :=
  let q := homeQuarter c (b * 64)
  if (c.mirrorQ.filter (fun x => x.quarter == q && decide (x.num < c.mirrorMark))).length ≥ 8192 then { c with stall := true }
  else { c with mirrorQ := c.mirrorQ ++ [{ quarter := q, block := b, num := c.mirrorNext }], mirrorNext := c.mirrorNext + 1 }

/-- Blocks in the four mirror queues (R605, R637). -/
def Core.queued (c : Core) : Nat := sumN 4 (fun q => min 8192 (c.mirrorQ.filter (fun x => x.quarter == q)).length)

/-- What the twin is owed before a write changes a block: a journal record, and a place in the mirror queue (R605, R609, R633). -/
def Core.noteBlock (c : Core) (journaled : Bool) (b : Nat) : Core :=
  match place (b * 64) with
  | .dram =>
    let a := b * 64
    let c1 := if journaled && (c.inMirrored a || c.inMirrorArea a) then c.journalBlock b else c
    let back := c1.pair == 5 && c1.inMirrorArea a && (match c1.job.fill with | some f => f.sends | none => false)
    if (c1.mirroring && c1.inMirrored a) || back then c1.mirrorBlock b else c1
  | _ => c

/-- Store one piece of a write: at most one line of DRAM, or bytes of the Erg store. -/
def Core.storePiece (c : Core) (acc : Acc) (journaled : Bool) (a : Nat) (bs : List Byte) : Core :=
  (c.onBlocks a bs.length (fun d b _ => d.noteBlock journaled b)).putPiece acc a bs

/-- A run of bytes cut at the ends of lines; `f` bounds the number of pieces. -/
def linePieces : Nat → Nat → List Byte → List (Nat × List Byte)
  | 0, _, _ => []
  | f + 1, a, bs => if bs.isEmpty then [] else (a, bs.take (128 - a % 128)) :: linePieces f (a + (128 - a % 128)) (bs.drop (128 - a % 128))

/-- Store bytes that are not staged (R465, R466, R499, R500). DRAM takes them line by line, so that a line is dirty in the cache before the next one makes
room there (R467). `journaled` is false for copy-out at publication and for rollback (R609). A write to a group under its zero fill, or to bytes that a host access
waits for, waits (R462, R480). -/
def Core.storeWith (c : Core) (acc : Acc) (journaled : Bool) (a : Nat) (bs : List Byte) : Core :=
  let n := bs.length
  if n = 0 then c
  else if c.filling a n || c.parkedAt a n false then { c with stall := true }
  else
    let c0 := c.countOutside acc.q a n
    if dramEnd ≤ a then c0.storePiece acc journaled a bs
    else (linePieces (n / 128 + 2) a bs).foldl (fun d p => d.storePiece acc journaled p.1 p.2) c0

/-- Store bytes that are not staged. -/
def Core.store (c : Core) (acc : Acc) (a : Nat) (bs : List Byte) : Core := c.storeWith acc true a bs

/-- Staging units a quarter's members may take: 32 B each (R92). -/
def Core.stageLimit (c : Core) (q : Nat) : Nat := (nth {} c.layouts q).stage * 2 ^ 20 / 32

/-- Staging units that a transaction takes in a quarter. -/
def unitsIn (us : List Nat) (q : Nat) : Nat := (us.filter (fun u => u / 2 ^ 60 == q)).length

/-- Stage a member's write (R92, R94): bytes outside job memory are dropped and counted at once; the staging space of the member's quarter may
not suffice, which answers 0x21. A member that still runs when its transaction has published stages no more and is answered 0x21. DESIGN CHOICE, log
entry 99. -/
def Core.stageBytes (c : Core) (acc : Acc) (id a : Nat) (bs : List Byte) : Core × Nat :=
  let n := bs.length
  if n = 0 then (c, 0)
  else match c.txn? id with
    | none => (c, 0x21)
    | some t =>
      let c0 := c.countOutside acc.q a n
      let st := soverlay t.stage a n ((runFrom a bs).filterMap (fun p =>
        if c0.writable p.1 then some p else (sfind t.stage p.1).map (fun v => (p.1, v))))
      let ss := (sectorsOf a n).filter c0.writable
      let us := ss.foldl (fun u s => insN u (acc.q * 2 ^ 60 + s / 32)) t.units
      if unitsIn us acc.q > c0.stageLimit acc.q then (c0, 0x21)
      else
        let sp := ss.foldl (fun p s =>
          if acc.poison then insN p (s / 64)
          else if a ≤ s / 64 * 64 ∧ s / 64 * 64 + 64 ≤ a + n then delN p (s / 64) else p) t.stagePoison
        let sh := if acc.hint = 0 then t.stageHint else ss.foldl (fun h s =>
          let old := sget [] h (s / 128)
          let v := acc.hint * 256 + acc.uses
          if old.getLast? = some v then h else sput h (s / 128) (old ++ [v])) t.stageHint
        (c0.setTxn id (fun t => { t with stage := st, units := us, stagePoison := sp, stageHint := sh }), 0)

/-- Write bytes as a descriptor does: staged for a transaction member, else stored. Answers 0x21 when staging space is exceeded. -/
def Core.write (c : Core) (acc : Acc) (a : Nat) (bs : List Byte) : Core × Nat :=
  match acc.txn with
  | some id => c.stageBytes acc id a bs
  | none => (c.store acc a bs, 0)

/-- Several writes in order; stops staging at the first that exceeds the space. -/
def Core.writes (c : Core) (acc : Acc) (ws : List (Nat × List Byte)) : Core × Nat :=
  ws.foldl (fun (p : Core × Nat) w => if p.2 ≠ 0 then p else p.1.write acc w.1 w.2) (c, 0)

/-- Several reads in order: effects and highest status. -/
def Core.touches (c : Core) (acc : Acc) (rs : List (Nat × Nat)) : Core × Nat :=
  rs.foldl (fun (p : Core × Nat) r => let (d, st) := p.1.touch acc r.1 r.2; (d, max p.2 st)) (c, 0)

end Sys2Proof.Machine
end

