-- ==== Sys2Proof/Machine/Operands.lean ====
section
/-!
DEFINITION. What a running descriptor works on: its fields, its reads and writes with status and poison (R19, R496, R497), and numeric outputs
under a format control byte with their rounding groups and draws (R120 to R136, R439, R445).
-/
namespace Sys2Proof.Machine
open Sys2Proof

/-- Record `n` dropped entries, the lowest at position `i`, and status 0x03 (R20). -/
def Comp.dropAt (t : Comp) (n i : Nat) : Comp := { t with drops := satAdd 32 t.drops n, posDrop := min t.posDrop i, status := max t.status 0x03 }

/-- Record dropped entries, where there are any. -/
def Comp.dropMany (t : Comp) (n i : Nat) : Comp := if n = 0 then t else t.dropAt n i

/-- A descriptor field: byte, bit within it, width (R72). -/
def dfld (d : BitVec 512) (byte lo w : Nat) : Nat := field d.toNat (8 * byte + lo) w

/-- A descriptor while it runs: the machine below the strands, the lane-keyed states, what its completion record holds so far, who it is,
its rounding context, and the FP32 additions it leaves for its completion (R419). -/
structure Dx where
  c : Core
  lfsr : SMap Nat := []
  comp : Comp := {}
  acc : Acc := {}
  desc : BitVec 512 := 0
  key : Nat := 0
  stream : Nat := 0
  pos : Nat := 0
  adds : List (Nat × Nat) := []
deriving DecidableEq, Repr

/-- A field of the running descriptor. -/
def Dx.f (x : Dx) (byte lo w : Nat) : Nat := dfld x.desc byte lo w

/-- Local address of an Erg offset that a descriptor field gives: of the descriptor's quarter (R454). An offset that a record in memory gives names its quarter,
`ergByte`. -/
def Dx.erg (x : Dx) (off : Nat) : Nat := ergAddr x.acc.q off

/-- The highest-numbered condition is the status (R19). -/
def Dx.st (x : Dx) (code : Nat) : Dx := { x with comp := { x.comp with status := max x.comp.status code } }

/-- Send a message. -/
def Dx.send (x : Dx) (dst wadi : Nat) (b : Body) : Dx :=
  { x with c := { x.c with out := x.c.out ++ [{ dst := dst, wadi := wadi, body := b, strand := x.acc.strand, src := x.c.actAs }] } }

/-- Change the machine below the strands. -/
def Dx.core (x : Dx) (f : Core → Core) : Dx := { x with c := f x.c }

/-- The effect of a read's status: a poisoned or uncorrectable block poisons what is written from then on (R497). -/
def Dx.seen (x : Dx) (c : Core) (st : Nat) : Dx :=
  let y := { x with c := c }
  if st = 0 then y else { y.st st with acc := { x.acc with poison := true } }

/-- The effects of reading a range. -/
def Dx.touch (x : Dx) (a n : Nat) : Dx := let (c, st) := x.c.touch x.acc a n; x.seen c st

/-- Read bytes. -/
def Dx.read (x : Dx) (a n : Nat) : Dx × List Byte := let (c, st, bs) := x.c.read x.acc a n; (x.seen c st, bs)

/-- Read a little-endian number. -/
def Dx.num (x : Dx) (a n : Nat) : Dx × Nat := let (y, bs) := x.read a n; (y, ofLE bs)

/-- The number at an address as the descriptor sees it, its effects taken elsewhere. -/
def Dx.at (x : Dx) (a n : Nat) : Nat := x.c.numAt x.acc.txn a n

/-- Write bytes, staged for a transaction member (R92). -/
def Dx.write (x : Dx) (a : Nat) (bs : List Byte) : Dx := let (c, st) := x.c.write x.acc a bs; { x with c := c }.st st

/-- Write bytes under a cache hint. -/
def Dx.writeHint (x : Dx) (hint uses a : Nat) (bs : List Byte) : Dx :=
  let (c, st) := x.c.write { x.acc with hint := hint, uses := uses } a bs
  { x with c := c }.st st

/-- Flag a NaN or infinity at a row-major index (R135, R136). -/
def Dx.flagNaN (x : Dx) (i : Nat) : Dx :=
  { x with comp := { x.comp with posNan := min x.comp.posNan i, status := max x.comp.status 0x01 } }

/-- Count a dropped entry at a position (R20). -/
def Dx.drop (x : Dx) (i : Nat) : Dx := { x with comp := x.comp.dropAt 1 i }

/-- Count several dropped entries, the lowest at `i`. -/
def Dx.dropMany (x : Dx) (n i : Nat) : Dx := { x with comp := x.comp.dropMany n i }

/-- A fresh free value. -/
def Dx.fresh (x : Dx) : Dx × Nat := let (c, v) := x.c.fresh; ({ x with c := c }, v)

/-- `n` bytes nothing constrains. -/
def Core.freeBytes (c : Core) (n : Nat) : Core × List Byte :=
  ({ c with free := c.free + n }, (upto n).map (fun i => BitVec.ofNat 8 (Config.freeValue (c.free + i))))

/-- Fill a region with bytes nothing constrains (R37). -/
def Dx.scramble (x : Dx) (a n : Nat) : Dx := let (c, bs) := x.c.freeBytes n; { x with c := c }.write a bs

/-! ### Stored elements -/

/-- Bytes of a dense row of `n` elements (R118). -/
def rowBytes (fmt n : Nat) : Nat := if fmt = 7 then 33 * ceilDiv n 32 else n * elemBytes fmt

/-- Element `i` of a dense row at `a` (R113, R118). -/
def Dx.elem (x : Dx) (fmt a i : Nat) : Fp :=
  if fmt = 7 then decodeB8 (x.at (a + 33 * (i / 32)) 1) (x.at (a + 33 * (i / 32) + 1 + i % 32) 1)
  else decodeBits fmt (x.at (a + i * elemBytes fmt) (elemBytes fmt))

/-- A value widened or rounded to FP32 under code 0 (R131, R192). -/
def toFp32 (x : Fp) : Fp := rnd32 x

/-! ### Draws and output rows -/

/-- Where the draws of an output's rounding groups come from: its rounding code, the context of R439, and the table of draws taken from the
drain lanes under code 5. -/
structure Draws where
  code : Nat
  infEn : Bool
  key : Nat := 0
  stream : Nat := 0
  pos : Nat := 0
  tab : SMap Nat := []
  /-- A converted −0 is written as +0, as a drain does (R199, R200). -/
  drainZero : Bool := false
deriving DecidableEq, Repr

/-- How the element with row-major index `i` is rounded (R125, R126, R128). -/
def Draws.rnd (d : Draws) (i : Nat) : Rnd :=
  { code := if d.code = 7 then 0 else d.code, infEn := d.infEn, lane := i % 4,
    draw := if d.code = 4 then roundDraw d.key d.stream d.pos (i / 4) else if d.code = 5 then sget 0 d.tab (i / 4) else 0 }

/-- The key that MIX selects, with the step of STEP_SRC (R447). -/
def Dx.mixKey (x : Dx) (steps : Nat) : Nat :=
  let step := (x.f 28 0 32 + if x.f 24 2 1 = 1 then steps else 0) % 2 ^ 32
  if x.f 24 0 2 = 0 then x.f 40 0 64 else kd (x.f 40 0 64) 0xFFFD step

/-- RNG_ROUND (R448): the strand's rounding context. -/
def rngRound (x : Dx) (steps : Nat) : Dx :=
  { x with key := x.mixKey steps, stream := x.f 26 0 16, pos := x.f 32 0 48 }

/-- Whether an RNG_LANE_SEED of another strand holds the first code-5 draw of the descriptor whose work on `x` would leave `y` (R450): work that draws nothing is
not held. -/
def Dx.held (x y : Dx) : Bool := y.lfsr != x.lfsr && x.f 0 0 8 != 0x83 && x.c.laneSeed.any (fun h => h.1 == x.acc.q && some h.2 != x.acc.strand)

/-- Draws of a part of a descriptor output under a format control byte: `unit` names the drain lanes of a group, the part's rounding groups are those from
`first` to below `total`, and `reached` are the groups of its elements in drain order. -/
def Dx.drawsFrom (x : Dx) (fcb : Nat) (unit : Nat → Nat) (first total : Nat) (reached : List Nat) : Dx × Draws :=
  let d : Draws := { code := field fcb 3 3, infEn := bit fcb 6, key := x.key, stream := x.stream, pos := x.pos }
  if d.code = 5 then
    let (m, tab) := drainDraws x.lfsr x.acc.q unit (drawOrder first total reached)
    ({ x with lfsr := m }, { d with tab := tab })
  else (x, d)

/-- Draws of a whole descriptor output. -/
def Dx.draws (x : Dx) (fcb : Nat) (unit : Nat → Nat) (total : Nat) (reached : List Nat) : Dx × Draws := x.drawsFrom fcb unit 0 total reached

/-- Elements a row takes in the row-major index that forms rounding groups (R126). -/
def padCols (fmt n : Nat) : Nat := if fmt = 7 then 32 * ceilDiv n 32 else n

/-- Rounding groups of an output of `rows` rows. -/
def groupsOf (fmt rows n : Nat) : Nat := ceilDiv (rows * padCols fmt n) 4

/-- A converted element (R122 to R132). -/
def convElem (fmt src : Nat) (r : Rnd) (v : Fp) : Nat := (roundTo fmt r (srcUlpOf src v) v).bits

/-- A converted element with −0 written as +0 (R199, R200). -/
def drainElem (fmt src : Nat) (r : Rnd) (v : Fp) : Nat :=
  let b := convElem fmt src r v
  if (decodeBits fmt b).isZero then 0 else b

/-- The element with row-major index `i` as an output writes it. -/
def Draws.elem (d : Draws) (fmt src i : Nat) (v : Fp) : Nat :=
  if d.drainZero then drainElem fmt src (d.rnd i) v else convElem fmt src (d.rnd i) v

/-- The stored bytes of elements `c0` to `c1 - 1` of a row whose element 0 has row-major index `base`; `src` is the format the values come
from. For B8, the blocks that the last element of each reaches (R118, R134). -/
def outBytes (fmt src : Nat) (d : Draws) (base n c0 c1 : Nat) (v : Nat → Fp) : List Byte :=
  if fmt = 7 then
    ((upto (ceilDiv c1 32 - c0 / 32)).map (fun j =>
      let b := c0 / 32 + j
      if min (32 * b + 32) n ≤ c1 then
        let xs := (upto 32).map (fun i => if 32 * b + i < n then v (32 * b + i) else Fp.zero)
        let (e, ms) := encodeB8 (fun i => d.rnd (base + 32 * b + i)) (fun i => srcUlpOf src (nth Fp.zero xs i)) xs
        leBytes 1 e ++ (ms.map (leBytes 1)).flatten
      else [])).flatten
  else ((upto (c1 - c0)).map (fun i => leBytes (elemBytes fmt) (d.elem fmt src (base + c0 + i) (v (c0 + i))))).flatten

/-- Offset within a dense row where `outBytes` of a run that starts at `c0` lands. -/
def outOff (fmt c0 : Nat) : Nat := if fmt = 7 then 33 * (c0 / 32) else c0 * elemBytes fmt

/-- Write one whole dense row of an output: check, convert, store (R135). -/
def Dx.outRow (x : Dx) (fmt src : Nat) (d : Draws) (row n a hint uses : Nat) (v : Nat → Fp) : Dx :=
  let y := (upto n).foldl (fun y i => if (v i).special then y.flagNaN (row * n + i) else y) x
  y.writeHint hint uses a (outBytes fmt src d (row * padCols fmt n) n 0 n v)

end Sys2Proof.Machine
end

