-- ==== Sys2Proof/Machine/Embed.lean ====
section
/-!
DEFINITION. Embedding and feature tables (R300 to R340): the table directory, ownership and the drift table, lookups and their pooling, gradients
and the update window, the optimisers, load and migration.
-/
namespace Sys2Proof.Machine
open Sys2Proof

/-! ### Tables and rows -/

/-- A table directory record (R301). -/
structure Tbl where
  t : Nat
  rows : Nat
  w : Nat
  fmt : Nat
  rnd : Nat
  opt : Nat
  poolLog : Nat
  dim : Nat
  stride : Nat
  base : Nat
  slots : Nat
  mig : Nat
  map : Nat
  /-- FP32 bits of the optimiser's constants. -/
  p1 : Nat
  p2 : Nat
  eps : Nat
  wd : Nat
  nodes : List Nat
  load : Nat
deriving DecidableEq, Repr

/-- The record of table `t` at an address. DESIGN CHOICE, log entry 45. -/
def tblAt (x : Dx) (a t : Nat) : Tbl :=
  let f (o : Nat) : Nat := x.at (a + o) 4
  let opt := field (x.at (a + 10) 1) 0 3
  { t := t, rows := x.at a 8 % 2 ^ 41, w := max 12 (min 40 (field (x.at (a + 8) 1) 0 6)),
    fmt := if field (x.at (a + 9) 1) 0 3 = 7 then 7 else 3, rnd := field (x.at (a + 9) 1) 3 3, opt := if opt ≥ 6 then 0 else opt,
    poolLog := field (x.at (a + 11) 1) 0 4, dim := max 1 (x.at (a + 12) 2 % 4096), stride := x.at (a + 14) 2, base := x.at (a + 16) 6,
    slots := x.at (a + 24) 8 % 2 ^ 40, mig := x.at (a + 32) 8 % 2 ^ 40, map := x.at (a + 40) 6, p1 := f 48, p2 := f 52, eps := f 56, wd := f 60,
    nodes := (let b := ergByte (x.at (a + 64) 4 % 2 ^ 31); (upto (x.at (a + 68) 4 % 2 ^ 17)).map (fun i => x.at (b + 2 * i) 2)),
    load := x.at (a + 72) 6 }

/-- Record `t` of the directory of the quarter of `x`. -/
def tbl (x : Dx) (t : Nat) : Tbl := tblAt x (x.erg (x.c.fld (Reg.embTblDir x.acc.q) 0 31 / 128 * 128) + 128 * t) t

/-- Record `t` of the adopted directory, D above its addresses (R629). -/
def adoptedTbl (x : Dx) (t : Nat) : Tbl :=
  let r := tblAt x (x.erg (x.c.fld Reg.jobAdoptDir 0 31 / 128 * 128) + 128 * t) t
  { r with base := r.base + x.c.mirrorD, map := r.map + x.c.mirrorD, load := r.load + x.c.mirrorD }

/-- Whether a slot of this device is an adopted slot (R629). -/
def Core.adoptedSlot (c : Core) (slot : Nat) : Bool := c.adopted?.isSome && slot.testBit 35

/-- The table and slot number that a slot of this device names: an adopted slot is described by the adopted directory (R629). -/
def slotOf (x : Dx) (t : Tbl) (slot : Nat) : Tbl × Nat :=
  if x.c.adoptedSlot slot then (adoptedTbl x t.t, slot - 2 ^ 35) else (t, slot)

/-- Whether a slot lies at or beyond LOCAL_ROWS (R309, R629). -/
def beyond (x : Dx) (t : Tbl) (slot : Nat) : Bool := let (u, i) := slotOf x t slot; decide (u.slots ≤ i)

/-- Bytes of a row's values (R302). -/
def Tbl.valBytes (t : Tbl) : Nat := rowBytes t.fmt t.dim

/-- Offset of the optimiser state in a row slot (R302). -/
def Tbl.stateOff (t : Tbl) : Nat := 16 + upTo16 t.valBytes
where upTo16 (n : Nat) : Nat := 16 * ceilDiv n 16

/-- Bytes of the optimiser state (R302). -/
def Tbl.stateBytes (t : Tbl) : Nat :=
  match t.opt with
  | 2 | 3 => 4 * t.dim
  | 4 => 16
  | 5 => 8 * t.dim
  | _ => 0

/-- Bytes of a row. -/
def Tbl.rowLen (t : Tbl) : Nat := t.stateOff + t.stateBytes

/-- Bytes between row slots. -/
def Tbl.pitch (t : Tbl) : Nat := max (32 * t.stride) (32 * ceilDiv t.rowLen 32)

/-- Local address of an own row slot. -/
def Tbl.slotAt (t : Tbl) (i : Nat) : Nat := t.base + t.pitch * i

/-- Local address of a row slot, adopted ones included (R629). -/
def slotAddr (x : Dx) (t : Tbl) (slot : Nat) : Nat := let (u, i) := slotOf x t slot; u.slotAt i

/-! ### Ownership -/

/-- A drift table entry (R307): state 1 PENDING, 2 ACTIVE, 3 FORWARD. -/
structure Drift where
  at_ : Nat
  table : Nat
  r : Nat
  state : Nat
  node : Nat
  oldNode : Nat
  step : Nat
  slot : Nat
  oldSlot : Nat
deriving DecidableEq, Repr

/-- The entry at an address. -/
def driftAt (x : Dx) (a : Nat) : Drift :=
  let w := x.at a 8
  { at_ := a, table := field w 40 8, r := field w 0 40, state := field w 48 2, node := x.at (a + 8) 2, oldNode := x.at (a + 10) 2,
    step := x.at (a + 12) 4, slot := x.at (a + 16) 8 % 2 ^ 40, oldSlot := x.at (a + 24) 8 % 2 ^ 40 }

/-- The bytes of an entry that is removed: its key stays with STATE 0, so that the probes of other keys pass it (R269, R336). DESIGN CHOICE, log entry 113. -/
def goneBytes (t r : Nat) : List Byte := leBytes 8 (r + t * 2 ^ 40 + 2 ^ 63)

/-- The bytes of an entry. -/
def Drift.bytes (d : Drift) : List Byte :=
  leBytes 8 (d.r + d.table * 2 ^ 40 + d.state * 2 ^ 48 + 2 ^ 63) ++ leBytes 2 d.node ++ leBytes 2 d.oldNode ++ leBytes 4 d.step
    ++ leBytes 8 d.slot ++ leBytes 8 d.oldSlot

/-- Base and log size of the device's drift table, from the registers of the quarter of `x`. -/
def driftBase (x : Dx) : Nat × Nat :=
  let h := x.c.reg (Reg.embDriftHi x.acc.q)
  ((x.c.reg (Reg.embDriftLo x.acc.q) + field h 0 16 * 2 ^ 32) / 4096 * 4096, max 4 (min 20 (field h 16 5)))

/-- What the first word of an entry says of a key: nothing is stored here or beyond, the key is here, or the probe goes on (R269). -/
inductive Probed where
  | ends | found | passes
deriving DecidableEq, Repr

/-- The probe rule of R269 at the word of an entry. -/
def probed (w t r : Nat) : Probed :=
  if !w.testBit 63 then .ends else if field w 0 40 = r ∧ field w 40 8 = t then .found else .passes

/-- Probe the drift table for a key (R269, R307): the place found, and whether it holds the key. A key that is not there goes to the first place on its way
whose entry is invalid: removed with STATE 0, or never used; none beyond eight probes. DESIGN CHOICE, log entry 113. -/
def driftProbe (x : Dx) (base lg t r : Nat) : Nat → Nat → Option Nat → Option (Nat × Bool)
  | 0, _, spare => spare.map (fun a => (a, false))
  | n + 1, i, spare =>
    let a := base + 32 * i
    let w := x.at a 8
    match probed w t r with
    | .ends => some (spare.getD a, false)
    | .found => some (a, true)
    | .passes => driftProbe x base lg t r n ((i + 1) % 2 ^ lg) (if spare.isNone && field w 48 2 == 0 then some a else spare)

/-- The entry at which the probes of a key start (R269, R307). -/
def driftStart (lg t r : Nat) : Nat := (t * 2 ^ 40 + r) * 0x9E3779B97F4A7C15 % 2 ^ 64 / 2 ^ (64 - lg)

/-- Where the entry of a row stands, or the free place where it would be written. -/
def driftPlace (x : Dx) (t r : Nat) : Option (Nat × Bool) :=
  let (b, lg) := driftBase x
  driftProbe x b lg t r 8 (driftStart lg t r) none

/-- The reads of a probe: each entry that it passes. -/
def probeReads (base lg t r : Nat) : Nat → Nat → Dx → Dx
  | 0, _, x => x
  | n + 1, i, x =>
    let y := x.touch (base + 32 * i) 32
    match probed (y.at (base + 32 * i) 8) t r with
    | .passes => probeReads base lg t r n ((i + 1) % 2 ^ lg) y
    | _ => y

/-- The effects of a search for a row's drift entry. -/
def touchDrift (x : Dx) (t r : Nat) : Dx := let (b, lg) := driftBase x; probeReads b lg t r 8 (driftStart lg t r) x

/-- The drift entry of a row. -/
def driftFind (x : Dx) (t r : Nat) : Option Drift :=
  match driftPlace x t r with
  | some (a, true) => some (driftAt x a)
  | _ => none

/-- Every entry of the drift table that is in use. -/
def driftAll (x : Dx) : List Drift :=
  let (b, lg) := driftBase x
  ((upto (2 ^ lg)).filter (fun i => (x.at (b + 32 * i) 8).testBit 63)).map (fun i => driftAt x (b + 32 * i))

/-- Home node, owner, slot, and slot at the home node of a row (R308). -/
structure Owner where
  home : Nat
  node : Nat
  slot : Nat
  homeSlot : Nat
deriving DecidableEq, Repr

/-- Resolve a row (R308); none when the index is at or beyond 2^w. A PENDING entry does not change ownership: the row stays with the owner it names as the
old one, which is not the home node when the row has migrated before (R334). DEDUCED, log entry 43. -/
def resolve (x : Dx) (t : Tbl) (r : Nat) : Option Owner :=
  if r ≥ 2 ^ t.w then none
  else
    let e := x.at (t.map + 8 * (r / 4096)) 8
    let home := field e 0 16
    let slot := field e 16 24 * 4096 + r % 4096
    let plain : Owner := { home := home, node := home, slot := slot, homeSlot := slot }
    if e.testBit 40 then
      match driftFind x t.t r with
      | some d =>
        if d.state ≥ 2 then some { plain with node := d.node, slot := d.slot }
        else if d.state = 1 then some { plain with node := d.oldNode, slot := d.oldSlot }
        else some plain
      | none => some plain
    else some plain

/-- The effects of resolving a row: its shard map entry is read, and the drift table searched where DRIFTED is set (R308). -/
def touchMap (x : Dx) (t : Tbl) (r : Nat) : Dx :=
  if r ≥ 2 ^ t.w then x
  else
    let a := t.map + 8 * (r / 4096)
    let y := x.touch a 8
    if (y.at a 8).testBit 40 then touchDrift y t.t r else y

/-! ### Serving -/

/-- The lowest-numbered quarter that may serve table requests (R318). -/
def embQuarter (c : Core) : Option Nat := firstN 4 (fun q => c.fld (Reg.embServe q) 0 1 == 1)

/-- A context of the device itself on a quarter: no strand, no transaction. -/
def Dx.device (x : Dx) (q : Nat) : Dx := { c := x.c, lfsr := x.lfsr, acc := { q := q, src := 0, narrow := true } }

/-- Keep what a device action did to the machine and the messages it sent. -/
def Dx.back (x y : Dx) : Dx := { x with c := y.c, lfsr := y.lfsr }

/-- Change the gather engine's state. -/
def Dx.emb (x : Dx) (f : Emb → Emb) : Dx := { x with c := { x.c with emb := f x.c.emb } }

/-- Count an entry on its shard slot block (R332); a slot beyond LOCAL_ROWS has no counter (R310). -/
def bumpLoad (x : Dx) (t : Tbl) (slot : Nat) : Dx :=
  let (u, i) := slotOf x t slot
  let a := u.load + 4 * (i / 4096)
  let y := if u.slots ≤ i then x else { x with c := (x.c.touch x.acc a 4).1.store x.acc a (leBytes 4 (satAdd 32 (x.at a 4) 1)) }
  y.emb (fun e => { e with load := e.load + 1 })

/-- Space-saving count of a served row (R332): 256 pairs a quarter. An index at or beyond ROWS names no row of the table and is not counted (R310).
DEDUCED, log entry 41. -/
def bumpTracker (x : Dx) (tb : Tbl) (r : Nat) : Dx :=
  x.emb (fun e =>
    let t := tb.t
    let l := nth [] e.trackers x.acc.q
    let l' := if tb.rows ≤ r then l
      else if l.any (fun p => p.1 == t && p.2.1 == r) then l.map (fun p => if p.1 == t && p.2.1 == r then (p.1, p.2.1, p.2.2 + 1) else p)
      else if l.length < 256 then l ++ [(t, r, 1)]
      else
        let m := (l.map (·.2.2)).foldl min (2 ^ 64)
        let i := (l.findIdx? (fun p => p.2.2 == m)).getD 0
        setNth l i (t, r, m + 1)
    { e with trackers := setNth e.trackers x.acc.q l' })

/-- What a touch reads as to a row: the context before it, with the machine after it. -/
def Dx.touchOnly (x : Dx) (a n : Nat) : Dx × Nat := let (c, st) := x.c.touch x.acc a n; ({ x with c := c }, st)

/-- Read a row's values as FP32 bits; the row of an index at or beyond ROWS reads unspecified data (R310). Answers the poison status. DESIGN CHOICE, log entry 40. -/
def readRow (x : Dx) (t : Tbl) (r slot : Nat) : Dx × List Nat × Bool :=
  if t.rows ≤ r then
    ({ x with c := { x.c with free := x.c.free + t.dim } }, (upto t.dim).map (fun j => Config.freeValue (x.c.free + j) % 2 ^ 32), false)
  else
    let a := slotAddr x t slot + 16
    let (y, st) := x.touchOnly a t.valBytes
    (y, (upto t.dim).map (fun j => (roundTo 1 Rnd.nearest 0 (y.elem t.fmt a j)).bits), st != 0)

/-- The partial of a group (R314): −0, then rnd(w × x) in ascending position. -/
def partialOf (dim : Nat) (rows : List (EmbEntry × List Nat)) : List Nat :=
  let rs := sortBy (fun a b => decide (a.1.pos ≤ b.1.pos)) rows
  (upto dim).map (fun j =>
    rs.foldl (fun s e => fp32Add s (fp32Mul e.1.w (nth 0 e.2 j))) (2 ^ 31))

/-- An answer reaches its requester (R315, R319): it joins the running lookup of its strand. -/
def answerIn (x : Dx) (a : EmbAns) (node : Nat) : Dx :=
  match a with
  | .group _ strand g served dropped vals poison =>
    x.emb (fun e => { e with looks := e.looks.map (fun l =>
      if l.strand = strand then { l with answers := l.answers ++ [{ group := g, node := node, served := served, dropped := dropped, vals := vals, poison := poison }] } else l) })
  | _ => x

/-- Send an answer to its requester, or take it in when the requester is this node. -/
def answerTo (x : Dx) (node : Nat) (a : EmbAns) : Dx :=
  if x.c.isMe node then answerIn x a x.c.node else x.send node 12 (.embAnswer a)

/-- Count entries dropped on the serving quarter. -/
def embDropped (x : Dx) (n : Nat) : Dx := if n = 0 then x else x.core (fun c => c.inc (Reg.embDrop x.acc.q) n)

/-- Form and answer the partial of a group, with every row value at hand. -/
def finishGroup (x : Dx) (node strand g dim : Nat) (dropped : List Nat) (rows : List (EmbEntry × List Nat)) (poison : Bool) : Dx :=
  let y := x.core (fun c => c.inc (Reg.embServed x.acc.q) rows.length)
  answerTo y node (.group node strand g rows.length dropped (partialOf dim rows) poison)

/-- Boundaries for which an old owner forwards (R339). -/
def Core.fwdSteps (c : Core) : Nat := max 1 (c.fld (Reg.embBal 0) 16 4)

/-- Whether a forward of a row comes after FWD_STEPS boundaries (R337): at the old owner its entry has become ACTIVE, at any node the boundaries have
passed since COMMIT_STEP. DEDUCED, log entry 43. -/
def lateForward (x : Dx) (t r : Nat) : Bool :=
  match driftFind x t r with
  | some d => decide (2 ≤ d.state) && ((d.state == 2 && d.oldNode == x.c.node) || decide (d.step + 1 + x.c.fwdSteps ≤ x.c.reg Reg.jobStep))
  | none => false

/-- Forward a request to another node, counted (R337). -/
def forwardReq (x : Dx) (t : Tbl) (node : Nat) (rs : List Nat) (b : Body) (wadi : Nat) : Dx :=
  let late := rs.any (lateForward x t.t)
  let y := x.core (fun c => c.inc (Reg.embForwarded x.acc.q) 1)
  let y := if late then y.core (fun c => (c.inc (Reg.embRedirected x.acc.q) 1).raise (qpage x.acc.q 3) 4) else y
  y.send node wadi b

/-- Serve a group on the quarter of `x` (R314, R316, R318, R320, R337). -/
def serveGroup (x : Dx) (node strand g table bag bagFirst tag : Nat) (det : Bool) (entries : List EmbEntry) : Dx :=
  let t := tbl x table
  let x := entries.foldl (fun y e => touchMap y t e.r) x
  let me := x.c.node
  let res := entries.map (fun e => (e, resolve x t e.r))
  let gone := res.filterMap (fun p => if p.2.isNone then some p.1.word else none)
  let at_ (o : Owner) : Nat := if det then o.home else o.node
  let away := res.filterMap (fun p => match p.2 with | some o => if at_ o ≠ me then some (at_ o, p.1) else none | none => none)
  let mine := res.filterMap (fun p => match p.2 with | some o => if at_ o = me then some (p.1, o) else none | none => none)
  -- forwarded parts
  let nodes := (away.map (·.1)).foldl insN []
  let x1 := nodes.foldl (fun y n =>
    let es := (away.filter (fun p => p.1 == n)).map (·.2)
    forwardReq y t n (es.map (·.r)) (.embRequest (.group node strand g table bag bagFirst tag det es)) 12) x
  -- rows beyond this device's slots (R309)
  let bad := mine.filter (fun p => p.2.node == me && decide (p.1.r < t.rows) && beyond x1 t p.2.slot)
  let good := mine.filter (fun p => !(p.2.node == me && decide (p.1.r < t.rows) && beyond x1 t p.2.slot))
  let x2 := embDropped x1 (bad.length + gone.length)
  let cap := max 1 (min 64 (x2.c.fld (Reg.embLlogSize x.acc.q) 0 7)) * 2 ^ 20 / 32
  let held := x2.c.emb.llog.filter (fun l => l.quarter == x.acc.q)
  let lost := gone ++ bad.map (·.1.word)
  if mine.isEmpty ∧ gone.isEmpty then x2
  else if held.length + good.length > cap then
    answerTo ((embDropped x2 good.length).core (fun c => c.raise (qpage x.acc.q 3) 1)) node
      (.group node strand g 0 (lost ++ good.map (·.1.word)) ((upto t.dim).map (fun _ => 2 ^ 31)) false)
  else
    -- lookup log (R318); the layout of a record is not stated
    let x3 := good.foldl (fun y p =>
      let used := (y.c.emb.llog.filter (fun l => l.quarter == x.acc.q)).map (·.place)
      let place := (firstN cap (fun i => !used.contains i)).getD 0
      let y := y.emb (fun e => { e with llog := e.llog ++ [{ quarter := x.acc.q, place := place, node := node, bag := bag, bagFirst := bagFirst, pos := p.1.pos, table := table, tag := tag, r := p.1.r, w := p.1.w, det := det, alt := y.c.adoptedSlot (if det then p.2.homeSlot else p.2.slot) }] })
      let (c, bs) := y.c.freeBytes 32
      { y with c := c.store y.acc (y.erg (y.c.fld (Reg.embLlogBase x.acc.q) 0 31) + 32 * place) bs }) x2
    -- rows
    let here := good.filter (fun p => p.2.node == me)
    let there := good.filter (fun p => p.2.node != me)
    let (x4, rows, poison) := here.foldl (fun (q : Dx × List (EmbEntry × List Nat) × Bool) p =>
      let (y, vs, bad) := readRow q.1 t p.1.r p.2.slot
      (bumpTracker (bumpLoad y t p.2.slot) t p.1.r, q.2.1 ++ [(p.1, vs)], q.2.2 || bad)) (x3, [], false)
    if there.isEmpty then finishGroup x4 node strand g t.dim lost rows poison
    else
      let id := x4.c.emb.nextServe
      let run : ServeRun := { id := id, req := .group node strand g table bag bagFirst tag det entries,
                              rows := rows.foldl (fun m p => sput m p.1.pos (some p.2, poison)) [] }
      let x5 := x4.emb (fun e => { e with nextServe := id + 1, serves := e.serves ++ [run] })
      there.foldl (fun y p => y.send p.2.node 12 (.embRequest (.row me id table p.1.r))) x5

/-- Serve the read of one row for a home node (R316): its owner's value, or forwarded to the owner. -/
def serveRow (x : Dx) (node serve table r : Nat) : Dx :=
  let t := tbl x table
  let x := touchMap x t r
  match resolve x t r with
  | none => x.send node 12 (.embAnswer (.row serve r none false))
  | some o =>
    if o.node ≠ x.c.node then forwardReq x t o.node [r] (.embRequest (.row node serve table r)) 12
    else if r < t.rows ∧ beyond x t o.slot then (embDropped x 1).send node 12 (.embAnswer (.row serve r none false))
    else
      let (y, vs, bad) := readRow x t r o.slot
      (bumpTracker (bumpLoad y t o.slot) t r).send node 12 (.embAnswer (.row serve r (some vs) bad))

/-- EMB_LOOKUP_REQUEST (R314 to R320): served on the lowest-numbered enabled quarter, or answered as dropped and counted on Q0. The serving of a
requester's own groups is the node's, outside the transaction of a member: it reads published values. DESIGN CHOICE, log entry 114. -/
def embServeReq (x : Dx) (r : EmbReq) : Dx :=
  match embQuarter x.c with
  | none => x.back (match r with
    | .group node strand g _ _ _ _ _ es =>
      answerTo (embDropped (x.device 0) es.length) node (.group node strand g 0 (es.map (·.word)) [] false)
    | .row node serve _ row => answerTo (embDropped (x.device 0) 1) node (.row serve row none false))
  | some q =>
    let y := x.device q
    x.back (match r with
      | .group node strand g table bag bagFirst tag det es => serveGroup y node strand g table bag bagFirst tag det es
      | .row node serve table row => serveRow y node serve table row)

/-- A row's values arrive for a group this node pools (R316); the last one completes the partial. -/
def rowIn (x : Dx) (serve r : Nat) (vals : Option (List Nat)) (poison : Bool) : Dx :=
  match x.c.emb.serves.find? (fun s => s.id == serve), embQuarter x.c with
  | some s, some q =>
    match s.req with
    | .group node strand g table _ _ _ _ es =>
      let rows := es.foldl (fun m e => if e.r = r ∧ (sfind m e.pos).isNone then sput m e.pos (vals, poison) else m) s.rows
      let t := tbl (x.device q) table
      let known := es.filter (fun e => match resolve (x.device q) t e.r with | some o => o.home == x.c.node | none => false)
      if known.all (fun e => (sfind rows e.pos).isSome || decide (e.r < t.rows ∧ (match resolve (x.device q) t e.r with
          | some o => o.node == x.c.node && beyond x t o.slot | none => false) = true)) then
        let got := known.filterMap (fun e => match sfind rows e.pos with | some (some vs, _) => some (e, vs) | _ => none)
        let lost := (es.filter (fun e => !known.any (fun k => k.pos == e.pos) && (resolve (x.device q) t e.r).isNone)) ++
          known.filter (fun e => match sfind rows e.pos with | some (some _, _) => false | _ => true)
        let y := (x.device q).emb (fun m => { m with serves := m.serves.filter (fun z => z.id != serve) })
        x.back (finishGroup y node strand g t.dim (lost.map (·.word)) got (rows.any (fun p => p.2.2)))
      else x.emb (fun m => { m with serves := m.serves.map (fun z => if z.id = serve then { z with rows := rows } else z) })
    | _ => x
  | _, _ => x

/-! ### EMB_LOOKUP (R311 to R320) -/

/-- The bags of a lookup: entries by bag, and the words dropped before any request is sent. -/
def lookBags (x : Dx) : Dx × List (List EmbEntry) × List Nat :=
  let n := x.f 28 0 24
  if x.f 25 0 2 = 1 then
    let log := x.erg (x.f 32 0 31)
    let first := x.f 36 0 24
    let y := x.touch (log + 708) 4
    let vm := log + y.at (log + 708) 4
    let y := y.touch (vm + 8 * first) (8 * n)
    (y, (upto n).map (fun j => [{ word := j, pos := 0, r := y.at (vm + 8 * (first + j)) 8 % 2 ^ 40, w := 0x3F800000 }]), [])
  else
    let bp := x.erg (x.f 32 0 31)
    let ib := x.erg (x.f 36 0 31)
    let wb := x.erg (x.f 40 0 31)
    let y := x.touch bp (4 * (n + 1))
    let ptr (b : Nat) : Nat := y.at (bp + 4 * b) 4
    let weighted := y.f 25 2 1 = 1
    let y := (upto n).foldl (fun z b =>
      let k := ptr (b + 1) - ptr b
      let z := z.touch (ib + 8 * ptr b) (8 * k)
      if weighted then z.touch (wb + 4 * ptr b) (4 * k) else z) y
    let all := (upto n).map (fun b => (upto (ptr (b + 1) - ptr b)).map (fun i =>
      let e := ptr b + i
      { word := e, pos := i, r := y.at (ib + 8 * e) 8 % 2 ^ 40, w := if weighted then y.at (wb + 4 * e) 4 else 0x3F800000 : EmbEntry }))
    (y, all.map (fun b => b.filter (fun e => decide (e.pos < 65536))),
      ((all.flatten).filter (fun e => decide (65536 ≤ e.pos))).map (·.word))

/-- The groups of the bags in the order of R315 and R319, and the words R308 drops. -/
def lookGroups (x : Dx) (t : Tbl) (det : Bool) (bags : List (List EmbEntry)) : List EmbGroup × List Nat :=
  let per := bags.mapIdx (fun b es =>
    let rs := es.filterMap (fun e => match resolve x t e.r with
      | some o => some (if det then (e.r / 2 ^ (12 + t.poolLog), o.home) else (0, o.node), e)
      | none => none)
    let keys := (rs.map (fun p => p.1.1 * 2 ^ 16 + p.1.2)).foldl insN []
    keys.map (fun k => { bag := b, pool := k / 2 ^ 16, node := k % 2 ^ 16, entries := (rs.filter (fun p => p.1.1 * 2 ^ 16 + p.1.2 == k)).map (·.2) : EmbGroup }))
  (per.flatten, (bags.flatten.filter (fun e => (resolve x t e.r).isNone)).map (·.word))

/-- Whether every entry of every group has been answered. -/
def LookRun.complete (l : LookRun) : Bool :=
  (l.groups.mapIdx (fun i g => (i, g))).all (fun ig =>
    ((l.answers.filter (fun a => a.group == ig.1)).map (fun a => a.served + a.dropped.length)).foldl (· + ·) 0 ≥ ig.2.entries.length)

/-- A pooled element as the output stores it: FP32 bits as they are, any other format converted, −0 as +0 (R131, R199, R315). -/
def pooledElem (fmt : Nat) (d : Draws) (i raw : Nat) : Nat := if fmt = 1 then raw else d.elem fmt 1 i (decodeBits 1 raw)

/-- Write pooled rows in the WS stationary layout with q = c = 512 (R157, R311): row j is reduction index j. B8 blocks run along the rows, and so do their
rounding groups. DEDUCED, log entry 109. -/
def writeStationary (x : Dx) (fmt rows n out : Nat) (d : Draws) (bits : Nat → Nat → Nat) : Dx :=
  let p := if elemBytes fmt = 1 ∨ fmt = 7 then 2 else 1
  let kt := ceilDiv rows (512 * p)
  let lines := ceilDiv n 512 * kt * 512
  let sz := if fmt = 7 then 1 else elemBytes fmt
  let cell (l s e : Nat) : Nat × Nat := ((l / 512 % kt) * 512 * p + p * (l % 512) + e, l / (kt * 512) * 512 + s)
  if fmt = 7 then
    let blk (col b : Nat) : Nat × List Nat :=
      let xs := (upto 32).map (fun i => if 32 * b + i < rows ∧ col < n then decodeBits 1 (bits (32 * b + i) col) else Fp.zero)
      encodeB8 (fun i => d.rnd (col * (32 * ceilDiv rows 32) + 32 * b + i)) (fun i => srcUlpOf 1 (nth Fp.zero xs i)) xs
    let y := (upto lines).foldl (fun y l => y.write (out + l * 512 * p) (((upto 512).map (fun s => (upto p).map (fun e =>
      let kn := cell l s e; (BitVec.ofNat 8 (nth 0 (blk kn.2 (kn.1 / 32)).2 (kn.1 % 32)) : Byte)))).flatten)) x
    let plane := out + ceilDiv (lines * 512 * p) 128 * 128
    (upto lines).foldl (fun y l => y.write (plane + l * 512) ((upto 512).map (fun s =>
      let kn := cell l s 0; BitVec.ofNat 8 (blk kn.2 (kn.1 / 32)).1))) y
  else
    (upto lines).foldl (fun y l => y.write (out + l * 512 * p * sz) (((upto 512).map (fun s => ((upto p).map (fun e =>
      let kn := cell l s e
      if kn.1 < rows ∧ kn.2 < n then leBytes sz (pooledElem fmt d (kn.1 * n + kn.2) (bits kn.1 kn.2)) else leBytes sz 0)).flatten)).flatten)) x

/-- A pooled row as FP32 bits (R315): −0 plus the partials of its bag in order, a sum of −0 replaced by +0. -/
def pooledRow (dim : Nat) (sums : List (EmbGroup × LookAns)) (b : Nat) : List Nat :=
  let ps := sums.filter (fun p => p.1.bag == b)
  (upto dim).map (fun j =>
    let s := ps.foldl (fun s p => fp32Add s (nth 0 p.2.vals j)) (2 ^ 31)
    if s = 2 ^ 31 then 0 else s)

/-- Complete a lookup whose groups have all been answered: drops, pooled rows, requester log (R315, R319, R320). -/
def lookFinish (x : Dx) (l : LookRun) : Dx :=
  let t := tbl x (x.f 24 0 8)
  let n := x.f 28 0 24
  let fcb := x.f 26 0 8
  let fmt := field fcb 0 3
  let out := x.f 48 0 48
  let dim := t.dim
  let x0 := if l.answers.any (·.poison) then { x.st 0x31 with acc := { x.acc with poison := true } } else x
  let x1 := (l.answers.map (·.dropped)).flatten.foldl (fun y w => y.drop w) x0
  -- answers in the order of R315: bag, then pool group, then the node that served
  let order := sortBy (fun a b => decide (a.1.bag < b.1.bag ∨ (a.1.bag = b.1.bag ∧ (a.1.pool < b.1.pool ∨ (a.1.pool = b.1.pool ∧ a.2.node ≤ b.2.node)))))
    (l.answers.filterMap (fun a => (l.groups[a.group]?).map (fun g => (g, a))))
  let sums := order.filter (fun p => decide (p.2.served ≠ 0))
  let rows := (upto n).map (pooledRow dim sums)
  let bits (b j : Nat) : Nat := nth 0 (nth [] rows b) j
  let v (b j : Nat) : Fp := decodeBits 1 (bits b j)
  let stationary := x.f 25 3 1 = 1
  let (x2, d0) := if stationary ∧ fmt = 7 then x1.draws fcb (fun _ => 130) (groupsOf 7 dim n) (upto (groupsOf 7 dim n))
    else x1.draws fcb (fun _ => 130) (groupsOf fmt n dim) ((upto (n * dim)).map (fun i => (i / dim * padCols fmt dim + i % dim) / 4))
  let d := { d0 with drainZero := true }
  let x3 := (upto n).foldl (fun y b => (upto dim).foldl (fun y j => if (v b j).special then y.flagNaN (b * dim + j) else y) y) x2
  let pitch := if x.f 56 0 32 = 0 then 32 * ceilDiv (rowBytes fmt dim) 32 else x.f 56 0 32
  let x4 := if stationary then writeStationary x3 fmt n dim out d bits
    else (upto n).foldl (fun y b => y.write (out + b * pitch)
      (if fmt = 1 then ((upto dim).map (fun j => leBytes 4 (bits b j))).flatten else outBytes fmt 1 d (b * padCols fmt dim) dim 0 dim (v b))) x3
  let rl := x.erg (x.f 44 0 31)
  let x5 := (order.mapIdx (fun i p => (i, p))).foldl (fun y ip =>
    y.write (rl + 16 * ip.1) (leBytes 4 ip.2.1.bag ++ leBytes 2 ip.2.2.node ++ leBytes 2 (ip.2.2.served + ip.2.2.dropped.length) ++ leBytes 8 0)) x4
  x5.emb (fun e => { e with rlogs := sput e.rlogs rl (order.length, x.f 60 0 32), looks := e.looks.filter (fun r => r.strand != l.strand) })

/-- Finish a lookup that is complete; one whose first code-5 draw an RNG_LANE_SEED holds waits for it (R450). -/
def lookSettle (x : Dx) (l : LookRun) : Dx × Bool :=
  if l.complete then
    let y := lookFinish x l
    if x.held y then (x, false) else (y, true)
  else (x, false)

/-- EMB_LOOKUP: dispatch every group. `det` is the header flag DET. Answers whether it is done. -/
def embLookup (x0 : Dx) (strand : Nat) (det : Bool) : Dx × Bool :=
  let x1 := { x0 with acc := { x0.acc with narrow := true } }
  let t := tbl x1 (x1.f 24 0 8)
  let (x2, bags, far) := lookBags x1
  let x3 := bags.flatten.foldl (fun y e => touchMap y t e.r) x2
  let (gs, bad) := lookGroups x3 t det bags
  let x4 := (far ++ bad).foldl (fun y w => y.drop w) x3
  let x5 := x4.emb (fun e => { e with looks := e.looks ++ [{ strand := strand, groups := gs }] })
  let x6 := (gs.mapIdx (fun i g => (i, g))).foldl (fun y ig =>
    let g := ig.2
    let req : EmbReq := .group y.c.me strand ig.1 t.t g.bag (y.f 60 0 32) (y.f 54 0 16) det g.entries
    if g.node = y.c.node then embServeReq y req else y.send g.node 12 (.embRequest req)) x5
  match x6.c.emb.looks.find? (fun l => l.strand == strand) with
  | some l => lookSettle x6 l
  | none => (x6, true)

/-- EMB_LOOKUP_ANSWER for a group, in the context of its strand. Answers whether the lookup is done. -/
def lookupAnswer (x : Dx) (strand src : Nat) (a : EmbAns) : Dx × Bool :=
  let y := answerIn x a src
  match y.c.emb.looks.find? (fun l => l.strand == strand) with
  | some l => lookSettle y l
  | none => (y, false)

/-! ### Gradients and the update window (R322 to R331) -/

/-- The window of a table and tag, of this node or of the adopted one (R630); absent windows are open with nothing received. DEDUCED, log entry 42. -/
def Emb.window (e : Emb) (table tag : Nat) (alt : Bool) : Window :=
  (e.windows.find? (fun w => w.table == table && w.tag == tag && w.alt == alt)).getD { table := table, tag := tag, alt := alt }

/-- Replace a window. -/
def Emb.setWindow (e : Emb) (w : Window) : Emb :=
  { e with windows := (e.windows.filter (fun v => !(v.table == w.table && v.tag == w.tag && v.alt == w.alt))) ++ [w] }

/-- Order of sort keys (R324). -/
def keyLe : List Nat → List Nat → Bool
  | a :: as, b :: bs => if a = b then keyLe as bs else decide (a < b)
  | [], _ => true
  | _, [] => false

/-- Bytes a contribution takes in the coalescing buffer. DEDUCED, log entry 41. -/
def contribSize (k : Contrib) : Nat := 4 * k.vals.length + 32

/-- Bytes of a list of contributions. -/
def contribBytes (ks : List Contrib) : Nat := ks.foldl (fun n k => n + contribSize k) 0

/-- Every contribution that is gathered here: in the buffer and in the runs that spilled (R326). -/
def Emb.contribs (e : Emb) : List Contrib := (e.runs.map (fun r => r.ks)).flatten ++ e.coal

/-- Keep of the contributions and of the spilled runs what `p` accepts. -/
def Emb.keepContribs (e : Emb) (p : Contrib → Bool) : Emb :=
  { e with coal := e.coal.filter p,
           runs := (e.runs.map (fun r => { r with ks := r.ks.filter p })).filter (fun r => !r.ks.isEmpty) }

/-- The lowest place in a spill area of `size` bytes where a run of `n` bytes fits. DESIGN CHOICE, log entry 40. -/
def Emb.spillPlace (e : Emb) (size n : Nat) : Option Nat :=
  let fits (o : Nat) : Bool := decide (o + n ≤ size) && e.runs.all (fun r => decide (o + n ≤ r.off) || decide (r.off + r.len ≤ o))
  match (0 :: e.runs.map (fun r => r.off + r.len)).filter fits with
  | [] => none
  | o :: os => some (os.foldl min o)

/-- Whether the row of a contribution is an adopted one, so that it belongs to the adopted node's window (R630). -/
def Dx.contribAlt (x : Dx) (k : Contrib) : Bool :=
  match resolve x (tbl x k.table) k.r with
  | some o => x.c.adoptedSlot o.slot
  | none => false

/-- The full coalescing buffer spills as one sorted run (R326): counted, and SPILL raised on the first spill of a window that has contributions in it
(R340). None where the spill area has no room (R339). DESIGN CHOICE, log entry 40. -/
def spillBuffer (x : Dx) : Option Dx :=
  let ks := x.c.emb.coal
  let n := contribBytes ks
  let hi := x.c.reg (Reg.embSpillHi x.acc.q)
  match x.c.emb.spillPlace (field hi 16 16 * 2 ^ 20) n with
  | none => none
  | some off =>
    let base := (x.c.reg (Reg.embSpillLo x.acc.q) + field hi 0 16 * 2 ^ 32) / 4096 * 4096
    let (c, bs) := x.c.freeBytes n
    let y := { x with c := (c.store x.acc (base + off) bs).inc (Reg.embSpills x.acc.q) 1 }
    let ws := (ks.map (fun k => (k.table, k.tag, x.contribAlt k))).eraseDups.map (fun w => x.c.emb.window w.1 w.2.1 w.2.2)
    let y := if ws.all (fun w => w.spilled) then y else y.core (fun c => c.raise (qpage x.acc.q 3) 2)
    some (y.emb (fun e => ws.foldl (fun e w => e.setWindow { w with spilled := true })
      { e with coal := [], runs := e.runs ++ [{ off := off, len := n, ks := sortBy (fun a b => keyLe a.key b.key) ks }] }))

/-- The acknowledgement of a contribution goes back along its path (R325): each node on it drops its own name. -/
def ackContrib (x : Dx) (table tag : Nat) (path : List Nat) : Dx :=
  match path with
  | [] => x
  | n :: rest =>
    if x.c.isMe n && rest.isEmpty then
      x.emb (fun e => let w := e.window table tag (n != x.c.node); e.setWindow { w with unacked := w.unacked - 1 })
    else x.send n 13 (.contribAck table tag path)

/-- Take a contribution to an own row into the coalescing buffer (R326): a full buffer spills first; one that cannot spill holds the arrival and those
after it, unacknowledged (R339). -/
def gather (x : Dx) (t : Tbl) (slot : Nat) (k : Contrib) : Dx :=
  let cap := max 1 (min 64 (x.c.fld (Reg.embCoal x.acc.q) 0 7)) * 2 ^ 20
  let take (y : Dx) : Dx := ackContrib ((bumpLoad y t slot).emb (fun e => { e with coal := e.coal ++ [{ k with path := [] }] })) k.table k.tag k.path
  let hold := x.emb (fun e => { e with heldIn := e.heldIn ++ [k] })
  if !x.c.emb.heldIn.isEmpty then hold
  else if contribBytes x.c.emb.coal + contribSize k ≤ cap then take x
  else match spillBuffer x with
    | some y => take y
    | none => hold

/-- A contribution arrives (R326, R337): gathered by the row's owner, else forwarded to it. -/
def contribIn (x : Dx) (k : Contrib) : Dx :=
  let t := tbl x k.table
  let x := touchMap x t k.r
  match resolve x t k.r with
  | none => ackContrib x k.table k.tag k.path
  | some o =>
    if o.node ≠ x.c.node then forwardReq x t o.node [k.r] (.contrib { k with path := x.c.node :: k.path }) 13
    else gather x t o.slot k

/-- Held contributions enter in the order of their arrival as far as there is room (R339). -/
def releaseHeld (x : Dx) : Dx := x.c.emb.heldIn.foldl contribIn (x.emb (fun e => { e with heldIn := [] }))

/-- Expand a bag gradient at a pooling node (R324): one contribution for each matching lookup-log record not yet expanded, sent for the window of the node
that the row was served for (R630). -/
def expandGrad (x : Dx) (g : BagGrad) : Dx :=
  let hit (l : LRec) : Bool := l.table == g.table && l.tag == g.tag && l.node == g.node && l.bag == g.bag && l.bagFirst == g.bagFirst && !l.expanded
  let rs := x.c.emb.llog.filter hit
  let y := x.emb (fun e => { e with llog := e.llog.map (fun l => if hit l then { l with expanded := true } else l) })
  let t := tbl y g.table
  rs.foldl (fun y l =>
    let c := g.vals.map (fun v => fp32Mul l.w v)
    let b := (g.bagFirst + l.bag) % 2 ^ 32
    let me := if l.alt then y.c.adopted?.getD y.c.node else y.c.node
    let k : Contrib := { table := g.table, tag := g.tag, r := l.r, key := if l.det then [0, b, l.pos, l.node] else [l.node, b, l.pos],
                         vals := c, poison := g.poison, path := [me] }
    let y := touchMap y t l.r
    match resolve y t l.r with
    | none => y
    | some o =>
      let y := y.emb (fun e => let w := e.window g.table g.tag l.alt; e.setWindow { w with unacked := w.unacked + 1 })
      if o.node = y.c.node then contribIn y k else y.send o.node 13 (.contrib k)) y

/-- The gradient elements of a bag as FP32 bits (R322, R323): FP32 as they stand, SF16 widened. -/
def gradElem (x : Dx) (fmt a j : Nat) : Nat := if fmt = 1 then x.at (a + 4 * j) 4 else (toFp32Bits (x.elem fmt a j))
where toFp32Bits (v : Fp) : Nat := (roundTo 1 Rnd.nearest 0 v).bits

/-- EMB_GRAD (R322, R323): gradients to the nodes of the requester log. The FLUSH markers wait until every node has accepted them. -/
def embGrad (x0 : Dx) (strand : Nat) : Dx :=
  let x := { x0 with acc := { x0.acc with narrow := true } }
  let t := tbl x (x.f 24 0 8)
  let fmt := if x.f 25 0 3 = 3 then 3 else 1
  let tag := x.f 26 0 16
  let n := x.f 28 0 24
  let gb := x.erg (x.f 32 0 31)
  let pitch := x.f 36 0 32
  let rl := x.erg (x.f 40 0 31)
  let (cnt, first) := sget (0, 0) x.c.emb.rlogs rl
  let x1 := x.touch rl (16 * cnt)
  let x2 := (upto n).foldl (fun y b => y.touch (gb + b * pitch) (t.dim * elemBytes fmt)) x1
  let poison := x2.acc.poison
  let q := (embQuarter x2.c).getD x.acc.q
  let x3 := (upto cnt).foldl (fun y i =>
    let bag := y.at (rl + 16 * i) 4
    let node := y.at (rl + 16 * i + 4) 2
    if bag ≥ n then y
    else
      let g : BagGrad := { node := y.c.me, table := t.t, bag := bag, bagFirst := first, tag := tag, poison := poison,
                           vals := (upto t.dim).map (gradElem y fmt (gb + bag * pitch)) }
      if node = y.c.node then y.back (expandGrad (y.device q) g) else y.send node 13 (.bagGrad g)) x2
  x3.emb (fun e => { e with gradWait := e.gradWait ++ [(strand, false)] })

/-- The FLUSH markers of an EMB_GRAD to every node of the owner set (R323). -/
def gradFlush (x : Dx) (strand : Nat) : Dx :=
  let t := tbl x (x.f 24 0 8)
  let tag := x.f 26 0 16
  let y := t.nodes.foldl (fun y m =>
    if y.c.isMe m then y.emb (fun e => let w := e.window t.t tag (m != y.c.node); e.setWindow { w with flushes := insN w.flushes y.c.me })
    else y.send m 13 (.embFlush t.t tag)) x
  y.emb (fun e => { e with gradWait := e.gradWait.map (fun g => if g.1 = strand then (strand, true) else g) })

/-- Whether a bag gradient of a strand is still on its way out of this device: the neighbour has not acknowledged all its flits. DEDUCED, log entry 42. -/
def Core.gradsOut (c : Core) (strand : Nat) : Bool :=
  let grad (m : Msg) : Bool := m.strand == some strand && (match m.body with | .bagGrad _ => true | _ => false)
  c.out.any grad || c.seif.ports.any (fun p => p.entries.any (fun e => grad e.msg))

/-- Whether stage 1 of a window may close: FLUSH markers from SENDERS nodes, nothing unacknowledged (R325). -/
def stage1Ready (e : Emb) (table tag senders : Nat) (alt : Bool) : Bool :=
  let w := e.window table tag alt
  !w.stage1 && decide (senders ≤ w.flushes.length) && w.unacked == 0

/-- UPDATE_WINDOW_STAGE_1: FORWARD_FLUSH to every node of the owner set (R325), with SRC the adopted node for its window (R630). DEDUCED, log entry 42. -/
def closeStage1 (x : Dx) (table tag : Nat) : Dx :=
  let t := tbl x table
  let y := x.emb (fun e => e.setWindow { e.window table tag x.c.actAs.isSome with stage1 := true })
  t.nodes.foldl (fun y m =>
    if y.c.isMe m then y.emb (fun e => let w := e.window table tag (m != y.c.node); e.setWindow { w with forwards := insN w.forwards y.c.me })
    else y.send m 13 (.forwardFlush table tag)) y

/-- Whether stage 2 of a window may close (R325). -/
def stage2Ready (x : Dx) (table tag : Nat) : Bool :=
  let w := x.c.emb.window table tag x.c.actAs.isSome
  !w.stage2 && (tbl x table).nodes.all (fun m => w.forwards.contains m)

/-- One optimiser step of one element, on FP32 bits (R329): old value, state words, gradient; new value and state. `row` is the row-wise sum of
OPT 4. -/
def optStep (t : Tbl) (lr bc1 bc2 row th g m v : Nat) : Nat × Nat × Nat :=
  let one := 0x3F800000
  match t.opt with
  | 1 => (fp32Sub th (fp32Mul lr (fp32Add g (fp32Mul t.wd th))), m, v)
  | 2 => let m' := fp32Add (fp32Mul t.p1 m) (fp32Add g (fp32Mul t.wd th)); (fp32Sub th (fp32Mul lr m'), m', v)
  | 3 => let s := fp32Add m (fp32Mul g g); (fp32Sub th (fp32Mul lr (fp32Div g (fp32Add (fp32Sqrt s) t.eps))), s, v)
  | 4 => (fp32Sub th (fp32Mul lr (fp32Div g (fp32Add (fp32Sqrt row) t.eps))), row, v)
  | 5 =>
    let m' := fp32Add (fp32Mul t.p1 m) (fp32Mul (fp32Sub one t.p1) g)
    let v' := fp32Add (fp32Mul t.p2 v) (fp32Mul (fp32Mul (fp32Sub one t.p2) g) g)
    (fp32Sub th (fp32Mul lr (fp32Add (fp32Div (fp32Mul m' bc1) (fp32Add (fp32Sqrt (fp32Mul v' bc2)) t.eps)) (fp32Mul t.wd th))), m', v')
  | _ => (th, m, v)

/-- The coalesced gradient of a row (R326). -/
def coalesce (dim : Nat) (ks : List Contrib) : List Nat :=
  let ks := sortBy (fun a b => keyLe a.key b.key) ks
  (upto dim).map (fun j => ks.foldl (fun s k => fp32Add s (nth 0 k.vals j)) (2 ^ 31))

/-- Four bytes of FP32 bits. -/
def bits32 (x : Nat) : List Byte := leBytes 4 x

/-- Send a copy of a row to the target of its pending migration (R334). -/
def sendCopy (x : Dx) (t : Tbl) (m : MigOut) (slot : Nat) : Dx :=
  let a := slotAddr x t slot
  let (z, st) := x.touchOnly a t.rowLen
  let y := z.send m.node 13 (.migCopy { node := x.c.node, table := t.t, r := m.r, oldSlot := slot, bytes := z.c.bytesAt x.acc.txn a t.rowLen, poison := st != 0 })
  y.emb (fun e => { e with migOut := e.migOut.map (fun k => if k.table = t.t ∧ k.r = m.r then { k with unacked := k.unacked + 1 } else k) })

/-- The read-modify-write of one row (R328 to R330). -/
def updateRow (x : Dx) (t : Tbl) (slot : Nat) (r : Nat) (ks : List Contrib) : Dx :=
  let lr := x.f 32 0 32
  let bc1 := x.f 36 0 32
  let bc2 := x.f 40 0 32
  let step := x.f 44 0 32
  let a := slotAddr x t slot
  let g := coalesce t.dim ks
  let y := x.touch a t.rowLen
  let st := a + t.stateOff
  let wd (o : Nat) : Nat := y.at (st + o) 4
  let row := if t.opt = 4 then
      fp32Add (wd 0) (fp32Div (g.foldl (fun s v => fp32Add s (fp32Mul v v)) (2 ^ 31)) (roundTo 1 Rnd.nearest 0 (Fp.ofInt (t.dim : Nat))).bits) else 0
  let new := (upto t.dim).map (fun j => optStep t lr bc1 bc2 row (roundTo 1 Rnd.nearest 0 (y.elem t.fmt (a + 16) j)).bits (nth 0 g j)
    (if t.opt = 4 then wd 0 else wd (4 * j)) (if t.opt = 5 then wd (4 * (t.dim + j)) else 0))
  let key := kd (x.f 56 0 64) 0xFFFC (t.t * 2 ^ 32 + step)
  -- code 5 takes its draws from the gather engine's drain lanes in row order
  let groups := groupsOf t.fmt 1 t.dim
  let (m5, tab) := if t.rnd = 5 then drainDraws y.lfsr y.acc.q (fun _ => 130) (upto groups) else (y.lfsr, [])
  let y := { y with lfsr := m5 }
  let d (i : Nat) : Rnd := { code := if t.rnd = 7 then 0 else t.rnd, lane := i % 4, draw := if t.rnd = 4 then pk key (r * 2 ^ 10 + i / 4) else if t.rnd = 5 then sget 0 tab (i / 4) else 0 }
  let vals : List Fp := new.map (fun s => decodeBits 1 s.1)
  let bytes := if t.fmt = 7 then ((upto (ceilDiv t.dim 32)).map (fun b =>
      let xs := (upto 32).map (fun i => nth Fp.zero vals (32 * b + i))
      let (e, ms) := encodeB8 (fun i => d (32 * b + i)) (fun i => srcUlpOf 1 (nth Fp.zero xs i)) xs
      leBytes 1 e ++ (ms.map (leBytes 1)).flatten)).flatten
    else (vals.mapIdx (fun i v => leBytes 2 (roundTo 3 (d i) (srcUlpOf 1 v) v).bits)).flatten
  let pad := leBytes (t.stateOff - 16 - t.valBytes) 0
  let state := match t.opt with
    | 2 | 3 => (new.map (fun s => bits32 s.2.1)).flatten
    | 4 => bits32 row ++ leBytes 12 0
    | 5 => (new.map (fun s => bits32 s.2.1)).flatten ++ (new.map (fun s => bits32 s.2.2)).flatten
    | _ => []
  let mig := y.c.emb.migOut.find? (fun m => m.table == t.t && m.r == r)
  let flags := y.at (a + 2) 1 ||| (if mig.isSome then 1 else 0)
  let head := leBytes 2 (y.at a 2) ++ leBytes 1 flags ++ leBytes 1 0 ++ leBytes 4 step ++ leBytes 4 (satAdd 32 (y.at (a + 8) 4) ks.length) ++ leBytes 4 0
  let p := y.acc.poison
  let y := { y with acc := { y.acc with poison := p || ks.any (·.poison) } }
  let y := y.write a head
  let y := y.write (a + 16) bytes
  let y := if state.isEmpty then y else (y.write (a + 16 + t.valBytes) pad).write st state
  let y := { y with acc := { y.acc with poison := p } }
  match mig with
  | some m => sendCopy y t m slot
  | none => y

/-- EMB_UPDATE once stage 2 of its window has closed (R328, R331): the rows of its own window, or of the adopted node's (R630). -/
def embUpdate (x0 : Dx) : Dx :=
  let x := { x0 with acc := { x0.acc with narrow := true } }
  let t := tbl x (x.f 24 0 8)
  let tag := x.f 26 0 16
  let alt := x.c.actAs.isSome
  let ours (k : Contrib) : Bool := k.table == t.t && k.tag == tag && x.contribAlt k == alt
  let mine := x.c.emb.contribs.filter ours
  let rs := (mine.map (·.r)).foldl insN []
  let slotNo (r : Nat) : Nat := match resolve x t r with | some o => o.slot | none => 0
  let order := sortBy (fun a b => decide (slotNo a ≤ slotNo b)) rs
  let good := order.filter (fun r => !(decide (r < t.rows) && beyond x t (slotNo r)))
  let bad := order.filter (fun r => decide (r < t.rows) && beyond x t (slotNo r))
  let of (r : Nat) : List Contrib := mine.filter (fun k => k.r == r)
  let y := if t.opt = 0 then
      let cap := x.f 52 0 24
      let ub := x.erg (x.f 48 0 31)
      let pitch := 128 * ceilDiv (16 + 4 * t.dim) 128
      (good.mapIdx (fun i r => (i, r))).foldl (fun y ir =>
        if ir.1 < cap then
          y.write (ub + pitch * ir.1) (leBytes 8 ir.2 ++ leBytes 8 (slotNo ir.2) ++ ((coalesce t.dim (of ir.2)).map bits32).flatten)
        else embDropped (y.drop ir.2) 1) x
    else good.foldl (fun y r =>
      if t.rows ≤ r then
        -- misuse of R310: an unspecified row within the allocation window
        let (y, v) := y.fresh
        if t.slots = 0 then y else y.scramble (t.slotAt (v % t.slots)) t.rowLen
      else updateRow y t (slotNo r) r (of r)) x
  let y := embDropped y bad.length
  y.emb (fun e => { e.keepContribs (fun k => !ours k) with
                             llog := e.llog.filter (fun l => !(l.table == t.t && l.tag == tag && l.alt == alt)),
                             windows := e.windows.filter (fun w => !(w.table == t.t && w.tag == tag && w.alt == alt)) })

/-! ### Load and migration (R332 to R338) -/

/-- The owner set of the lowest-numbered table that has one. DESIGN CHOICE, log entry 111. -/
def ownerSet (x : Dx) : List Nat :=
  match firstN 256 (fun t => !(tbl x t).nodes.isEmpty) with
  | some t => (tbl x t).nodes
  | none => []

/-- The parent of a rank in the tree of the reduction: its lowest set bit cleared. DESIGN CHOICE, log entry 111. -/
def treeParent (r : Nat) : Nat := r &&& (r - 1)

/-- Whether a rank has children in that tree over `n` ranks: the lowest is the next rank, of an even one. -/
def treeInner (n r : Nat) : Bool := decide (r % 2 = 0) && decide (r + 1 < n)

/-- What a node reports of itself: its load and the free slots of each table's migration pool (R333). -/
abbrev NodeLoad := Nat × Nat × List (Nat × Nat)

/-- The 64 nodes with the lowest load, in ascending (load, node) (R333). -/
def lowestLoads (low : List NodeLoad) : List NodeLoad :=
  (sortBy (fun a b => decide (a.2.1 < b.2.1 ∨ (a.2.1 = b.2.1 ∧ a.1 ≤ b.1))) low).take 64

/-- This node's place in the owner set. -/
def ownRank (x : Dx) : Option Nat := let set := ownerSet x; firstN set.length (fun i => nth 0 set i == x.c.node)

/-- Slots of a table's migration pool that drift entries of this node hold. -/
def poolUsed (x : Dx) (t : Tbl) : List Nat :=
  (driftAll x).filterMap (fun d =>
    if d.table = t.t ∧ d.node = x.c.node ∧ d.state ≠ 0 then some d.slot
    else if d.table = t.t ∧ d.oldNode = x.c.node ∧ (d.state = 1 ∨ d.state = 3) then some d.oldSlot else none)

/-- The lowest free slot of a table's migration pool. -/
def freePool (x : Dx) (t : Tbl) : Option Nat :=
  let used := poolUsed x t
  (firstN (t.slots - t.mig) (fun i => !used.contains (t.mig + i))).map (· + t.mig)

/-- This node's entry in the reduction. -/
def ownLoad (x : Dx) : NodeLoad :=
  let room (t : Tbl) : Nat := (t.slots - t.mig) - (((poolUsed x t).filter (fun s => decide (t.mig ≤ s ∧ s < t.slots))).foldl insN []).length
  (x.c.node, x.c.emb.winLoad, (upto 256).filterMap (fun i => let t := tbl x i; if t.nodes.contains x.c.node then some (i, room t) else none))

/-- The sum of the loads of this node's part of the tree and the lowest of them go to its parent (R333). -/
def loadUp (x : Dx) (rank sum : Nat) (low : List NodeLoad) : Dx :=
  (x.send (nth 0 (ownerSet x) (treeParent rank)) 0 (.windowLoad (sum + x.c.emb.winLoad) (lowestLoads (ownLoad x :: low)))).emb
    (fun e => { e with sumDue := false })

/-- Restart the shard load counters of a table (R332). -/
def restartLoad (x : Dx) (t : Tbl) : Dx :=
  (upto (ceilDiv t.slots 4096)).foldl (fun y i => { y with c := y.c.store y.acc (t.load + 4 * i) (leBytes 4 0) }) x

/-- A step boundary, counted. One that ends a measurement window (R332, R333) takes its load and tracked rows, restarts the counters and trackers, and, once the
cold start is over (R39), starts the reduction: a leaf sends its load up the tree, an inner node waits for the loads below it. DEDUCED, log entry 43. -/
def windowBoundary (x : Dx) : Dx :=
  let n := x.c.emb.boundaries + 1
  let y := x.emb (fun e => { e with boundaries := n })
  if n % max 1 (x.c.fld (Reg.embBal 0) 0 8) ≠ 0 then y
  else
    let warm := decide (2 ≤ x.c.emb.meas)
    let y := (upto 256).foldl (fun y t =>
      let z := restartLoad y (tbl y t)
      if z.c.adopted?.isSome then restartLoad z (adoptedTbl z t) else z) y
    let y := y.emb (fun e => { e with winLoad := e.load, winRows := e.trackers.flatten, load := 0, trackers := [[], [], [], []], meas := e.meas + 1, selDue := warm })
    match ownRank y with
    | some r =>
      if !warm || r == 0 then y
      else if treeInner (ownerSet y).length r then y.emb (fun e => { e with sumDue := true })
      else loadUp y r 0 []
    | none => y

/-- A node whose load exceeds THRESH/16 of the mean assigns rows of its trackers to the least-loaded nodes (R333). -/
def selectRows (x : Dx) (mean : Nat) (low : List NodeLoad) : Dx :=
  let bal := x.c.reg (Reg.embBal 0)
  let thresh := max 17 (field bal 8 8)
  let most := x.c.fld (Reg.embMigMax 0) 0 16
  let me := x.c.node
  let load := x.c.emb.winLoad
  let all := sortBy (fun a b => decide (b.2.2 ≤ a.2.2)) x.c.emb.winRows
  let room (n : NodeLoad) (t : Nat) : Nat := ((n.2.2.find? (fun p => p.1 == t)).map (·.2)).getD 0
  -- state: context, own load, nodes, rows selected
  let r := all.foldl (fun (s : Dx × Nat × List NodeLoad × Nat) row =>
    let y := s.1
    if s.2.2.2 ≥ most ∨ s.2.1 * 16 ≤ thresh * mean then s
    else match lowestLoads s.2.2.1 with
      | [] => s
      | n :: _ =>
        let t := tbl y row.1
        match resolve y t row.2.1 with
        | none => s
        | some o =>
          if o.node ≠ me ∨ n.1 = me ∨ y.c.emb.migOut.any (fun m => m.table == row.1 && m.r == row.2.1) then s
          else if room n row.1 = 0 ∧ n.1 ≠ o.home then s
          else
            let y := touchDrift y row.1 row.2.1
            match driftPlace y row.1 row.2.1 with
            | none => (y.core (fun c => c.raise (qpage y.acc.q 3) 5), s.2)
            | some (a, there) =>
              let d : Drift := { at_ := a, table := row.1, r := row.2.1, state := 1, node := n.1, oldNode := me, step := 0, slot := 0, oldSlot := o.slot }
              let m : MigOut := { table := row.1, r := row.2.1, node := n.1, unacked := 0, prev := if there then y.c.bytesAt none a 32 else [] }
              let y := { y with c := y.c.store y.acc a d.bytes }
              let y := y.emb (fun e => { e with migOut := e.migOut ++ [m] })
              let y := sendCopy y t m o.slot
              (y, s.2.1 - row.2.2, s.2.2.1.map (fun k => if k.1 = n.1 then
                (k.1, k.2.1 + row.2.2, if n.1 = o.home then k.2.2 else k.2.2.map (fun p => if p.1 = row.1 then (p.1, p.2 - 1) else p)) else k), s.2.2.2 + 1))
    (x, load, low, 0)
  if bit bal 31 ∨ load * 16 ≤ thresh * mean then x else r.1

/-- MIGRATION_SELECT: what came to this node in the reduction of the window loads (R333). At an inner node that still waits, `mean` is the sum of the loads
below it and `low` their lowest: it sends its part up. At the root, they are the same of all nodes below: it forms the mean and the 64 lowest and broadcasts
them. At another node they are what the root broadcast. The root and the others then select. DEDUCED, log entry 43; DESIGN CHOICE, log entry 111. -/
def migrationSelect (x : Dx) (mean : Nat) (low : List NodeLoad) : Dx :=
  let select (y : Dx) (mean : Nat) (low : List NodeLoad) : Dx := selectRows (y.emb (fun e => { e with selDue := false })) mean low
  match ownRank x with
  | some 0 =>
    let set := ownerSet x
    let mean := (mean + x.c.emb.winLoad) / set.length
    let low := lowestLoads (ownLoad x :: low)
    select ((set.drop 1).foldl (fun (y : Dx) n => y.send n 0 (.windowMean mean low)) x) mean low
  | some r => if x.c.emb.sumDue then loadUp x r mean low else select x mean (lowestLoads low)
  | none => select x mean (lowestLoads low)

/-- MIGRATION_COPY (R334, steps 1 and 2): store the copy in its slot, which lies in the allocation window, and acknowledge it. -/
def migrationCopy (x : Dx) (m : MigCopy) : Dx :=
  let t := tbl x m.table
  let e := x.at (t.map + 8 * (m.r / 4096)) 8
  let fresh := if field e 0 16 = x.c.node then some (field e 16 24 * 4096 + m.r % 4096) else freePool x t
  let x := touchDrift (touchMap x t m.r) m.table m.r
  let old := driftFind x m.table m.r
  let slot := match old with
    | some d => if d.state = 1 ∧ d.node = x.c.node then some d.slot else fresh
    | none => fresh
  match slot, driftPlace x m.table m.r with
  | some s, some (a, there) =>
    if t.slots ≤ s then x
    else
      let d : Drift := { at_ := a, table := m.table, r := m.r, state := 1, node := x.c.node, oldNode := m.node, step := 0, slot := s, oldSlot := m.oldSlot }
      let known := x.c.emb.migIn.any (fun k => k.1 == m.table && k.2.1 == m.r)
      let y := if known then x else x.emb (fun e => { e with migIn := e.migIn ++ [(m.table, m.r, if there then x.c.bytesAt none a 32 else [])] })
      let y := { y with c := y.c.store y.acc a d.bytes }
      let y := { y with c := y.c.store { y.acc with poison := m.poison } (t.slotAt s) (m.bytes.take t.rowLen) }
      y.send m.node 13 (.migCopyAck m.table m.r s)
  | _, _ => x

/-- MIGRATION_COPY_ACK at the old owner: the slot becomes known; with every send acknowledged, DIRTY clears (R334). -/
def migrationAck (x : Dx) (table r slot : Nat) : Dx :=
  let y := (touchDrift x table r).emb (fun e => { e with migOut := e.migOut.map (fun m => if m.table = table ∧ m.r = r then { m with unacked := m.unacked - 1 } else m) })
  match driftFind y table r with
  | none => y
  | some d =>
    let y := { y with c := y.c.store y.acc d.at_ ({ d with slot := slot }).bytes }
    if y.c.emb.migOut.any (fun m => m.table == table && m.r == r && m.unacked == 0) then
      let a := slotAddr y (tbl y table) d.oldSlot + 2
      { y with c := y.c.store y.acc a (leBytes 1 (y.at a 1 / 2 * 2)) }
    else y

/-- Stage DRIFTED in the shard map entry of a row (R306, R336). -/
def stageDrifted (x : Dx) (t : Tbl) (r : Nat) : Dx :=
  let a := t.map + 8 * (r / 4096)
  let e := x.at a 8
  if e.testBit 40 then x else x.write a (leBytes 8 (e + 2 ^ 40))

/-- The first half of EMB_SYNC at an old owner: verdicts, FORWARD changes and the notices of committed migrations (R334, R335), the last two for the
publication of its transaction. `step` is the step number of the boundary. DEDUCED, log entry 28. -/
def syncVerdicts (x : Dx) (step : Nat) : Dx :=
  x.c.emb.migOut.foldl (fun y m =>
    let t := tbl y m.table
    let y := touchDrift y m.table m.r
    match driftFind y m.table m.r with
    | none => y
    | some d =>
      if d.state ≠ 1 then y
      else
        let dirty := (y.at (slotAddr y t d.oldSlot + 2) 1).testBit 0
        let open_ := y.c.emb.llog.any (fun l => l.table == m.table && l.r == m.r)
        let ready := m.unacked == 0 && !dirty && !open_
        let y := y.send m.node 13 (.migVerdict m.table m.r ready)
        if !ready then y
        else
          let y := stageDrifted (y.write d.at_ ({ d with state := 3, step := step }).bytes) t m.r
          let note : MigNote := { table := m.table, r := m.r, node := m.node, slot := d.slot, oldNode := y.c.node, oldSlot := d.oldSlot, step := step }
          match y.acc.txn with
          | some id => { y with c := y.c.setTxn id (fun tx => { tx with notices := tx.notices ++ [(note, t.nodes)] }) }
          | none => y) x

/-- PENDING entries that target this node. -/
def pendingHere (x : Dx) : List Drift := (driftAll x).filter (fun d => d.state == 1 && d.node == x.c.node && d.oldNode != x.c.node)

/-- Whether every PENDING entry that targets this node has its verdict (R334, step 3). -/
def verdictsIn (x : Dx) : Bool :=
  (pendingHere x).all (fun d => x.c.emb.verdicts.any (fun v => v.1 == d.table && v.2.1 == d.r))

/-- Adopt a notice (R336): the old owner keeps its FORWARD entry; a row that has come home loses its entry; any other node writes the entry. -/
def adoptNote (x : Dx) (n : MigNote) : Dx :=
  let t := tbl x n.table
  let x := touchDrift (touchMap x t n.r) n.table n.r
  let home := field (x.at (t.map + 8 * (n.r / 4096)) 8) 0 16
  match driftPlace x n.table n.r with
  | none => x
  | some (a, there) =>
    if there ∧ (n.oldNode = x.c.node ∨ (n.node = x.c.node ∧ n.node ≠ home)) then x
    else if n.node = home then (if there then x.write a (goneBytes n.table n.r) else x)
    else
      let d : Drift := { at_ := a, table := n.table, r := n.r, state := 2, node := n.node, oldNode := n.oldNode, step := n.step, slot := n.slot, oldSlot := n.oldSlot }
      stageDrifted (x.write a d.bytes) t n.r

/-- The second half of EMB_SYNC: ACTIVE changes at a new owner, and adoption of notices (R334 to R336), all for the publication of its transaction.
DEDUCED, log entry 28. -/
def syncFinish (x : Dx) (step : Nat) : Dx :=
  let y := (pendingHere x).foldl (fun y d =>
    if x.c.emb.verdicts.any (fun v => v.1 == d.table && v.2.1 == d.r && v.2.2) then
      let t := tbl y d.table
      let y := stageDrifted (y.write d.at_ ({ d with state := 2, step := step }).bytes) t d.r
      let a := t.slotAt d.slot
      (y.write a (leBytes 2 step)).write (a + 2) (leBytes 1 (y.at (a + 2) 1 / 4 * 4 + 2))
    else y) x
  let notes := y.c.emb.notes
  let y := (notes.foldl adoptNote y).emb (fun e => { e with verdicts := [] })
  match y.acc.txn with
  | some id => { y with c := y.c.setTxn id (fun tx => { tx with adopted := notes }) }
  | none => y

/-- Publication of committed migrations (R334, step 5): the notices go to the owner sets, this device's part in the migrations ends, and the notices that
its EMB_SYNC adopted are done. `count` is the count of boundaries with the one that publishes, from which FWD_STEPS runs. -/
def publishNotices (x : Dx) (count : Nat) (ns : List (MigNote × List Nat)) (adopted : List MigNote) : Dx :=
  let y := x.emb (fun e => { e with notes := e.notes.filter (fun n => !adopted.contains n),
                                    migOut := e.migOut.filter (fun m => !ns.any (fun n => n.1.table == m.table && n.1.r == m.r)) })
  let y := y.emb (fun e => { e with migIn := e.migIn.filter (fun m => match driftFind y m.1 m.2.1 with | some d => d.state == 1 | none => false) })
  ns.foldl (fun y n =>
    let y := y.core (fun c => (c.inc (Reg.embMigrated y.acc.q) 1).raise (qpage y.acc.q 3) 3)
    let y := y.emb (fun e => { e with forwards := e.forwards ++ [(n.1.table, n.1.r, count)] })
    n.2.foldl (fun y m => if m = y.c.node then y.emb (fun e => { e with notes := e.notes ++ [n.1] }) else y.send m 13 (.migNotice n.1)) y) y

/-- FORWARD_END (R334, step 6): after FWD_STEPS boundaries the old owner's entry becomes ACTIVE, which frees OLD_SLOT. -/
def forwardEnd (x : Dx) (table r : Nat) : Dx :=
  let steps := x.c.fwdSteps
  let x := touchDrift x table r
  match x.c.emb.forwards.find? (fun f => f.1 == table && f.2.1 == r), driftFind x table r with
  | some f, some d =>
    if d.state = 3 ∧ f.2.2 + steps ≤ x.c.emb.boundaries then
      let y := { x with c := x.c.store x.acc d.at_ ({ d with state := 2 }).bytes }
      y.emb (fun e => { e with forwards := e.forwards.filter (fun k => !(k.1 == table && k.2.1 == r)) })
    else x
  | _, _ => x

/-- A node is lost: pending migrations with it are cancelled (R338). The old owner keeps the row and the new owner frees its slot: the entry that the PENDING
one replaced comes back. -/
def migrationsLost (x : Dx) (node : Nat) : Dx :=
  let prev (d : Drift) : List Byte :=
    let out := (x.c.emb.migOut.filter (fun m => m.table == d.table && m.r == d.r)).map (fun m => m.prev)
    let in_ := (x.c.emb.migIn.filter (fun m => m.1 == d.table && m.2.1 == d.r)).map (fun m => m.2.2)
    match (if d.oldNode = x.c.node then out else in_) with
    | (b :: bs) :: _ => b :: bs
    | _ => goneBytes d.table d.r
  let hit (d : Drift) : Bool := d.state == 1 && ((d.node == node && d.oldNode == x.c.node) || (d.oldNode == node && d.node == x.c.node))
  let gone := (driftAll x).filter hit
  let y := gone.foldl (fun y d => { y with c := y.c.store y.acc d.at_ (prev d) }) x
  y.emb (fun e => { e with migOut := e.migOut.filter (fun m => m.node != node),
                           migIn := e.migIn.filter (fun m => !gone.any (fun d => d.table == m.1 && d.r == m.2.1)) })

end Sys2Proof.Machine
end

