-- ==== Sys2Proof/Machine/Array.lean ====
section
/-!
DEFINITION. The matrix array (R143 to R183): operand layouts, tiles and time, preload, the drain epilogue with its fused functions and kept
region (R192, R199, R402 to R421), the activation predictor (R252 to R260), adapter passes (R172 to R175), convolution (R164 to R167) and
the datapath checks (R177 to R181).
-/
namespace Sys2Proof.Machine
open Sys2Proof

/-- The next multiple of `m`. -/
def upTo (m x : Nat) : Nat := ceilDiv x m * m

/-- Formats an operand field accepts: 0 and 2 act as 3 (R144). -/
def opFmt (code : Nat) : Nat := if code = 0 ∨ code = 2 then 3 else code

/-- Reduction indices per PE per clock (R145). -/
def rateP (fa fb : Nat) : Nat := if 5 ≤ fa ∧ 5 ≤ fb then 2 else 1

/-- A skewed operand in the Erg store: its base (a local address), format, elements per slot, slots per exponent-plane count, and where the
slot of an element lies (R156 to R158). -/
structure Operand where
  base : Nat
  fmt : Nat
  p : Nat
  slots : Nat
  slot : Nat → Nat → Nat

/-- Bytes of a slot. -/
def Operand.sigma (o : Operand) : Nat := o.p * elemBytes (if o.fmt = 7 then 6 else o.fmt)

/-- Offset of the exponent plane (R158). -/
def Operand.plane (o : Operand) : Nat := upTo 128 (o.slots * o.sigma)

/-- Bytes the operand occupies. -/
def Operand.size (o : Operand) : Nat := if o.fmt = 7 then o.plane + o.slots else o.slots * o.sigma

/-- The value at an outer index and a reduction index. -/
def Operand.val (o : Operand) (x : Dx) (m k : Nat) : Fp :=
  let s := o.slot m k
  let a := o.base + s * o.sigma + (k % o.p) * elemBytes (if o.fmt = 7 then 6 else o.fmt)
  if o.fmt = 7 then decodeB8 (x.at (o.base + o.plane + s) 1) (x.at a 1) else decodeBits o.fmt (x.at a (elemBytes o.fmt))

/-- Slot of a streamed operand (R157): `len` rows per part, `g` parts. -/
def streamSlot (p q g len : Nat) (m k : Nat) : Nat :=
  (((k / (p * q)) * g + m / len) * (len + q - 1) + (m % len + k % (p * q) / p)) * q + k % (p * q) / p

/-- Slot of a stationary operand (R157): `c` slots per line, `kt` K tiles. -/
def statSlot (p q c kt : Nat) (n k : Nat) : Nat := ((n / c * kt + k / (p * q)) * q + k % (p * q) / p) * c + n % c

/-- Slot of an output-stationary operand (R157): stream length `l`, `g` parts. -/
def osSlot (p q g l : Nat) (m k : Nat) : Nat :=
  ((m / q * g + k / (l * p)) * (l + q - 1) + (m % q + k % (l * p) / p)) * q + m % q

/-- One recompute unit (R179): its output rows, ascending, and its runs of output columns. -/
structure Unit where
  rows : List Nat
  cols : List (Nat × Nat)
  /-- N block and segment (R258). -/
  block : Nat := 0
  seg : Nat := 0
deriving DecidableEq, Repr

/-- A product whose outputs are to be drained. -/
structure Prod where
  rows : Nat
  n : Nat
  order : Nat
  grp : Nat
  fp32 : Bool
  os : Bool
  quad : Bool
  p : Nat
  k : Nat
  shape : Shape
  terms : Nat → Nat → List Term
  units : List Unit
  /-- Segments whose outputs drain through the SME's lanes instead of the array's (R445). -/
  sme : Nat → Bool := fun _ => false
  /-- Whether row functions may act (R414). -/
  rowFn : Bool
  /-- Regions of the quarter's Erg store that it reads (R163). -/
  reads : List (Nat × Nat) := []
  /-- Elements the predictor turned off (R256), by row and column. -/
  off : Nat → Nat → Bool := fun _ _ => false
  /-- Whether the array's columns are output rows (IS, R147). -/
  colsAreRows : Bool := false
  /-- Clocks of fill and drain (R151), and the clocks and multiply-accumulates of one run of a unit on the array. -/
  fill : Nat := 0
  cost : Unit → Nat × Nat := fun _ => (0, 0)

/-- The epilogue fields of MATMUL, SPMM and MATMUL_S28 (R159, R162). -/
structure Epi where
  fcb : Nat
  preload : Bool
  preKind : Bool
  shadow : Bool
  bitmap : Bool
  act : Nat
  cAddr : Nat
  hint : Nat
  uses : Nat
  preBase : Nat
  ext : Nat
  pitch : Nat
  prePitch : Nat
  keep : Nat
deriving DecidableEq, Repr

/-- The base of the extension block, if there is one: EXT_BASE with its low six bits dropped, so that 1 to 63 name none either (R159). DESIGN CHOICE, log entry 115. -/
def Dx.extAt (x : Dx) : Option Nat := let o := x.f 60 0 31 / 64 * 64; if o = 0 then none else some (x.erg o)

/-- A field of the extension block; zero when EXT_BASE is 0 (R162). -/
def Dx.ext (x : Dx) (byte lo w : Nat) : Nat :=
  match x.extAt with
  | none => 0
  | some a => field (x.at (a + byte) (ceilDiv (lo + w) 8)) lo w

/-- The epilogue fields; `x.touch` of the extension block is made by the caller. -/
def Dx.epi (x : Dx) : Epi :=
  { fcb := x.f 26 0 8, preload := x.f 27 0 1 = 1, preKind := x.f 27 1 1 = 1, shadow := x.f 27 2 1 = 1, bitmap := x.f 27 3 1 = 1,
    act := (let a := x.f 27 4 4; if a ≥ 12 then 0 else a), cAddr := x.f 48 0 48, hint := x.f 54 0 2, uses := x.f 55 0 8,
    preBase := x.erg (x.f 56 0 31), ext := x.f 60 0 31, pitch := x.ext 0 0 32, prePitch := x.ext 4 0 32, keep := x.ext 44 0 48 }

/-- Output format: form H outputs of FP64, P24 and B8 convert to SF16 (R220). -/
def Epi.fmt (e : Epi) : Nat :=
  let f := field e.fcb 0 3
  if e.bitmap ∧ (f = 0 ∨ f = 2 ∨ f = 7) then 3 else f

/-- Row pitch of C. -/
def Epi.cPitch (e : Epi) (n : Nat) : Nat := if e.pitch = 0 then upTo 32 (rowBytes e.fmt n) else e.pitch

/-- Row pitch of the residual. -/
def Epi.rPitch (e : Epi) (n : Nat) : Nat := if e.prePitch = 0 then upTo 32 (rowBytes (field e.fcb 0 3) n) else e.prePitch

/-- The preload value of an output element (R192). -/
def Epi.pre (e : Epi) (x : Dx) (n row col : Nat) : Option Fp :=
  if e.preload then
    some (toFp32 (x.elem (field e.fcb 0 3) (if e.preKind then e.preBase + row * e.rPitch n else e.preBase) col))
  else none

/-- The header of a kept region as a descriptor sees it (R405, R407). -/
def keepHdr (x : Dx) (a : Nat) : KeepHdr :=
  if a = 0 then {}
  else
    { fwdAct := field (x.at a 1) 0 4, layerTag := x.at (a + 2) 2, rows := x.at (a + 4) 3, cols := x.at (a + 8) 3,
      param := decodeBits 1 (x.at (a + 12) 4), dropP := x.at (a + 16) 4, scale := decodeBits 1 (x.at (a + 20) 4),
      key := x.at (a + 24) 8, grow0 := x.at (a + 32) 5, gcol0 := x.at (a + 40) 3, gamma := x.at (a + 44) 4 % 2 ^ 31,
      beta := x.at (a + 48) 4 % 2 ^ 31, dgamma := x.at (a + 52) 4 % 2 ^ 31, dbeta := x.at (a + 56) 4 % 2 ^ 31 }

/-- An FP32 vector element in the Erg store, or a default where the offset is 0. -/
def ergVec (x : Dx) (off : Nat) (d : Fp) (i : Nat) : Fp := if off = 0 then d else decodeBits 1 (x.at (ergByte off + 4 * i) 4)

/-- A kept bit. -/
def keptBit (x : Dx) (a : Nat) (h : KeepHdr) (m n : Nat) : Bool :=
  (x.at (a + 64 + m * keepPitch h.fwdAct h.cols + n / 8) 1).testBit (n % 8)

/-- A kept FP32 value. -/
def keptVal (x : Dx) (a : Nat) (h : KeepHdr) (m n : Nat) : Fp :=
  decodeBits 1 (x.at (a + 64 + m * keepPitch h.fwdAct h.cols + 4 * n) 4)

/-- Where the r value of a row lies (R408). -/
def keptRAddr (a act rows cols m : Nat) : Nat := a + 64 + 128 * ceilDiv (rows * keepPitch act cols) 128 + 4 * m

/-- D_APPLY of one row (R418, R420): the values g of the row become dz. -/
def dApplyRow (x : Dx) (rowFn : Bool) (a : Nat) (h : KeepHdr) (n m : Nat) (g : List Fp) : List Fp :=
  if a = 0 then g
  else
    let inside (i : Nat) : Bool := decide (m < h.rows) && decide (i < h.cols)
    let cut (l : List Fp) : List Fp := l.mapIdx (fun i v => if inside i then v else Fp.zero)
    let act := h.fwdAct
    if act = 0 ∨ act = 9 ∨ 12 ≤ act then cut g
    else if act = 10 ∨ act = 11 then
      if !rowFn then cut g
      else
        let w := min n h.cols
        let gs := g.take w
        let kept := (upto w).map (keptVal x a h m)
        let dz := if act = 10 then
            lnormGrad h.cols ((upto w).map (ergVec x h.gamma fp1)) kept (decodeBits 1 (x.at (keptRAddr a 10 h.rows h.cols m) 4)) gs
          else softmaxGrad (unitParam h.param) kept gs
        cut (dz ++ (upto (n - w)).map (fun _ => Fp.zero))
    else cut (g.mapIdx (fun i v => actDeriv act h (if keepsBits act then keptBit x a h m i else false)
      (if keepsValues act then keptVal x a h m i else Fp.zero) v))

/-- One row after step 4 of R199: its values, kept bits, kept FP32 values, and the r of LNORM. -/
structure RowOut where
  h : List Fp
  bits : List Bool := []
  kept : List Fp := []
  r : Fp := Fp.zero
deriving DecidableEq, Repr

/-- Step 4 of R199 for one row. -/
def funcRow (x : Dx) (act : Nat) (rowFn : Bool) (a : Nat) (h : KeepHdr) (n m : Nat) (z : List Fp) : RowOut :=
  if act = 9 then { h := dApplyRow x rowFn a h n m z }
  else if act = 10 then
    let (hs, xh, r) := lnormRow (epsParam h.param) ((upto n).map (ergVec x h.gamma fp1)) ((upto n).map (ergVec x h.beta Fp.zero)) z
    { h := hs, kept := xh, r := r }
  else if act = 11 then let hs := softmaxRow (unitParam h.param) z; { h := hs, kept := hs }
  else
    let os := z.mapIdx (fun i v => actElem act h m i v)
    { h := os.map (·.h), bits := os.map (·.bit), kept := os.map (·.kept) }

/-- An H-block record of form H (R221): elements `32·g + j` of a run of 512, as converted bits. -/
def hRecord (sz : Nat) (bits : List Nat) : List Byte :=
  let grp (g : Nat) : List Nat := (bits.drop (32 * g)).take 32
  let word (g : Nat) : Nat := ((grp g).mapIdx (fun j b => if b = 0 then 0 else 2 ^ j)).foldl (· + ·) 0
  let sum := (upto 16).foldl (fun s g => if word g = 0 then s else s + 2 ^ g) 0
  leBytes 2 sum ++ leBytes 2 0 ++ ((upto 16).map (fun g => if word g = 0 then [] else leBytes 4 (word g))).flatten
    ++ ((bits.filter (· ≠ 0)).map (leBytes sz)).flatten

/-- Stride of H-block records (R221). -/
def hStride (sz : Nat) : Nat := 128 * ceilDiv (68 + 512 * sz) 128

/-- Write the columns `c0` to `c1 - 1` of an output row at C (R161, R220). -/
def writeRun (x : Dx) (e : Epi) (d : Draws) (n row c0 c1 : Nat) (h : List Fp) : Dx :=
  let v (i : Nat) : Fp := nth Fp.zero h i
  let fmt := e.fmt
  if e.bitmap then
    let sz := elemBytes fmt
    (upto (ceilDiv n 512)).foldl (fun y b =>
      let last := min (512 * b + 512) n
      if c0 < last ∧ last ≤ c1 then
        let bits := (upto (last - 512 * b)).map (fun i => drainElem fmt 1 (d.rnd (row * n + 512 * b + i)) (v (512 * b + i)))
        y.writeHint e.hint e.uses (e.cAddr + (row * ceilDiv n 512 + b) * hStride sz) (hRecord sz bits)
      else y) x
  else x.writeHint e.hint e.uses (e.cAddr + row * e.cPitch n + outOff fmt c0) (outBytes fmt 1 d (row * padCols fmt n) n c0 c1 v)

/-- Write the kept data of the columns `c0` to `c1 - 1` of a row; the last run also writes the row's padding (R408, R409). DEDUCED, log entry 30. -/
def keepRun (x : Dx) (e : Epi) (act n rows row c0 c1 : Nat) (o : RowOut) : Dx :=
  let base := e.keep + 64 + row * keepPitch act n
  if keepsBits act then
    let hi := if c1 = n then keepPitch act n else ceilDiv c1 8
    let bytes := (upto (hi - c0 / 8)).map (fun i =>
      BitVec.ofNat 8 ((upto 8).foldl (fun s j => if nth false o.bits (8 * (c0 / 8 + i) + j) then s + 2 ^ j else s) 0))
    x.writeHint e.hint e.uses (base + c0 / 8) bytes
  else if keepsValues act then
    let vals := (upto (c1 - c0)).map (fun i => leBytes 4 (roundTo 1 Rnd.nearest 0 (nth Fp.zero o.kept (c0 + i))).bits)
    let pad := if c1 = n then leBytes (keepPitch act n - 4 * n) 0 else []
    let y := x.writeHint e.hint e.uses (base + 4 * c0) (vals.flatten ++ pad)
    if act = 10 ∧ c1 = n then
      y.writeHint e.hint e.uses (keptRAddr e.keep 10 rows n row) (leBytes 4 (roundTo 1 Rnd.nearest 0 o.r).bits)
    else y
  else x

/-- The sums of R419 over the rows of a D_APPLY: one value per column. -/
def leafTree (rows : Nat) (v : Nat → Fp) : Fp :=
  pairTree add32 (log2Up (ceilDiv rows 64)) ((upto (ceilDiv rows 64)).map (fun l =>
    (upto (min 64 (rows - 64 * l))).foldl (fun s i => add32 s (v (64 * l + i))) negZero))

/-- The extent of a kept region (R410). -/
def keepRegion (a act rows cols : Nat) : Nat × Nat := (a, keepSize act rows cols)

/-- Whether two regions overlap. DESIGN CHOICE, log entry 31. -/
def overlaps (r s : Nat × Nat) : Bool := decide (r.2 ≠ 0) && decide (s.2 ≠ 0) && decide (r.1 < s.1 + s.2) && decide (s.1 < r.1 + r.2)

/-- The columns of a recompute unit. -/
def Unit.colList (u : Unit) : List Nat := (u.cols.map (fun r => (upto (r.2 - r.1)).map (· + r.1))).flatten

/-- The sum of the magnitudes of an output's terms, formed beside the total: of split operands, those of one pass (R169, R178). -/
def Prod.magnitude (pr : Prod) (pass m n : Nat) : Fp :=
  let ts := if pr.fp32 then passTerms (pr.terms m n) (nth (0, 0) passes pass) else Machine.live (pr.terms m n)
  ts.foldl (fun s t => Fp.add s (Fp.mul t.a t.b).abs) Fp.zero

/-- The magnitudes of the terms that a checksum of a unit predicts (R178): the checksum row (check 2) predicts the total of one array column over the streamed
rows, the checksum column (check 3) that of one streamed row over the array's columns. In IS the array's columns are output rows. -/
def Prod.checkMag (pr : Prod) (u : Unit) (f : CheckFail) : Fp :=
  let sum (l : List (Nat × Nat)) : Fp := l.foldl (fun s t => Fp.add s (pr.magnitude f.pass t.1 t.2)) Fp.zero
  if (f.check == 2) != pr.colsAreRows then sum (u.rows.map (fun m => (m, nth 0 u.colList f.place)))
  else sum (u.colList.map (fun n => (nth 0 u.rows f.place, n)))

/-- ARRAY_CHK_TOL.TOL_EXP as it acts (R182). -/
def Core.tolExp (c : Core) (q : Nat) : Nat := max 4 (min 20 (c.fld (Reg.arrayChkTol q) 0 5))

/-- Whether a check fails on a fault: residue and parity always; a checksum when the difference exceeds 2^−TOL_EXP times the magnitudes (R177, R178). -/
def checkHit (tol : Nat) (pr : Prod) (u : Unit) (f : CheckFail) : Bool :=
  if f.check = 1 ∨ f.check = 4 then true
  else if f.check = 2 ∨ f.check = 3 then
    Fp.lt (Fp.mul (.fin false 1 (-(tol : Int))) (pr.checkMag u f)) (.fin false f.errM f.errE)
  else false

/-- A failed check is counted, and the first since reset recorded (R182, R183). -/
def Core.checkFailed (c : Core) (q : Nat) (f : CheckFail) : Core :=
  let c1 := (if f.check = 1 ∨ f.check = 4 then c.incFld (Reg.arrayDetect q) 0 16 1 else c.incFld (Reg.arrayDetect q) 16 16 1).raise (qpage q 0) 0
  if c1.fld (Reg.arrayFault q) 1 3 = 0 then
    ((c1.setFld (Reg.arrayFault q) 1 3 f.check).setFld (Reg.arrayFault q) 16 10 f.col).setFld (Reg.arrayFaultRow q) 0 10 f.row
  else c1

/-- The checks of one recompute unit: it runs again, up to two times, while a check of its run fails (R180, R181). Answers how often it failed; it drains unless
that is 3. -/
def checkUnit (x : Dx) (pr : Prod) (u : Unit) (fs : List CheckFail) : Dx × Nat :=
  let q := x.acc.q
  let hits (r : Nat) : List CheckFail := fs.filter (fun f => f.run == r && checkHit (x.c.tolExp q) pr u f)
  let failed := if (hits 0).isEmpty then 0 else if (hits 1).isEmpty then 1 else if (hits 2).isEmpty then 2 else 3
  if failed = 0 then (x, 0)
  else
    let y := x.core (fun c => (((upto failed).map hits).flatten.foldl (fun d f => d.checkFailed q f) c).incFld (Reg.arrayRecompute q) 0 16 (min failed 2))
    let y := { y with comp := { y.comp with retries := max y.comp.retries (min failed 2) } }
    if failed = 3 then ((y.core (fun c => ((c.incFld (Reg.arrayRecompute q) 16 16 1).setBit (Reg.arrayFault q) 0 true).raise (qpage q 0) 2)).st 0x40, 3)
    else ((y.core (fun c => c.raise (qpage q 0) 1)).st 0x10, failed)

/-- The datapath checks of a product (R177 to R183): its units in order up to one that fails its third run. Answers how often each of these failed. -/
def checkFails (x : Dx) (pr : Prod) (fails : List CheckFail) : Dx × List Nat :=
  if fails.isEmpty then (x, pr.units.map (fun _ => 0))
  else (pr.units.mapIdx (fun i u => (i, u))).foldl (fun (p : Dx × List Nat) (iu : Nat × Unit) =>
    if p.2.contains 3 then p
    else
      let (y, failed) := checkUnit p.1 pr iu.2 (fails.filter (fun f => f.unit == iu.1))
      (y, p.2 ++ [failed])) (x, [])

/-- The clocks and multiply-accumulates of the runs that the units of a product made, reruns among them (R151, R180, R182). -/
def Prod.work (pr : Prod) (failed : List Nat) : Nat × Nat :=
  (pr.units.zip failed).foldl (fun s uf => let c := pr.cost uf.1; let r := min 3 (uf.2 + 1); (s.1 + r * c.1, s.2 + r * c.2)) (pr.fill, 0)

/-- The rows of the residual, or the bias vector, that a product preloads. -/
def Epi.preRegions (e : Epi) (pr : Prod) : List (Nat × Nat) :=
  if !e.preload then []
  else if e.preKind then (upto pr.rows).map (fun m => (e.preBase + m * e.rPitch pr.n, rowBytes (field e.fcb 0 3) pr.n))
  else [(e.preBase, rowBytes (field e.fcb 0 3) pr.n)]

/-- Whether the residual coincides exactly with C (R163). -/
def Epi.inPlace (e : Epi) (pr : Prod) : Bool := e.preKind && e.preBase == e.cAddr && !e.bitmap && e.rPitch pr.n == e.cPitch pr.n

/-- An FP32 vector of the Erg store that a row function uses, where its offset is not 0. -/
def vecRegion (off n : Nat) : List (Nat × Nat) := if off = 0 then [] else [(ergByte off, 4 * n)]

/-- Regions a product's epilogue reads beside the preload and the kept region: the extension block, and the vectors of LNORM: GAMMA and BETA, and DGAMMA and DBETA
to which a D_APPLY adds (R163, R410, R419). -/
def Epi.regions (_e : Epi) (x : Dx) (n act : Nat) (rowFn : Bool) (hd : KeepHdr) : List (Nat × Nat) :=
  (match x.extAt with | some a => [(a, 64)] | none => [])
  ++ (if act = 10 then vecRegion hd.gamma n ++ vecRegion hd.beta n
      else if act = 9 ∧ hd.fwdAct = 10 ∧ rowFn then
        vecRegion hd.gamma (min n hd.cols) ++ vecRegion hd.dgamma (min n hd.cols) ++ vecRegion hd.dbeta (min n hd.cols)
      else [])

/-- Drain a product: preload, function, check, the array's counters, conversion, occupancy, C and kept data, unit by unit (R199), and the misuse case of R163 and R410.
The sums of R419 are left for the completion. -/
def drain (x0 : Dx) (pr : Prod) (e : Epi) (fails : List CheckFail) : Dx :=
  let act := if (e.act = 10 ∨ e.act = 11) ∧ !pr.rowFn then 0 else e.act
  -- effects of reading the preload, the header and the kept region
  let x1 := if e.preload then
      (if e.preKind then (upto pr.rows).foldl (fun y m => y.touch (e.preBase + m * e.rPitch pr.n) (rowBytes (field e.fcb 0 3) pr.n)) x0
       else x0.touch e.preBase (rowBytes (field e.fcb 0 3) pr.n)) else x0
  let x2 := if e.keep ≠ 0 then x1.touch (e.keep + 2) 62 else x1
  let hd := keepHdr x2 e.keep
  let x3 := if act = 9 ∧ e.keep ≠ 0 then (let r := keepRegion e.keep hd.fwdAct hd.rows hd.cols; x2.touch (r.1 + 64) (r.2 - 64)) else x2
  let usesG := (act = 10 ∨ (act = 9 ∧ hd.fwdAct = 10 ∧ pr.rowFn)) ∧ e.keep ≠ 0
  let x4 := if usesG ∧ hd.gamma ≠ 0 then x3.touch (ergByte hd.gamma) (4 * pr.n) else x3
  let x5 := if act = 10 ∧ e.keep ≠ 0 ∧ hd.beta ≠ 0 then x4.touch (ergByte hd.beta) (4 * pr.n) else x4
  let (x5, failed) := checkFails x5 pr fails
  let w := pr.work failed
  let x6 := x5.core (fun c => (c.inc64 (Reg.arrayBusyLo x5.acc.q) w.1).inc64 (Reg.arrayMacLo x5.acc.q) w.2)
  let src := x6
  -- steps 1 to 4
  let z (m n : Nat) : Fp :=
    if pr.off m n then Fp.zero
    else posZero (accumulate pr.order pr.grp pr.os pr.quad pr.fp32 pr.p pr.k pr.shape (e.pre src pr.n m n) (pr.terms m n))
  let zrow (m : Nat) : List Fp := (upto pr.n).map (z m)
  let out := (upto pr.rows).map (fun m => funcRow src act pr.rowFn e.keep hd pr.n m (zrow m))
  let row (m : Nat) : RowOut := nth { h := [] } out m
  let done := pr.units.take (failed.filter (· < 3)).length
  -- draws
  let order : List Nat := (done.map (fun u => (u.rows.map (fun m =>
    (u.cols.map (fun r => (upto (r.2 - r.1)).map (fun i => (m * padCols e.fmt pr.n + r.1 + i) / 4))).flatten)).flatten)).flatten
  -- a group takes the drain lanes of the unit that writes its first element (R445)
  let segOf (m : Nat) : Nat := m / 2048
  let laneSet (g : Nat) : Nat := if pr.sme (segOf (4 * g / max 1 (padCols e.fmt pr.n))) then 129 else 128
  let (x7, d) := x6.draws e.fcb laneSet (groupsOf e.fmt pr.rows pr.n) (if field e.fcb 3 3 = 5 then order else [])
  let d := { d with drainZero := true }
  -- steps 5 to 8
  let x8 := done.foldl (fun y u =>
    let y1 := u.rows.foldl (fun y m => u.cols.foldl (fun y r =>
      let hs := (row m).h
      let y := (upto (r.2 - r.1)).foldl (fun y i => if (nth Fp.zero hs (r.1 + i)).special then y.flagNaN (m * pr.n + r.1 + i) else y) y
      writeRun y e d pr.n m r.1 r.2 hs) y) y
    if e.keep ≠ 0 ∧ act ≠ 9 then
      u.rows.foldl (fun y m => u.cols.foldl (fun y r => keepRun y e act pr.n pr.rows m r.1 r.2 (row m)) y) y1
    else y1) x7
  let x9 := if e.keep ≠ 0 ∧ act ≠ 9 then
      (x8.writeHint e.hint e.uses e.keep (leBytes 1 act)).writeHint e.hint e.uses (e.keep + 4) (leBytes 4 pr.rows ++ leBytes 4 pr.n)
    else x8
  -- R419
  let adds (off : Nat) (v : Nat → Nat → Fp) : List (Nat × Nat) :=
    if off = 0 then []
    else (upto (min pr.n hd.cols)).map (fun n =>
      (ergByte off + 4 * n, (roundTo 1 Rnd.nearest 0 (leafTree (min pr.rows hd.rows) (fun m => v m n))).bits))
  let x10 := if act = 9 ∧ e.keep ≠ 0 ∧ hd.fwdAct = 10 ∧ pr.rowFn then
      { x9 with adds := adds hd.dgamma (fun m n => mul32 (z m n) (keptVal src e.keep hd m n)) ++ adds hd.dbeta z }
    else x9
  -- aliasing
  let cRows : List (Nat × Nat) := if e.bitmap then
      [(e.cAddr, pr.rows * ceilDiv pr.n 512 * hStride (elemBytes e.fmt))]
    else (upto pr.rows).map (fun m => (e.cAddr + m * e.cPitch pr.n, rowBytes e.fmt pr.n))
  let reads := pr.reads ++ e.regions src pr.n act pr.rowFn hd
  let pre := e.preRegions pr
  let kept := if e.keep = 0 then (0, 0) else if act = 9 then keepRegion e.keep hd.fwdAct hd.rows hd.cols else keepRegion e.keep act pr.rows pr.n
  let badC := (reads ++ if e.inPlace pr then [] else pre).filter (fun r => cRows.any (fun c => overlaps c r))
  let badK := (reads ++ pre).filter (fun r => overlaps kept r)
  let keepC := act = 9 ∧ cRows.any (fun c => overlaps c kept)
  if badC.isEmpty ∧ badK.isEmpty ∧ ¬ keepC then x10
  else (cRows ++ (if badK.isEmpty ∧ ¬ keepC then [] else [kept]) ++ badC ++ badK).foldl (fun y r => y.scramble r.1 r.2) x10

/-! ### Tiles and time -/

/-- Segments of streamed rows: for part `g`, the local rows of segment `s` (R149, R153). -/
def segRows (total len g s : Nat) (parts : Nat) : List Nat :=
  let per := 2048 / parts
  (upto (min per (len - s * per))).filterMap (fun i => let m := g * len + s * per + i; if m < total ∧ s * per + i < len then some m else none)

/-- Runs of consecutive numbers in an ascending list. -/
def runsOf (l : List Nat) : List (Nat × Nat) :=
  l.foldr (fun x acc => match acc with
    | (a, b) :: t => if x + 1 = a then (x, b) :: t else (x, x + 1) :: (a, b) :: t
    | [] => [(x, x + 1)]) []

/-- Segments of a streamed side of `len` rows per part. -/
def segCount (len parts : Nat) : Nat := ceilDiv len (2048 / parts)

/-- The recompute units in the tile order of R149. DEDUCED, log entry 38. -/
def unitsOf (stat m n q c g : Nat) : List Unit :=
  if stat = 1 then
    ((upto (ceilDiv m q)).map (fun i => (upto (ceilDiv n q)).map (fun j =>
      { rows := (upto (min q (m - i * q))).map (· + i * q), cols := [(j * q, min n (j * q + q))], block := j, seg := i }))).flatten
  else if stat = 2 then
    let len := ceilDiv n g
    ((upto (ceilDiv m c)).map (fun b => (upto (segCount len g)).map (fun s =>
      { rows := (upto (min c (m - b * c))).map (· + b * c),
        cols := runsOf ((upto g).map (fun p => segRows n len p s g)).flatten, block := b, seg := s }))).flatten
  else
    let len := ceilDiv m g
    ((upto (ceilDiv n c)).map (fun b => (upto (segCount len g)).map (fun s =>
      { rows := ((upto g).map (fun p => segRows m len p s g)).flatten, cols := [(b * c, min n (b * c + c))], block := b, seg := s }))).flatten

/-- The P factor of an order (R201, R208). -/
def orderFactor (order grp : Nat) (fp32 : Bool) : Nat := if order = 1 ∧ !fp32 then (if grp ≥ 2 then 4 else 2) else 1

/-- Clocks of fill and drain (R151): 512 after a descriptor of the same STAT that had SHADOW_DRAIN set. The array's previous descriptor is kept as
STAT + 4 · SHADOW_DRAIN + 8. DESIGN CHOICE, log entry 95. -/
def fillClocks (prev stat : Nat) : Nat := if prev = stat + 12 then 512 else 1024

/-- The sum of max(Lₜ, λ) over the tiles of a recompute unit (R151): `tiles` of them, each with as many lines as its segment streams for a part; in OS one of `l`
lines. DESIGN CHOICE, log entry 95. -/
def unitClocks (stat streamed q g l lam tiles seg : Nat) : Nat :=
  if stat = 1 then max l lam
  else
    let per := 2048 / g
    tiles * max (min per (ceilDiv streamed g - seg * per)) q

/-- What MATMUL read from its descriptor, after the conditions of R144, R147, R152 and R155. -/
structure MatShape where
  stat : Nat
  fa : Nat
  fb : Nat
  fp32 : Bool
  p : Nat
  order : Nat
  grp : Nat
  conv : Bool
  variant : Bool
  m : Nat
  n : Nat
  k : Nat
  quad : Bool
  q : Nat
  c : Nat
  g : Nat
deriving DecidableEq, Repr

/-- The shape of a MATMUL. `det` is CP_CONFIG.DET; `hp`, `wp` the phase-plane grid. -/
def matShape (stat split order grp convBit varBit fmtA fmtB m n k hp wp : Nat) (det : Bool) : MatShape :=
  let stat := if stat = 3 then 0 else stat
  let fa := opFmt fmtA
  let fb := opFmt fmtB
  let p := rateP fa fb
  let conv := convBit = 1 ∧ stat = 0
  let m := if conv then hp * wp else m
  let order := if order = 3 then 0 else order
  let c1 := if stat = 2 then decide (m ≤ 256) else decide (n ≤ 256)
  let c2 := decide (k ≤ 256 * p)
  let split :=
    if stat = 1 then (if split = 3 ∧ m ≤ 256 ∧ n ≤ 256 ∧ order ≠ 1 ∧ ¬ (det ∧ order ≠ 2) then 3 else 0)
    else if split = 1 then (if c1 then 1 else 0)
    else if split = 2 then (if c2 then 2 else 0)
    else if split = 3 then (if c1 && c2 then 3 else 0) else 0
  { stat := stat, fa := fa, fb := fb, fp32 := fa = 1 ∨ fb = 1, p := p, order := order, grp := grp, conv := conv,
    variant := varBit = 1 ∧ stat = 0, m := m, n := n, k := k, quad := stat = 1 ∧ split = 3,
    q := if split = 2 ∨ split = 3 then 256 else 512, c := if split = 1 ∨ split = 3 then 256 else 512,
    g := if split = 0 then 1 else if split = 3 then 4 else 2 }

/-- K tiles of class W of equal length. -/
def evenTiles (kt len : Nat) : List (Nat × Nat) := (upto kt).map (fun t => (t * len, t * len + len))

/-- The A operand of a MATMUL without CONV. -/
def operandA (s : MatShape) (base : Nat) : Operand :=
  if s.stat = 1 then
    let l := ceilDiv s.k (s.g * s.p)
    { base := base, fmt := s.fa, p := s.p, slots := ceilDiv s.m s.q * s.g * (l + s.q - 1) * s.q, slot := osSlot s.p s.q s.g l }
  else
    let kt := ceilDiv s.k (s.p * s.q)
    if s.stat = 2 then { base := base, fmt := s.fa, p := s.p, slots := ceilDiv s.m s.c * kt * s.q * s.c, slot := statSlot s.p s.q s.c kt }
    else
      let len := ceilDiv s.m s.g
      { base := base, fmt := s.fa, p := s.p, slots := kt * s.g * (len + s.q - 1) * s.q, slot := streamSlot s.p s.q s.g len }

/-- The B operand of a MATMUL without CONV; its outer index is the column n. -/
def operandB (s : MatShape) (base kt : Nat) : Operand :=
  if s.stat = 1 then
    let l := ceilDiv s.k (s.g * s.p)
    { base := base, fmt := s.fb, p := s.p, slots := ceilDiv s.n s.q * s.g * (l + s.q - 1) * s.q, slot := osSlot s.p s.q s.g l }
  else if s.stat = 2 then
    let len := ceilDiv s.n s.g
    { base := base, fmt := s.fb, p := s.p, slots := kt * s.g * (len + s.q - 1) * s.q, slot := streamSlot s.p s.q s.g len }
  else { base := base, fmt := s.fb, p := s.p, slots := ceilDiv s.n s.c * kt * s.q * s.c, slot := statSlot s.p s.q s.c kt }

/-- The phase planes a CONV reads (R164): the outer index is a stored line, `phase · (HP·WP + q − 1) + line`. -/
def operandX (s : MatShape) (base stride : Nat) : Operand :=
  let kc := ceilDiv s.k (s.p * s.q)
  let lines := s.m + s.q - 1
  { base := base, fmt := s.fa, p := s.p, slots := stride * stride * kc * lines * s.q,
    slot := fun ph k => let t := k / (s.p * s.q); let sl := k % (s.p * s.q) / s.p
      (((ph / lines) * kc + t) * lines + ph % lines + sl) * s.q + sl }

/-- An exact sum of products. -/
def exactDot (l : List (Fp × Fp)) : Fp := l.foldl (fun s p => Fp.add s (Fp.mul p.1 p.2)) Fp.zero

/-- Predictor sums of one row of A in FP32, and its exact squared norm (R254): each sum is rounded once, so that the guarantee of R257 holds. DEDUCED, log entry 29. -/
def predRow (x : Dx) (a v : Operand) (k row : Nat) : List Fp × Fp :=
  let xs := (upto k).map (fun i => a.val x row i)
  ((upto 32).map (fun j => rnd32 (exactDot (xs.mapIdx (fun i t => (t, v.val x j i))))), exactDot (xs.map (fun t => (t, t))))

/-- Whether the predictor turns an element off (R255): m is the margin. DEDUCED, log entry 29. -/
def predOff (z : List Fp) (n2 : Fp) (u : List Fp) (b r nn m : Fp) : Bool :=
  let y := rnd32 (Fp.add (exactDot (z.mapIdx (fun j t => (t, nth Fp.zero u j)))) b)
  let nx := rnd32 (Fp.sqrt n2)
  let al := mul32 (.fin false 1 (-8)) (add32 (add32 (mul32 nn nx) b.abs) y.abs)
  Fp.lt (add32 y (mul32 m (add32 (mul32 r nx) al))) Fp.zero

/-- Effects of reading a list of Erg store regions. -/
def Dx.touchAll (x : Dx) (rs : List (Nat × Nat)) : Dx := rs.foldl (fun y r => y.touch r.1 r.2) x

/-- The region of an operand. -/
def Operand.region (o : Operand) : Nat × Nat := (o.base, o.size)

/-- The adapter variant of a row (R172). -/
def variantOf (x : Dx) (ids row : Nat) : Option Nat := let w := x.at (ids + 2 * row) 2; if w.testBit 15 then none else some (w % 4096)

/-- Offset of B_vᵀ in an adapter entry (R173). -/
def adaptB (fb k rank : Nat) : Nat := upTo 128 (k * rowBytes fb rank)

/-- Distinct values of a list. -/
def distinct (l : List Nat) : List Nat := l.foldl insN []

/-- MATMUL (R159): every effect of the descriptor on an array that is not declared faulty. `prev` is what the array ran before. Sums follow K tiles of 512·p
indices under every SPLIT, so that SPLIT changes no result bit (R154, R203). DEDUCED, log entry 103. Z is rounded without INF_EN (R174), ARRAY_MAC of a CONV counts the positions written (R182).
DESIGN CHOICE, log entry 115. Aggressive mode under MARGIN 0 runs as guard mode up to the step boundary after the 64th audit (R260, R422). DEDUCED, log entry 37. -/
def matmul (x0 : Dx) (det : Bool) (prev : Nat) (fails : List CheckFail) : Dx :=
  let q0 := x0.acc.q
  if x0.f 32 0 24 = 0 ∨ x0.f 36 0 24 = 0 ∨ (x0.f 28 0 24 = 0 ∧ ¬ (x0.f 24 6 1 = 1 ∧ (x0.f 24 0 2 = 0 ∨ x0.f 24 0 2 = 3))) then x0 else
  let x1 := match x0.extAt with | some a => x0.touch a 64 | none => x0
  let e := x1.epi
  let hp := x1.ext 16 0 16
  let wp := x1.ext 18 0 16
  let s := matShape (x1.f 24 0 2) (x1.f 24 2 2) (x1.f 24 4 2) (x1.f 25 6 2) (x1.f 24 6 1) (x1.f 24 7 1) (x1.f 25 0 3) (x1.f 25 3 3)
    (x1.f 28 0 24) (x1.f 32 0 24) (x1.f 36 0 24) hp wp det
  if s.m = 0 then x1
  else
    let q' := s.p * s.q
    let qs := 512 * s.p
    let wh := max 1 (x1.ext 8 0 4)
    let ww := max 1 (x1.ext 8 4 4)
    let stride := x1.ext 9 0 2 + 1
    let dil := x1.ext 9 2 4 + 1
    let hOut := x1.ext 12 0 16
    let wOut := x1.ext 14 0 16
    let kc := ceilDiv s.k q'
    let kt := if s.conv then wh * ww * kc else kc
    -- K tiles as sums follow them
    let kcs := ceilDiv s.k qs
    let kts := if s.conv then wh * ww * kcs else kcs
    let rows := if s.conv then hOut * wOut else s.m
    let oa := if s.conv then operandX s (x1.erg (x1.f 40 0 31)) stride else operandA s (x1.erg (x1.f 40 0 31))
    let ob := operandB s (x1.erg (x1.f 44 0 31)) kt
    let x2 := (x1.touch oa.base oa.size).touch ob.base ob.size
    -- main terms
    let base : Nat → Nat → List Term := if s.conv then
        fun m n =>
          let pos := m / wOut * wp + m % wOut
          ((upto (wh * ww)).map (fun w =>
            let a := w / ww
            let b := w % ww
            let ph := (a * dil % stride) * stride + b * dil % stride
            let line := pos + (a * dil / stride) * wp + b * dil / stride
            (upto s.k).map (fun ch =>
              { idx := w * kcs * qs + ch, a := oa.val x2 (ph * (s.m + s.q - 1) + line) ch, b := ob.val x2 n (w * kc * q' + ch) : Term }))).flatten
      else fun m n => (upto s.k).map (fun i => { idx := i, a := oa.val x2 m i, b := ob.val x2 n i : Term })
    let kTop := if s.conv then kts * qs else s.k
    -- adapters (R172 to R175)
    let rank := max 1 (min 64 (x2.ext 40 0 7))
    let ids := x2.erg (x2.ext 24 0 31)
    let entry (v : Nat) : Nat := x2.erg (x2.ext 28 0 31) + v * x2.ext 32 0 32
    let zBase := x2.erg (x2.ext 36 0 31)
    let zFmt := if s.fa = 4 then 4 else if s.fa = 1 then 1 else 3
    let variant := s.variant ∧ ¬ s.conv
    let k64 := 64 * ceilDiv kTop 64
    let shared := decide (k64 + rank ≤ kts * qs)
    let sharedTile := decide (k64 + rank ≤ kt * q')
    let ax := if variant then s.m else 0
    let vs := (upto ax).filterMap (variantOf x2 ids)
    let x3 := if variant then
        (distinct vs).foldl (fun y v => (y.touch (entry v) (s.k * rowBytes s.fb rank)).touch (entry v + adaptB s.fb s.k rank) (rank * rowBytes s.fb s.n))
          (x2.touch ids (2 * s.m))
      else x2
    let tiles0 := evenTiles kts qs
    let shape0 : Shape := { tiles := tiles0, top := kTop }
    let zVal (m r : Nat) : Nat := match variantOf x3 ids m with
      | none => 0
      | some v =>
        let ts := (upto s.k).map (fun i => { idx := i, a := oa.val x3 m i, b := x3.elem s.fb (entry v + i * rowBytes s.fb rank) r : Term })
        drainElem zFmt 1 Rnd.nearest (posZero (accumulate s.order s.grp false false s.fp32 s.p s.k shape0 none ts))
    let zTab : List (List Nat) := (upto ax).map (fun m => (upto rank).map (zVal m))
    let len := ceilDiv s.m s.g
    let x4 := if variant then
        (upto (s.g * (len + s.q - 1))).foldl (fun y l =>
          let g := l / (len + s.q - 1)
          let w := l % (len + s.q - 1)
          let line := (upto (s.q * s.p)).map (fun i =>
            let sl := i / s.p
            let m := g * len + (w - sl)
            if sl ≤ w ∧ w - sl < len ∧ m < s.m ∧ i < rank then nth 0 (nth [] zTab m) i else 0)
          y.write (zBase + l * s.q * s.p * elemBytes zFmt) ((line.map (leBytes (elemBytes zFmt))).flatten)) x3
      else x3
    let terms (m n : Nat) : List Term := base m n ++
      (if variant then match variantOf x3 ids m with
        | none => []
        | some v => (upto rank).map (fun r =>
            { idx := k64 + r, a := decodeBits zFmt (nth 0 (nth [] zTab m) r),
              b := x3.elem s.fb (entry v + adaptB s.fb s.k rank + r * rowBytes s.fb s.n) n : Term })
       else [])
    let tiles := if variant ∧ ¬ shared then (tiles0.map (fun t => (t.1, min t.2 k64))) ++ [(k64, k64 + rank)] else tiles0
    let shape : Shape := { tiles := tiles, top := if variant then k64 + rank else kTop }
    let units0 := unitsOf s.stat s.m s.n s.q s.c s.g
    let units := if s.conv then
        units0.map (fun u => { u with rows := u.rows.filterMap (fun pos =>
          if pos / wp < hOut ∧ pos % wp < wOut then some (pos / wp * wOut + pos % wp) else none) })
      else units0
    let rowFn := decide (s.stat = 0 ∧ s.n ≤ s.c) || decide (s.stat = 1 ∧ s.n ≤ 512)
    let pr0 : Prod := { rows := rows, n := s.n, order := s.order, grp := s.grp, fp32 := s.fp32, os := s.stat == 1, quad := s.quad, p := s.p,
                        colsAreRows := s.stat == 2, k := s.k, shape := shape, terms := terms, units := units, rowFn := rowFn,
                        reads := [oa.region, ob.region] ++ (if variant then [(ids, 2 * s.m), (zBase, s.g * (len + s.q - 1) * s.q * s.p * elemBytes zFmt)]
                          ++ (distinct vs).map (fun v => (entry v, adaptB s.fb s.k rank + rank * rowBytes s.fb s.n)) else []) }
    -- predictor (R252 to R260)
    let pmode := let w := x4.ext 60 0 2; if w = 3 then 1 else w
    let pb := x4.ext 56 0 31
    let pred := decide (pb ≠ 0 ∧ pmode ≠ 0 ∧ s.stat = 0 ∧ ¬ s.conv ∧ ¬ s.variant) && admitsPredictor e.act
    let pa := x4.erg (pb / 64 * 64)
    let x5 := if pred then x4.touch pa 64 else x4
    let ov : Operand := { base := ergByte (x5.at pa 4 % 2 ^ 31), fmt := 3, p := s.p, slots := kc * s.q * 32, slot := statSlot s.p s.q 32 kc }
    let ua := ergByte (x5.at (pa + 4) 4 % 2 ^ 31)
    let ra := ergByte (x5.at (pa + 8) 4 % 2 ^ 31)
    let x6 := if pred then ((x5.touch ov.base ov.size).touch ua (64 * s.n)).touch ra (8 * s.n) else x5
    let zs : List (List Fp × Fp) := if pred then (upto s.m).map (predRow x6 oa ov s.k) else []
    let f32 (v : Fp) : List Byte := leBytes 4 (roundTo 1 Rnd.nearest 0 v).bits
    let x7 := if pred then (upto s.m).foldl (fun y m =>
        let z := nth ([], Fp.zero) zs m
        y.write (zBase + 144 * m) ((z.1.map f32).flatten ++ f32 z.2 ++ leBytes 12 0)) x6 else x6
    let fieldM := x7.ext 62 0 16
    let regM := max 1 (x7.c.fld (Reg.predMargin q0) 0 16)
    let mm : Fp := .fin false (if fieldM = 0 then regM else fieldM) (-16)
    let aggressive := pmode = 2
    let guardNow := pmode = 1 ∨ (fieldM = 0 ∧ !x7.c.policy.adapted)
    let isOff (m : Fp) (row col : Nat) : Bool :=
      let z := nth ([], Fp.zero) zs row
      predOff z.1 z.2 ((upto 32).map (fun j => x7.elem 3 (ua + 2 * (j * s.n)) col)) ((e.pre x7 s.n row col).getD Fp.zero)
        (decodeBits 1 (x7.at (ra + 8 * col) 4)) (decodeBits 1 (x7.at (ra + 8 * col + 4) 4)) m
    let exact (row col : Nat) : Fp := posZero (accumulate s.order s.grp false false s.fp32 s.p s.k shape (e.pre x7 s.n row col) (terms row col))
    let hd := keepHdr x7 e.keep
    let segs := segCount (ceilDiv s.m s.g) s.g
    let alog := let w := x7.ext 61 0 4; if w = 0 then 6 else min w 10
    -- per block: turned off, how many the predictor turned off before repair and left uncomputed, audited, skips, misses
    let blocks : List (List (Nat × Nat) × (Nat × Nat) × Bool × Nat × Nat) := if pred then
        (units.filter (fun u => u.block ≠ 0)).map (fun u =>
          let es := (u.rows.map (fun m => (u.cols.map (fun r => (upto (r.2 - r.1)).map (fun i => (m, r.1 + i)))).flatten)).flatten
          let byM := if aggressive then es.filter (fun t => isOff mm t.1 t.2) else []
          let offs := if guardNow then es.filter (fun t => isOff fp1 t.1 t.2) else byM
          let audited := aggressive && ((u.block - 1) * segs + u.seg) % 2 ^ alog == 0
          let miss := if audited then (byM.filter (fun t => Fp.pos (actElem e.act hd t.1 t.2 (exact t.1 t.2)).h)).length else 0
          let kept := if audited && x7.ext 60 2 1 == 1 && decide (miss ≠ 0) then [] else offs
          (kept, (offs.length, if audited then 0 else offs.length), audited, byM.length, miss)) else []
    let offAll := (blocks.map (fun b => b.1)).flatten
    let nOff := blocks.foldl (fun t b => t + b.2.1.1) 0
    let audits : List (Nat × Nat) := (blocks.filter (fun b => b.2.2.1)).map (fun b => (b.2.2.2.1, b.2.2.2.2))
    let nAud := audits.length
    let skips := audits.foldl (fun t b => t + b.1) 0
    let misses := audits.foldl (fun t b => t + b.2) 0
    let x8 := x7.core (fun c => if pred then
        let d := (((c.inc64 (Reg.predOffLo q0) nOff).incFld (Reg.predTarget q0) 16 16 nAud).inc (Reg.predSkips q0) skips).inc (Reg.predMisses q0) misses
        { d with policy := { d.policy with audits := d.policy.audits + nAud, auditLog := d.policy.auditLog ++ audits } }
      else c)
    let pr := { pr0 with off := fun m n => offAll.contains (m, n), reads := pr0.reads ++ (if pred then
        [(pa, 64), ov.region, (ua, 64 * s.n), (ra, 8 * s.n), (zBase, 144 * s.m)] else []) }
    -- clocks and multiply-accumulates of a unit
    let l := ceilDiv s.k (s.g * s.p)
    let down (sg : Nat) : Nat := if variant then
        kt * ceilDiv (distinct (((upto s.g).map (fun g => segRows s.m len g sg s.g)).flatten.filterMap (variantOf x3 ids))).length (512 / rank) else 0
    let lam := if s.quad then 256 else 512
    let passes := (if s.fp32 then 6 else 1) * orderFactor s.order s.grp s.fp32
    let extra := if variant ∧ ¬ sharedTile then 1 else 0
    let withAdapter (m : Nat) : Bool := decide (variant) && (variantOf x3 ids m).isSome
    let idle (u : Unit) : Nat := (((units.filter (fun v => v.block ≠ 0)).zip blocks).find? (fun b => b.1 == u)).elim 0 (fun b => b.2.2.1.2)
    let cost (u : Unit) : Nat × Nat :=
      let cols := u.colList.length
      (passes * unitClocks s.stat (if s.stat = 2 then s.n else s.m) s.q s.g l lam (kt + extra + if u.block = 0 then down u.seg else 0) u.seg,
        u.rows.length * cols * s.k * (if s.conv then wh * ww else 1)
          + (u.rows.filter withAdapter).length * rank * (cols + if u.block = 0 then s.k else 0) - idle u * s.k)
    let y := drain x8 { pr with fill := fillClocks prev s.stat, cost := cost } e fails
    -- CONV with VARIANT: the spec states no result (R164, R172)
    if s.conv ∧ s.variant then
      (upto rows).foldl (fun y m => y.scramble (e.cAddr + m * e.cPitch s.n) (rowBytes e.fmt s.n)) y
    else y

end Sys2Proof.Machine
end

