-- ==== Sys2Proof/Machine/Copy.lean ====
section
/-!
DEFINITION. The DMA engine: COPY, FILL, CACHE_OP and SKEW (R472 to R476).
-/
namespace Sys2Proof.Machine
open Sys2Proof

/-- Count bytes that the DMA engine moved (R484). -/
def Dx.dmaCount (x : Dx) (n : Nat) : Dx := if n = 0 then x else x.core (fun c => c.inc64 (Reg.ergDmaLo x.acc.q) n)

/-! ### COPY and FILL (R473) -/

/-- A range cut at 64 B block boundaries, as address and length. -/
def blockPieces (a n : Nat) : List (Nat × Nat) :=
  if n = 0 then []
  else (upto ((a + n - 1) / 64 - a / 64 + 1)).map (fun i =>
    let lo := max a ((a / 64 + i) * 64)
    (lo, min (a + n) ((a / 64 + i) * 64 + 64) - lo))

/-- Read a range as pieces with their bytes and whether each is poisoned, for carrying poison block for block (R498). -/
def Dx.readPieces (x : Dx) (a n : Nat) : Dx × List (Nat × List Byte × Bool) :=
  (blockPieces a n).foldl (fun (p : Dx × List (Nat × List Byte × Bool)) r =>
    let (c, st, bs) := p.1.c.read p.1.acc r.1 r.2
    ({ p.1 with c := c }.st st, p.2 ++ [(r.1, bs, decide (st ≠ 0) || c.poison.contains (r.1 / 64))])) (x, [])

/-- Write bytes with or without poison, whatever the descriptor has read. -/
def Dx.writePoison (x : Dx) (poison : Bool) (hint uses a : Nat) (bs : List Byte) : Dx :=
  let (c, st) := x.c.write { x.acc with poison := poison, hint := hint, uses := uses } a bs
  { x with c := c }.st st

/-- Write pieces, joining neighbours of equal poison so that whole blocks are written whole. -/
def Dx.writePieces (x : Dx) (hint uses : Nat) (ps : List (Nat × List Byte × Bool)) : Dx :=
  let joined := ps.foldl (fun (l : List (Nat × List Byte × Bool)) p => match l with
    | (a, bs, b) :: rest => if a + bs.length = p.1 ∧ b = p.2.2 then (a, bs ++ p.2.1, b) :: rest else p :: l
    | [] => [p]) []
  joined.reverse.foldl (fun y p => y.writePoison p.2.2 hint uses p.1 p.2.1) x

/-- COPY (R473): the whole source is read before any byte is written. -/
def dmaCopy (x : Dx) : Dx :=
  let n := x.f 28 0 32
  let rows := if x.f 32 0 24 = 0 then 1 else x.f 32 0 24
  let src (r : Nat) : Nat := x.f 40 0 48 + r * x.f 36 0 32
  let dst (r : Nat) : Nat := x.f 48 0 48 + r * x.f 56 0 32
  let (y, ps) := (upto rows).foldl (fun (p : Dx × List (Nat × List Byte × Bool)) r =>
    let (z, qs) := p.1.readPieces (src r) n
    (z, p.2 ++ qs.map (fun t => (dst r + (t.1 - src r), t.2)))) (x, [])
  (y.writePieces (x.f 24 0 2) (x.f 25 0 8) ps).dmaCount (rows * n)

/-- FILL (R473): byte i of the range is byte i mod 8 of VALUE. -/
def dmaFill (x : Dx) : Dx :=
  let n := x.f 28 0 32
  let v := x.f 56 0 64
  (x.writeHint (x.f 24 0 2) (x.f 25 0 8) (x.f 40 0 48) ((upto n).map (fun i => BitVec.ofNat 8 (field v (8 * (i % 8)) 8)))).dmaCount n

/-! ### CACHE_OP (R474) -/

/-- The DRAM lines a CACHE_OP range touches, by line number. -/
def cacheLines (a n : Nat) : List Nat :=
  if n = 0 then [] else ((upto ((a + n - 1) / 128 - a / 128 + 1)).map (· + a / 128)).filter (fun l => decide (l * 128 < dramEnd))

/-- The merge entries of a line perform their read-modify-writes. -/
def Core.settleLine (c : Core) (tag : Nat) : Core := (c.merge.filter (fun e => e.word / 16 == tag)).foldl Core.closeMerge c

/-- Change a present line in its place in the order of use. -/
def Core.setLine (c : Core) (tag : Nat) (f : Line → Line) : Core := { c with lines := c.lines.map (fun l => if l.tag == tag then f l else l) }

/-- Run an operation on every line of a range, with the line's address. -/
def Dx.onLines (x : Dx) (f : Core → Nat → Core) : Dx :=
  x.core (fun c => (cacheLines (x.f 40 0 48) (x.f 28 0 32)).foldl f c)

/-- OP 0: fetch absent lines and apply HINT and USES as a write would. What the fetch finds is the descriptor's status (R482, R496). DEDUCED, log entry 52. -/
def cachePrefetch (x : Dx) : Dx :=
  (cacheLines (x.f 40 0 48) (x.f 28 0 32)).foldl (fun (x : Dx) l =>
    let a := l * 128
    let (c1, st) := if (x.c.line? a).isSome then (x.c, 0) else x.c.touch { x.acc with strand := none } a 128
    ({ x with c := c1.hintLine l (x.f 24 0 2) (x.f 25 0 8) }).st st) x

/-- Write back a present line and keep it. -/
def Core.cleanLine (c : Core) (tag : Nat) : Core :=
  let c1 := c.settleLine tag
  match c1.line? (tag * 128) with
  | some l => (c1.writeBack l).setLine tag (fun l => { l with dirty := 0 })
  | none => c1

/-- OP 1: write dirty sectors and keep the lines. DEDUCED, log entry 52. -/
def cacheWriteback (x : Dx) : Dx := x.onLines Core.cleanLine

/-- OP 2: invalidate lines wholly inside the range without write-back; write back and keep the partly covered ones. -/
def cacheDiscard (x : Dx) : Dx :=
  let a := x.f 40 0 48
  let n := x.f 28 0 32
  x.onLines (fun c l =>
    if a ≤ l * 128 ∧ l * 128 + 128 ≤ a + n then
      let c1 := c.settleLine l
      match c1.line? (l * 128) with
      | some e => (c1.revert e).dropLine l
      | none => c1
    else c.cleanLine l)

/-- OP 3: every KEEP line gets hint 0. -/
def cacheUnpin (x : Dx) : Dx := x.onLines (fun c l => c.setLine l (fun e => if e.hint = 2#2 then { e with hint := 0 } else e))

/-- OP 4: set the hint and count of present lines only. -/
def cacheSetHint (x : Dx) : Dx :=
  let hint := x.f 24 0 2
  let uses := x.f 25 0 8
  x.onLines (fun c l =>
    if (c.line? (l * 128)).isNone then c
    else if hint = 0 ∨ (hint = 3 ∧ uses = 0) then c.setLine l (fun e => { e with hint := 0, uses := 0, users := [] })
    else c.applyHint (homeQuarter c (l * 128)) (l * 128) hint uses)

/-! ### SKEW (R475, R476) -/

/-- The operand a SKEW writes: STAT of its product, and whether its rows are the reduction index. -/
def skewShape (x : Dx) : MatShape × Bool :=
  let op := if x.f 24 0 3 ≥ 6 then 0 else x.f 24 0 3
  let stat := if op ≤ 1 then 0 else if op ≤ 3 then 2 else 1
  let fmt := opFmt (x.f 26 0 3)
  let s := matShape stat (x.f 25 4 2) 2 0 0 0 3 3 (x.f 28 0 24) (x.f 32 0 24) (x.f 36 0 24) 0 0 false
  -- p follows P2, not the destination's format, so the split is formed with it
  let p := x.f 25 3 1 + 1
  let k := x.f 36 0 24
  let ok2 := decide (k ≤ 256 * p)
  let c1 := if stat = 2 then decide (s.m ≤ 256) else decide (s.n ≤ 256)
  let sp0 := x.f 25 4 2
  let split := if stat = 1 then (if sp0 = 3 ∧ s.m ≤ 256 ∧ s.n ≤ 256 then 3 else 0)
    else if sp0 = 1 then (if c1 then 1 else 0) else if sp0 = 2 then (if ok2 then 2 else 0)
    else if sp0 = 3 then (if c1 && ok2 then 3 else 0) else 0
  ({ s with p := p, fa := fmt, fb := fmt, q := if split = 2 ∨ split = 3 then 256 else 512, c := if split = 1 ∨ split = 3 then 256 else 512,
            g := if split = 0 then 1 else if split = 3 then 4 else 2 }, op = 1 ∨ op = 2 ∨ op = 5)

/-- SKEW (R475, R476): element (o, k) of the operand, `o` its outer and `k` its reduction index. DEDUCED, log entry 36. -/
def dmaSkew (x0 : Dx) : Dx :=
  let (s, isB) := skewShape x0
  let conv := x0.f 24 4 1 = 1 ∧ (x0.f 24 0 3 = 0 ∨ x0.f 24 0 3 ≥ 6)
  let sf := x0.f 25 0 3
  let fcb := x0.f 26 0 8
  let fmt := s.fa
  let dst := x0.erg (x0.f 48 0 31)
  let src := x0.f 40 0 48
  let pitch := x0.f 52 0 32
  let outer := if isB then s.n else s.m
  let stride := x0.f 58 0 2 + 1
  let phase := x0.f 58 2 2 * stride + x0.f 58 4 2
  let kc := ceilDiv s.k (s.p * s.q)
  let lines := s.m + s.q - 1
  let phaseSlots := kc * lines * s.q
  let o : Operand :=
    if conv then { operandX s (dst - phase * phaseSlots * (s.p * elemBytes (if fmt = 7 then 6 else fmt))) stride with
                   slot := fun m k => (operandX s 0 stride).slot (phase * lines + m) k }
    else if isB then operandB s dst kc else operandA s dst
  -- where the source element stands: the row's address and the index within it
  let at_ (m k : Nat) : Nat × Nat :=
    if conv then
      let wp := x0.f 56 0 16
      let y := stride * (m / wp) + x0.f 58 2 2
      let px := stride * (m % wp) + x0.f 58 4 2
      (src + (y * x0.f 60 0 16 + px) * pitch, k)
    else
      let r := if isB then k else m
      let c := if isB then m else k
      if x0.f 24 3 1 = 1 then (src + c * pitch, r) else (src + r * pitch, c)
  -- read every source row whole
  let cols := if conv then s.k else if (x0.f 24 3 1 = 1) ≠ isB then outer else s.k
  let rowsAt : List Nat :=
    if conv then (upto outer).map (fun m => (at_ m 0).1)
    else if (x0.f 24 3 1 = 1) ≠ isB then (upto s.k).map (fun k => (at_ 0 k).1) else (upto outer).map (fun m => (at_ m 0).1)
  let x1 := rowsAt.foldl (fun y a => y.touch a (rowBytes sf cols)) x0
  let v (m k : Nat) : Fp := let p := at_ m k; x1.elem sf p.1 p.2
  let ulp (m k : Nat) : Int :=
    let p := at_ m k
    if sf = 7 then (x1.at (p.1 + 33 * (p.2 / 32)) 1 : Int) - 133 else srcUlpOf sf (v m k)
  -- the operand's row-major index; for B8 its blocks lie along the reduction dimension
  let idx (m k : Nat) : Nat := if isB then k * outer + m else m * s.k + k
  let padK := 32 * ceilDiv s.k 32
  let gi (m k : Nat) : Nat := if fmt = 7 then m * padK + k else idx m k
  let total := if fmt = 7 then outer * padK / 4 else ceilDiv (outer * s.k) 4
  let (x2, d) := x1.draws fcb (fun _ => 132) total (upto total)
  let x3 := (upto outer).foldl (fun y m => (upto s.k).foldl (fun y k => if (v m k).special then y.flagNaN (idx m k) else y) y) x2
  let sz := if fmt = 7 then 1 else elemBytes fmt
  let blocks : SMap (Nat × List Nat) := if fmt = 7 then
      ((upto outer).map (fun m => (upto (ceilDiv s.k 32)).map (fun b =>
        let xs := (upto 32).map (fun i => if 32 * b + i < s.k then v m (32 * b + i) else Fp.zero)
        (m * ceilDiv s.k 32 + b, encodeB8 (fun i => d.rnd (gi m (32 * b + i))) (fun i => if 32 * b + i < s.k then ulp m (32 * b + i) else 0) xs)))).flatten
    else []
  let bits (m k : Nat) : Nat :=
    if fmt = 7 then nth 0 (sget (0, []) blocks (m * ceilDiv s.k 32 + k / 32)).2 (k % 32)
    else if sf = 7 then (roundTo fmt (d.rnd (gi m k)) (ulp m k) (v m k)).bits
    else let p := at_ m k; (convBits sf fmt (d.rnd (gi m k)) (x1.at (p.1 + p.2 * elemBytes sf) (elemBytes sf))).bits
  -- the slot region, zero where no element lies, and the exponent plane
  let cells : SMap Nat := ((upto outer).map (fun m => (upto s.k).map (fun k => (o.slot m k * s.p + k % s.p, bits m k)))).flatten.foldl
    (fun t e => sput t e.1 e.2) []
  let exps : SMap Nat := if fmt = 7 then
      ((upto outer).map (fun m => (upto s.k).map (fun k => (o.slot m k, (sget (0, []) blocks (m * ceilDiv s.k 32 + k / 32)).1)))).flatten.foldl
        (fun t e => sput t e.1 e.2) []
    else []
  let first := if conv then phase * phaseSlots else 0
  let slots := if conv then phaseSlots else o.slots
  let y := x3.write (o.base + first * s.p * sz) ((upto (slots * s.p)).map (fun i => leBytes sz (sget 0 cells (first * s.p + i)))).flatten
  let y := if fmt = 7 then y.write (o.base + o.plane + first) ((upto slots).map (fun i => BitVec.ofNat 8 (sget 0 exps (first + i)))) else y
  y.dmaCount (slots * s.p * sz + if fmt = 7 then slots else 0)

end Sys2Proof.Machine
end

