-- ==== Sys2Proof/Machine/Fec.lean ====
section
/-!
DEFINITION. The codewords of a Seif port (R523, R524, R526): the Reed–Solomon code RS(544,514) over GF(2¹⁰), the wavelengths its symbols travel on, and
the five flits and the count that a codeword carries. What the spec leaves to IEEE 802.3 clause 119 is PRESUMED, log entry 110: the field polynomial
x¹⁰ + x³ + 1, the generator with roots α⁰ to α²⁹, and the order of bits in symbols.
-/
namespace Sys2Proof.Machine
open Sys2Proof

/-- The generator polynomial times α⁰ to α⁹: its coefficients of x⁰ to x²⁹ in 10 bits each, the lowest first. -/
def rsRows : List Nat :=
  [1144916152162860818524926937046453305919060087459518357676801354868066947901585202334206475,
   236899468444316019627088935798238565564618156108739002073625301540749733797815256911328287,
   473798936888632039254176175081278532965805377535771387887608147619502929345486815448288318,
   947595915947945193115946594626593638079735863198167788526042269812386900391480939576334460,
   1895191830015426855266560038443628879141105157543720754044355015818379935855278032276231416,
   1769277583804556992091619404530482080378409924596551239544357812278144856063015606015896048,
   1519420871836524860852284197922286608300648988317977550781966510215511468244445980480787424,
   1017735669327216532451184353183288757525576158697998780180246893209681067917457969379845065,
   2033468445114576694205000269960901721738316026178390815509634379762824647131246942058801051,
   2015973905445874390768798394685105548622982258631767745843180909972882568111145247016405823]

/-- One step of the division by the generator: the remainder of 30 symbols takes in the next symbol of the message. -/
def rsStep (r m : Nat) : Nat :=
  let f := m % 1024 ^^^ r >>> 290
  (rsRows.foldl (fun (p : Nat × Nat) g => (if p.2 % 2 = 1 then p.1 ^^^ g else p.1, p.2 / 2)) ((r <<< 10) % 2 ^ 300, f)).1

/-- The code of a message of 514 symbols: the message, then 30 parity symbols (R523). -/
def rsEncode (ms : List Nat) : List Nat :=
  let r := ms.foldl rsStep 0
  ms ++ (upto 30).map (fun i => field r (10 * (29 - i)) 10)

/-- The codeword of five flits of 128 bytes and 20 bits of codeword count (R523). -/
def codewordOf (w : Codeword) : List Nat :=
  let n := ofLE (w.flits.take 640) + w.count % 2 ^ 20 * 2 ^ 5120
  rsEncode ((upto 514).map (fun i => field n (10 * i) 10))

/-- The symbols of a codeword by wavelength: symbol i travels on wavelength i mod 8 (R523). -/
def stripe (cw : List Nat) : List (List Nat) := (upto 8).map (fun w => (upto 68).map (fun i => nth 0 cw (8 * i + w)))

/-- The symbols of a codeword in order, from the symbols of the eight wavelengths. -/
def unstripe (waves : List (List Nat)) : List Nat :=
  ((upto 68).map (fun i => (upto 8).map (fun w => nth 0 (nth [] waves w) i))).flatten

/-- Symbols in which what arrived on the wavelengths differs from a codeword. -/
def symbolErrors (waves : List (List Nat)) (cw : List Nat) : Nat := (((unstripe waves).zip cw).filter (fun p => p.1 % 1024 != p.2)).length

/-- One bit into the CRC-8 of a flit header (R526), the highest first. -/
def crc8Step (r b : Nat) : Nat := let t := r * 2 % 256; if (r / 128 + b) % 2 = 1 then t ^^^ 0x07 else t

/-- The CRC-8 of bits [23:0] of a flit header, x⁸ + x² + x + 1 (R526). PRESUMED, log entry 110. -/
def crc8 (h : Nat) : Nat := (upto 24).foldl (fun r i => crc8Step r (field h (23 - i) 1)) 0

/-- One byte into CRC-32 (R528). -/
def crc32Step (r : Nat) (b : Byte) : Nat := iter (fun r => if r % 2 = 1 then (r / 2) ^^^ 0xEDB88320 else r / 2) 8 (r ^^^ b.toNat)

/-- The CRC-32 of bytes, the polynomial of IEEE 802.3 (R528). PRESUMED, log entry 110. -/
def crc32 (bs : List Byte) : Nat := bs.foldl crc32Step (2 ^ 32 - 1) ^^^ (2 ^ 32 - 1)

/-- Bytes 0 to 9 of a packet header (R528). -/
def packetHead (m : Packet) : List Byte :=
  leBytes 2 m.dst ++ leBytes 2 m.src ++ leBytes 1 m.kind ++ leBytes 1 (b2n m.pin.isSome + 2 * (m.flow % 4)) ++ leBytes 1 (m.pin.getD 0 % 32) ++ leBytes 1 0 ++ leBytes 2 m.blocks

/-- The packet header (R528). -/
def packetHeader (m : Packet) : List Byte := packetHead m ++ leBytes 2 m.hopseq ++ leBytes 4 m.crc ++ leBytes 8 m.poison ++ leBytes 8 m.tag

/-- The CRC over bytes 0 to 9, 16 to 31 and the data (R528). -/
def packetCrc (m : Packet) : Nat := crc32 (packetHead m ++ leBytes 8 m.poison ++ leBytes 8 m.tag ++ m.data)

/-- Whether a packet's CRC holds (R530). -/
def packetGood (m : Packet) : Bool := m.crc == packetCrc m

/-- A packet on its next hop: PIN has served, and the CRC follows it; one that failed goes on failing (R542, R530). DEDUCED, log entry 127. -/
def packetOn (m : Packet) : Packet := let q := { m with pin := none }; { q with crc := m.crc ^^^ packetCrc m ^^^ packetCrc q }

/-- The packet header at the start of the payload of flit `i` of a codeword, where the flit begins a packet (R526, R528). -/
def flitPacket (flits : List Byte) (i : Nat) : Nat := ofLE ((flits.drop (128 * i + 4)).take 32)

/-- The header of flit `i` of a codeword. -/
def flitHeader (flits : List Byte) (i : Nat) : Nat := ofLE ((flits.drop (128 * i)).take 4)

/-- KIND of a flit: 0 idle, 1 data, 2 link control, 3 abort end (R526). -/
def flitKind (h : Nat) : Nat := field h 16 2

/-- A flit's header fields (R526). -/
def flitOf (h : Nat) : Flit :=
  { seq := field h 0 12, wadi := field h 12 4, cls := field h 20 1, sop := bit h 18, eop := bit h 19, hchk := crc8 h == field h 24 8 }

end Sys2Proof.Machine
end

