-- ==== Sys2Proof/Machine/Seif.lean ====
section
/-!
DEFINITION. The Seif links (R519 to R556): ports, routing, credits, replay, loss and training. Link contents are kept as packets and flit counts;
the flits of this device's own messages are counted by a free value where no rule gives the packet's length.
-/
namespace Sys2Proof.Machine
open Sys2Proof

/-! ### Ports and their registers -/

/-- The key of a port's banked register: port 4·i + q is instance i of quarter q's page (R520, R555). -/
def portKey (p : Nat) (r : Nat → Nat) : Nat := bankKey (p / 4) (r (p % 4))

/-- A port's link state. -/
def Core.port (c : Core) (p : Nat) : PortSt := nth {} c.seif.ports p

/-- Change a port's link state. -/
def Core.setPort (c : Core) (p : Nat) (f : PortSt → PortSt) : Core :=
  { c with seif := { c.seif with ports := setNth c.seif.ports p (f (c.port p)) } }

/-- STATE of a port: 0 DISABLED, 1 TRAINING, 2 UP, 3 DOWN, 4 MISWIRED. -/
def Core.portState (c : Core) (p : Nat) : Nat := c.fld (portKey p Reg.seifPortState) 0 3

/-- Whether a port is UP. -/
def Core.up? (c : Core) (p : Nat) : Bool := c.portState p == 2

/-- Whether a port has trained: it is UP or MISWIRED, and carries link control flits and wadi 1 (R552). -/
def Core.trained (c : Core) (p : Nat) : Bool := c.portState p == 2 || c.portState p == 4

/-- EN of a port. -/
def Core.portEn (c : Core) (p : Nat) : Bool := c.fld (portKey p Reg.seifPortCtrl) 0 1 == 1

/-- The photonic engine, and laser input, of a port (R520). -/
def engineOf (p : Nat) : Nat := 2 * (p % 4) + p / 4 % 2

/-- Whether a port transmits into its own receiver (R555); what it sends then comes back as the commands of what arrives. DESIGN CHOICE, log entry 61. -/
def Core.looped (c : Core) (p : Nat) : Bool := c.fld (portKey p Reg.seifPortCtrl) 2 1 == 1

/-- Send a message on a port at once. -/
def Core.put (c : Core) (p : Nat) (b : Body) : Core := { c with wire := c.wire ++ [{ dst := 0, wadi := 0, body := b, port := some p, loop := c.looped p }] }

/-- The port that stands for a role (R554): a spare in its place while it is substituted. -/
def Core.roleTaker (c : Core) (p : Nat) : Nat :=
  let s := c.reg (Reg.seifSpare 0)
  if bit s 5 && field s 0 5 == p then 30 else if bit s 13 && field s 8 5 == p then 31 else p

/-- The role a port plays: its own number, or the port it stands for. -/
def Core.portRole (c : Core) (p : Nat) : Nat :=
  let s := c.reg (Reg.seifSpare 0)
  if p = 30 then (if bit s 5 then field s 0 5 else 30) else if p = 31 then (if bit s 13 then field s 8 5 else 31) else p

/-! ### Credits (R531, R532) -/

/-- Allotment of a wadi and class; below 16 acts as 16. -/
def PortSt.quota (x : PortSt) (k : Nat) : Nat := max 16 (sget 256 x.allot k)

/-- Whether the credits of a wadi are withheld because a collective packet waits in the port's receive buffer (R566). -/
def Core.withheld (c : Core) (p wadi : Nat) : Bool := c.coll.stuck.any (fun e => e.port == p && e.pkt.wadi == wadi)

/-- Grant the neighbour what an allotment leaves free, on a port that is in service (R532, R551). -/
def Core.grant (c : Core) (p k : Nat) : Core :=
  if c.trained p = false ∨ c.withheld p (k / 2) = true then c else
  let x := c.port p
  let owed := x.quota k - (sget 0 x.held k + sget 0 x.granted k)
  if owed = 0 then c
  else (c.setPort p (fun x => { x with granted := sset 0 x.granted k (sget 0 x.granted k + owed) })).put p (.linkCredit (k / 2) (k % 2) owed)

/-- Flits leave the receive buffer (R531). -/
def Core.freeFlits (c : Core) (p k n : Nat) : Core :=
  (c.setPort p (fun x => { x with held := sset 0 x.held k (sget 0 x.held k - n) })).grant p k

/-! ### Sending (R534, R539) -/

/-- Whether a FENCED device may send a message (R622): RESIGN, wadi 1 traffic, and what goes to the host. -/
def fencedSends (m : Msg) : Bool := match m.body with | .resign => true | _ => m.wadi == 1

/-- The oldest packet of a wadi with flits to send, when a credit of its class is held and the replay buffer has room. `fenced` tells that the device is FENCED (R622). -/
def PortSt.nextOf (x : PortSt) (fenced : Bool) (w : Nat) : Option TxEntry :=
  match x.entries.find? (fun e => e.msg.wadi == w && e.unsent != 0 && (!fenced || fencedSends e.msg)) with
  | some e => if sget 0 x.credits (w * 2 + e.cls) ≠ 0 ∧ x.replay.length < 2048 then some e else none
  | none => none

/-- The wadi that gets the next flit slot (R539); a MISWIRED port carries only wadi 1 (R552). -/
def PortSt.arbiter (x : PortSt) (fenced miswired : Bool) : Option TxEntry :=
  match x.nextOf fenced 1 with
  | some e => some e
  | none => if miswired then none else match x.nextOf fenced 0 with
    | some e => some e
    | none => ((upto 14).map (fun i => 2 + (x.served - 2 + 1 + i) % 14)).findSome? (x.nextOf fenced)

/-- Send one flit: it leaves the receive buffer that held it (R531). A packet's last flit puts its message on the wire, and its bytes count as sent (R555). DESIGN CHOICE, log
entry 61. -/
def Core.sendFlit (c : Core) (p : Nat) : Core :=
  let x := c.port p
  match x.arbiter (c.jobState == 3) (c.portState p == 4) with
  | none => c
  | some e =>
    let k := e.msg.wadi * 2 + e.cls
    let x1 := { x with credits := sset 0 x.credits k (sget 0 x.credits k - 1), txSeq := (x.txSeq + 1) % 4096,
                       replay := x.replay ++ [(x.txSeq, e.id)], served := if e.msg.wadi ≥ 2 then e.msg.wadi else x.served,
                       entries := x.entries.map (fun t => if t.id = e.id then { t with unsent := t.unsent - 1, entry := t.entry.map (fun r => (r.1, r.2 - 1)) } else t) }
    let c1 := c.setPort p (fun _ => x1)
    let c2 := match e.entry with
      | some (r, n) => if n = 0 then c1 else c1.freeFlits r k 1
      | none => c1
    if e.unsent ≠ 1 then c2
    else { c2 with wire := c2.wire ++ [{ e.msg with port := some p, loop := c2.looped p }] }.inc64 (portKey p Reg.seifTxLo) e.bytes

/-- Send what credits and the replay buffer allow. A node without an identifier sends no packet (R541). -/
def Core.drainPort (c : Core) (p : Nat) : Core :=
  if c.trained p = true ∧ c.node ≠ 0xFFFF then
    iter (fun d => d.sendFlit p) ((c.port p).entries.foldl (fun n e => n + e.unsent) 0) c
  else c

/-- The group of a port for HOPSEQ (R535). -/
def portGroup (role : Nat) : Nat := if role < 24 then role / 4 else if role < 28 then 7 + (role - 24) else 6

/-- A packet with its HOPSEQ (R535). -/
def numbered (m : Msg) (h : Nat) : Msg :=
  { m with port := none, hopseq := some h, body := match m.body with | .packet q => .packet { q with hopseq := h } | b => b }

/-- Put a packet at the end of a port's queue, with its HOPSEQ (R535). DESIGN CHOICE, log entries 61, 62. -/
def Core.enqueue (c : Core) (p : Nat) (m : Msg) (cls flits bytes : Nat) (entry : Option (Nat × Nat)) : Core :=
  let k := portGroup (c.portRole p) * 16 + m.wadi
  let h := sget 0 c.seif.hopTx k
  let m := numbered m h
  let c1 := { c with seif := { c.seif with hopTx := sset 0 c.seif.hopTx k ((h + 1) % 65536) } }
  let c2 := c1.setPort p (fun x => { x with entries := x.entries ++ [{ id := x.nextId, msg := m, cls := cls, flits := flits, unsent := flits, entry := entry, bytes := bytes }],
                                            nextId := x.nextId + 1 })
  c2.drainPort p

/-! ### Routing (R541 to R547) -/

/-- Where a packet goes: to this device, out on a port in a class, as its entry of the route table says, or nowhere. -/
inductive Route where
  | own
  | exits (port cls : Nat)
  | table
  | lost
deriving DecidableEq, Repr

/-- A node's torus coordinates (R541), by dimension. -/
def coordOf (node dim : Nat) : Nat := if dim = 0 then field node 0 5 else if dim = 1 then field node 5 5 else field node 10 6

/-- Size of a torus dimension (R555). -/
def Core.dimOf (c : Core) (dim : Nat) : Nat :=
  let t := c.reg (Reg.seifTopo 0)
  if dim = 0 then field t 0 5 + 1 else if dim = 1 then field t 5 5 + 1 else min 47 (field t 10 6) + 1

/-- Whether a node lies in the torus. -/
def Core.inTorus (c : Core) (node : Nat) : Bool := (upto 3).all (fun d => decide (coordOf node d < c.dimOf d))

/-- A port of a direction that is UP, starting at a plane (R544). -/
def Core.dirPort (c : Core) (dir plane : Nat) : Option Nat :=
  ((upto 4).map (fun i => c.roleTaker (4 * dir + (plane + i) % 4))).find? c.up?

/-- Torus routing of R543 and R544 toward a node, from a class of an earlier hop in dimension `prev`. -/
def Core.torusRoute (c : Core) (dst plane cls : Nat) (prev : Option Nat) : Route :=
  match firstN 3 (fun d => decide (1 < c.dimOf d) && coordOf dst d != coordOf c.node d) with
  | none => .lost
  | some d =>
    let n := c.dimOf d
    let f := (coordOf dst d + n - coordOf c.node d) % n
    let neg := if 2 * f ≤ n then 0 else 1
    let go (s : Nat) : Option Route := (c.dirPort (2 * d + s) plane).map (fun p =>
      let at_ := coordOf c.node d
      let cross := if s = 0 then decide (at_ = n - 1) else decide (at_ = 0)
      .exits p (if cross then 1 else if prev = some d then cls else 0))
    match go neg with
    | some r => r
    | none => (go (1 - neg)).getD .lost

/-- The route-table entry of a node (R545), if valid. -/
def Core.routeEntry (c : Core) (dst : Nat) : Option Nat :=
  let base := c.reg (Reg.seifRoute 0)
  if base = 0 then none
  else
    let e := c.numAt none (ergAddr 0 (base % 2 ^ 29 / 65536 * 65536 + dst)) 1
    if bit e 7 then some e else none

/-- The way out by a named port (R542, R547), or by the spare that stands for it (R554). The ports that stand as twin ports carry wadis 0, 1 and 14 only (R546). -/
def Core.exitBy (c : Core) (named wadi cls : Nat) : Route :=
  let p := c.roleTaker named
  let r := c.portRole p
  let usable := c.up? p || (c.portState p == 4 && wadi == 1)
  if usable && !((r == 28 || r == 29) && !(wadi == 0 || wadi == 1 || wadi == 14)) then .exits p cls else .lost

/-- The twin port that a packet of the twin path takes, if one is UP (R546). -/
def Core.twinPort (c : Core) (flow : Nat) : Option Nat := [c.roleTaker (28 + flow % 2), c.roleTaker (29 - flow % 2)].find? c.up?

/-- Routing from rule 3 of R542 onward. `entry` is the role of the port it came in on. -/
def Core.onward (c : Core) (dst src wadi flow cls : Nat) (entry : Option Nat) : Route :=
  if bit (c.reg (Reg.seifTopo 0)) 16 && c.inTorus dst then
    let plane := match entry with
      | some r => r % 4
      | none => (field src 0 2 ^^^ field dst 0 2 ^^^ field wadi 0 2 ^^^ flow % 4) % 4
    c.torusRoute dst plane cls (match entry with | some r => if r < 24 then some (r / 8) else none | none => none)
  else .table

/-- Route a packet (R542, R546, R547). -/
def Core.route (c : Core) (dst src wadi flow cls : Nat) (pin entry : Option Nat) : Route :=
  if c.isMe dst then .own
  else match pin with
    | some p => c.exitBy p wadi cls
    | none => match if wadi = 14 ∧ dst = c.twin then c.twinPort flow else none with
      | some p => .exits p 0
      | none => c.onward dst src wadi flow cls entry

/-- Rule 4 of R542: the entry of the route table is read (R490, R545). -/
def Core.byTable (c : Core) (dst wadi cls : Nat) : Core × Route :=
  let base := c.reg (Reg.seifRoute 0)
  let d := if base = 0 then c else (c.touch { q := 0, src := 5 } (ergAddr 0 (base % 2 ^ 29 / 65536 * 65536 + dst)) 1).1
  (d, match d.routeEntry dst with
    | some e => d.exitBy (e % 32) wadi (if bit e 5 then 1 else cls)
    | none => .lost)

/-- Whether a message goes to the host or the board and not over a link. -/
def toHost : Body → Bool
  | .pcieWrite .. | .pcieRead .. | .msix .. | .readCompletion .. | .unsupported .. | .smbus .. | .avsWrite .. => true
  | _ => false

/-- A packet found unreachable on this device (R548, R556): counted at a port. DESIGN CHOICE, log entry 62. -/
def Core.dropPacket (c : Core) (p : Nat) : Core := (c.inc (portKey p Reg.seifDrop) 1).raise (qpage (p % 4) 8) 4

/-- A destination after the alias table (R626), once this device has written an entry of it; the entry is read (R490). DEDUCED, log entry 64. -/
def Core.aliasOf (c : Core) (dst : Nat) : Core × Nat :=
  if !c.job.aliased then (c, dst)
  else
    let a := ergAddr 0 (c.fld Reg.jobAlias 0 31 + 4 * dst)
    let d := (c.touch { q := 0, src := 5 } a 4).1
    let e := d.numAt none a 4
    (d, if e.testBit 31 then e % 65536 else dst)

/-- Whether a message takes the twin path of R546 though it travels on another wadi: the twin heartbeat (R620), and what else only a twin is told. DESIGN CHOICE, log entry 126. -/
def twinPath : Body → Bool
  | .twinHeartbeat | .formExchange _ | .decisionToTwin _ | .decisionAck .. | .resign => true
  | _ => false

/-- Whether a message of this device goes to its twin by the path of R546, whichever node the alias table and the adoption have put in its place (R606, R620, R633). -/
def Core.direct (c : Core) (m : Msg) : Bool :=
  match m.body with
  | .packet _ => false
  | b => m.dst == c.twin && (m.wadi == 14 || twinPath b)

/-- Route a message of this device, or a packet it forwards, after the alias table (R542, R546, R626). `entry` is the role of the port it came in on. -/
def Core.routed (c : Core) (m : Msg) (flow cls : Nat) (entry : Option Nat) : Core × Route :=
  let src := match m.body with | .packet q => q.src | _ => m.src.getD c.node
  if c.direct m then
    match c.twinPort flow with
    | some p => (c, .exits p 0)
    | none => match c.onward m.dst src m.wadi flow cls entry with
      | .table => c.byTable m.dst m.wadi cls
      | r => (c, r)
  else
    let (d, dst) := c.aliasOf m.dst
    match d.route dst src m.wadi flow cls m.port entry with
    | .table => d.byTable dst m.wadi cls
    | r => (d, r)

/-- Data blocks of a message's packet, where a rule gives them (R528, R565); a collective block comes before its data. -/
def bodyBlocks : Body → Option Nat
  | .collData p => some (1 + ceilDiv p.data.length 64)
  | .packet q => some q.blocks
  | _ => none

/-- Flits of a packet: a 32-byte header and 64 B blocks in payloads of 124 B (R526, R528). -/
def packetFlits (blocks : Nat) : Nat := ceilDiv (32 + 64 * blocks) 124

/-- Send one message of this device. FLOW and the number of data blocks are free where no rule gives them. A node without an identifier sends nothing (R541). -/
def Core.sendOne (c : Core) (m : Msg) : Core :=
  if toHost m.body then { c with wire := c.wire ++ [m] }
  else if c.node = 0xFFFF ∨ (c.jobState = 3 ∧ !fencedSends m) then c
  else
    let (c1, v) := c.fresh
    let flow := m.flow.getD (v % 4)
    let (c2, len) := c1.fresh
    let blocks := (bodyBlocks m.body).getD (len % 65)
    match c2.routed m flow 0 none with
    | (d, .exits p cls) => d.enqueue p m cls (packetFlits blocks) (32 + 64 * blocks) none
    | (d, .own) => { d with wire := d.wire ++ [m] }
    | (d, _) =>
      let plane := (field (m.src.getD d.node) 0 2 ^^^ field m.dst 0 2 ^^^ field m.wadi 0 2 ^^^ flow % 4) % 4
      let e := d.dropPacket plane
      match m.strand with
      | some k => { e with linkLost := insN e.linkLost k }
      | none => e

/-- Route the messages that the running command produced. -/
def Core.flushOut (c : Core) : Core := c.out.foldl Core.sendOne { c with out := [] }

/-! ### Port loss (R536, R537) -/

/-- A packet that a lost port held goes to its fallback port: after packets already begun there and those that have moved before it, whose numbers start at `base`, and ahead of later
ones. One that moves to another group is numbered there (R535). -/
def Core.moveTo (c : Core) (p r cls : Nat) (base : Nat) (e : TxEntry) : Core :=
  let g := portGroup (c.portRole r) * 16 + e.msg.wadi
  let moved := decide (portGroup (c.portRole r) ≠ portGroup (c.portRole p))
  let h := sget 0 c.seif.hopTx g
  let d := if moved then { c with seif := { c.seif with hopTx := sset 0 c.seif.hopTx g ((h + 1) % 65536) } } else c
  d.setPort r (fun y =>
    let first (t : TxEntry) : Bool := t.unsent == 0 || t.unsent != t.flits || decide (base ≤ t.id)
    { y with nextId := y.nextId + 1,
             entries := y.entries.filter first ++ [{ e with msg := if moved then numbered e.msg h else e.msg, id := y.nextId, cls := cls, unsent := e.flits }] ++ y.entries.filter (fun t => !first t) })

/-- A packet that a lost port held finds no way (R548): its sender here hears of it, the sender of a forwarded one gets a notice, and its flits leave the receive buffer. -/
def Core.stranded (c : Core) (p : Nat) (e : TxEntry) : Core :=
  let c1 := c.dropPacket p
  let c2 := match e.entry with | some (r, n) => c1.freeFlits r (e.msg.wadi * 2 + e.cls) n | none => c1
  match e.msg.body, e.msg.strand with
  | .packet q, _ => { c2 with out := c2.out ++ [{ dst := q.src, wadi := 0, body := .unreachable q.dst q.wadi q.tag }] }
  | _, some k => { c2 with linkLost := insN c2.linkLost k }
  | _, none => c2

/-- Move a port's packets in order to the fallback ports of R544, ahead of later packets of the same flows (R537); what the fallback ports can send then leaves. Flits held for packets
still arriving leave the buffer. -/
def Core.evacuate (c : Core) (p : Nat) : Core :=
  let x := c.port p
  let pend := x.entries.filter (fun e => e.unsent != 0 || x.replay.any (fun r => r.2 == e.id))
  let c1 := c.setPort p (fun x => { x with entries := [], replay := [], asm := [], stallSeq := none, stalls := 0, credits := [], granted := [], rxWait := false })
  -- partly received packets are gone with their flits
  let c2 := x.asm.foldl (fun d a => d.setPort p (fun y => { y with held := sset 0 y.held (a.1 * 2 + a.2.cls) (sget 0 y.held (a.1 * 2 + a.2.cls) - a.2.kept) })) c1
  let base (r : Nat) : Nat := (c2.port r).nextId
  let c3 := pend.foldl (fun d e =>
    let flow := match e.msg.body with | .packet q => q.flow | _ => e.msg.flow.getD 0
    match d.routed e.msg flow e.cls (some (d.portRole p)) with
    | (d, .exits r cls) => if r = p then d else d.moveTo p r cls (base r) e
    | (d, _) => d.stranded p e) c2
  (upto 32).foldl Core.drainPort c3

/-- A port goes DOWN for a reason (R536, R537, R553). DEDUCED, log entry 63. -/
def Core.portDown (c : Core) (p reason : Nat) : Core :=
  let k := portKey p Reg.seifPortState
  let c1 := ((c.setFld k 0 3 3).setFld k 3 4 reason).inc (portKey p Reg.seifDowns) 1
  let c2 := (c1.raise (qpage (p % 4) 8) 0).setPort p (fun x => { x with trainDue := c1.up + 10 ^ 7 })
  c2.evacuate p

/-- A port begins training (R551, R555). -/
def Core.beginTrain (c : Core) (p : Nat) : Core :=
  let k := portKey p Reg.seifPortState
  ((c.setFld k 0 3 1).incFld k 16 16 1).setPort p (fun x => { x with trainDue := c.up + 10 ^ 7, identSent := false, identSeen := false })

/-- IDENT goes out once in a training (R551): node, the port's role, and whether it is a twin port. -/
def Core.sendIdent (c : Core) (p : Nat) : Core :=
  if (c.port p).identSent then c
  else
    let r := c.portRole p
    (c.setPort p (fun x => { x with identSent := true })).put p (.linkIdent c.node r (r == 28 || r == 29))

/-- Whether a port is held DISABLED because a spare stands for it (R554). -/
def Core.replaced (c : Core) (p : Nat) : Bool := c.roleTaker p != p

/-- What a write of SEIF_PORT_CTRL.EN changes (R551, R555). -/
def Core.enablePort (c : Core) (p : Nat) (was : Bool) : Core :=
  let k := portKey p Reg.seifPortState
  if was && !c.portEn p then (c.setFld k 0 3 0).evacuate p
  else if !was && c.portEn p && !c.replaced p then c.beginTrain p
  else c

/-- RETRAIN of a port (R553): at once, from UP as well. -/
def Core.retrainPort (c : Core) (p : Nat) : Core := if c.portEn p && !c.replaced p then c.beginTrain p else c

/-- What a change of SEIF_SPARE does (R554): replaced ports are held DISABLED, freed ones train. -/
def Core.applySpares (c : Core) (old : Nat) : Core :=
  let en (v i : Nat) : Option Nat := if i = 0 then (if bit v 5 then some (field v 0 5) else none) else if bit v 13 then some (field v 8 5) else none
  let new := c.reg (Reg.seifSpare 0)
  -- a change applies only while the spare and the replaced port are not UP
  let ok (i : Nat) : Bool :=
    !c.up? (30 + i) && (match en new i with | some p => !c.up? p | none => true) && (match en old i with | some p => !c.up? p | none => true)
  let keep (i : Nat) : Nat := field (if ok i then new else old) (8 * i) 6
  let c1 := c.setReg (Reg.seifSpare 0) (keep 0 + keep 1 * 256)
  (upto 2).foldl (fun d i =>
    let v := d.reg (Reg.seifSpare 0)
    let d := match en v i with
      | some p => d.setFld (portKey p Reg.seifPortState) 0 3 0
      | none => d
    match en old i with
    | some p => if en v i ≠ some p ∧ d.portEn p ∧ d.portState p = 0 then d.beginTrain p else d
    | none => d) c1

/-! ### What arrives on a port -/

/-- Ask for a replay from the next SEQ expected, and discard flits until one begins (R534). -/
def Core.nak (c : Core) (p : Nat) : Core := (c.setPort p (fun x => { x with rxWait := true })).put p (.linkNak (c.port p).rxSeq)

/-- Whether a packet header is that of a collective data packet for this device (R538, R565): it may have to wait in the receive buffer (R566). -/
def collHeader (wadi head : Nat) : Bool := 2 ≤ wadi && wadi != 14 && field head 32 8 == 1

/-- Take in one data flit in order (R531, R534). A flit for this device is written into the Erg store as it comes; of other packets, and of collective ones, the receive buffer keeps the
flits up to half of the allotment, and what follows leaves for the exit port. `head` is the packet header of a first flit. DESIGN CHOICE, log entry 61. -/
def Core.takeFlit (c : Core) (p : Nat) (f : Flit) (head : Nat) : Core :=
  let x := c.port p
  if f.seq ≠ x.rxSeq then (if x.rxWait then c else c.nak p)
  else
    let k := f.wadi * 2 + f.cls
    let a : Asm := if f.sop then { cls := f.cls, n := 0, kept := 0, own := c.isMe (c.aliasOf (field head 0 16)).2 && !collHeader f.wadi head }
      else sget { cls := f.cls, n := 0, kept := 0, own := false } x.asm f.wadi
    let keep := !a.own && decide (a.kept < x.quota k / 2)
    let a1 := { a with n := a.n + 1, kept := a.kept + b2n keep }
    let c1 := c.setPort p (fun x => { x with rxSeq := (x.rxSeq + 1) % 4096, rxWait := false, held := sset 0 x.held k (sget 0 x.held k + b2n keep),
                                              granted := sset 0 x.granted k (sget 0 x.granted k - 1),
                                              asm := if f.eop then sdel x.asm f.wadi else sput x.asm f.wadi a1,
                                              ready := if f.eop then x.ready ++ [(f.wadi, a1)] else x.ready })
    if keep then c1 else c1.grant p k

/-- PACKET_RECEIVE (R530, R535, R542, R548): a complete packet is delivered, forwarded, discarded as a repeat, or unreachable. What a packet for
this node carries acts by the command of its traffic; a collective packet holds its flits until then (R566). DESIGN CHOICE, log entry 97. -/
def packetReceive (c : Core) (p : Nat) (m : Packet) : Core :=
  let x := c.port p
  match x.ready.find? (fun r => r.1 == m.wadi && r.2.n == packetFlits m.blocks) with
  | none => c
  | some r =>
    let k := r.1 * 2 + r.2.cls
    let c1 := c.setPort p (fun x => { x with ready := x.ready.erase r })
    let g := portGroup (c1.portRole p) * 16 + m.wadi
    let seen := sget [] c1.seif.hopRx g
    if seen.contains m.hopseq then c1.freeFlits p k r.2.kept
    else
      let c2 := { c1 with seif := { c1.seif with hopRx := sset [] c1.seif.hopRx g ((m.hopseq :: seen).take 4096) } }
      let c3 := c2.inc64 (portKey p Reg.seifRxLo) (32 + 64 * m.blocks)
      let on : Msg := { dst := m.dst, wadi := m.wadi, body := .packet (packetOn m) }
      -- PIN has served its hop (R542)
      match c3.routed on m.flow r.2.cls (some (c3.portRole p)) with
      | (d, .own) =>
        let d := if packetGood m then d else d.inc (portKey p Reg.seifCrc) 1
        if m.kind = 1 ∧ packetGood m = true ∧ r.2.own = false ∧ 2 ≤ m.wadi ∧ m.wadi ≠ 14 then d.setPort p (fun x => { x with arrived := x.arrived ++ [(m.wadi, r.2.cls, r.2.kept)] })
        else d.freeFlits p k r.2.kept
      | (d, .exits e cls) => d.enqueue e on cls r.2.n (32 + 64 * m.blocks) (some (p, r.2.kept))
      | (d, _) =>
        let d := (d.dropPacket p).freeFlits p k r.2.kept
        { d with out := d.out ++ [{ dst := m.src, wadi := 0, body := .unreachable m.dst m.wadi m.tag }] }

/-- The receive-buffer place of a collective packet whose contents come now (R566). -/
def Core.takeArrived (c : Core) (p wadi : Nat) : Core × Option (Nat × Nat) :=
  match (c.port p).arrived.find? (fun e => e.1 == wadi) with
  | some e => (c.setPort p (fun x => { x with arrived := x.arrived.erase e }), some e.2)
  | none => (c, none)

/-- ACK (R534): flits up to SEQ leave the replay buffer, packets wholly acknowledged leave the port. -/
def Core.release (c : Core) (p : Nat) (keep : Nat → Bool) : Core :=
  c.setPort p (fun x =>
    let rest := x.replay.dropWhile (fun r => !keep r.1)
    { x with replay := rest, entries := x.entries.filter (fun e => e.unsent != 0 || rest.any (fun r => r.2 == e.id)),
             stalls := if rest.length < x.replay.length then 0 else x.stalls,
             stallSeq := if rest.length < x.replay.length then none else x.stallSeq })

/-- Whether SEQ `s` lies beyond `a` among the flits outstanding from `first` on. -/
def seqAfter (first a s : Nat) : Bool := decide ((s + 4096 - first) % 4096 > (a + 4096 - first) % 4096)

/-- ACK of a SEQ. An acknowledgement of a flit that is not outstanding changes nothing. -/
def linkAck (c : Core) (p seq : Nat) : Core :=
  match (c.port p).replay.head? with
  | none => c
  | some (first, _) =>
    if (c.port p).replay.any (fun r => r.1 == seq) then (c.release p (fun s => seqAfter first seq s)).drainPort p else c

/-- NAK from a SEQ (R534): earlier flits are acknowledged, and every flit from it on is sent again; when eight replays in succession have made no progress the port goes DOWN. -/
def linkNak (c : Core) (p seq : Nat) : Core :=
  let x := c.port p
  if !x.replay.any (fun r => r.1 == seq) then c
  else
    let c1 := c.release p (fun s => s == seq)
    let again := (c1.port p).stallSeq == some seq
    let n := if again then (c1.port p).stalls + 1 else 1
    if n > 8 then c1.portDown p 4
    else
      let c2 := (c1.setPort p (fun x => { x with stallSeq := some seq, stalls := n })).inc (portKey p Reg.seifReplay) 1
      let y := c2.port p
      let done := y.entries.filter (fun e => e.unsent = 0 && y.replay.any (fun r => r.2 == e.id))
      { c2 with wire := c2.wire ++ done.map (fun e => { e.msg with port := some p, loop := c2.looped p }) }

/-- CREDIT (R527, R531): the neighbour returns flits of a wadi and class. -/
def linkCredit (c : Core) (p wadi cls n : Nat) : Core :=
  let k := wadi % 16 * 2 + cls % 2
  (c.setPort p (fun x => { x with credits := sset 0 x.credits k (sget 0 x.credits k + n) })).drainPort p

/-- HEARTBEAT (R527, R536). -/
def linkHeartbeat (c : Core) (p : Nat) : Core := c.setPort p (fun x => { x with lastHb := c.up })

/-- HEARTBEAT_SEND (R527, R552): a trained port every 10 µs. -/
def heartbeatSend (c : Core) (p : Nat) : Core :=
  if !c.trained p || decide (c.up < (c.port p).hbSent + 10000) then c
  else (c.setPort p (fun x => { x with hbSent := c.up })).put p (.linkHeartbeat c.node p)

/-- Whether a peer is not the one a port's role calls for (R552, R554). -/
def Core.miswired (c : Core) (p node port : Nat) : Bool :=
  let r := c.portRole p
  if r < 24 then
    if !bit (c.reg (Reg.seifTopo 0)) 16 then false
    else
      let d := r / 8
      let n := c.dimOf d
      let step := if r / 4 % 2 = 0 then 1 else n - 1
      let want (e : Nat) : Nat := if e = d then (coordOf c.node d + step) % n else coordOf c.node e
      let ok := (upto 3).all (fun e => coordOf node e == want e)
      !ok || port != 4 * (r / 4 ^^^ 1) + r % 4
  else if r = 28 ∨ r = 29 then node != c.twin || port != r
  else false

/-- Enter MISWIRED (R552, R556). Allotments are granted as on entering UP, since wadi 1 still needs credits. DEDUCED, log entry 63. -/
def Core.enterMiswired (c : Core) (p : Nat) : Core :=
  let c1 := (c.setFld (portKey p Reg.seifPortState) 0 3 4).raise (qpage (p % 4) 8) 2
  (upto 32).foldl (fun d i => d.grant p i) (c1.setPort p (fun x => { x with lastHb := c1.up, rxWait := false, granted := [] }))

/-- IDENT during training (R551, R552, R555). -/
def linkIdent (c : Core) (p node port : Nat) : Core :=
  if c.portState p ≠ 1 then c
  else
    let c1 := ((c.setReg (portKey p Reg.seifPeer) (node % 65536 + port % 32 * 65536)).setPort p (fun x => { x with identSeen := true })).sendIdent p
    if c1.miswired p node port then c1.enterMiswired p else c1

/-- ABORT_END (R537): the packet in progress on a wadi is discarded and its credits return. -/
def abortEnd (c : Core) (p seq wadi : Nat) : Core :=
  let x := c.port p
  if seq ≠ x.rxSeq then (if x.rxWait then c else c.nak p)
  else
    let a := sget { cls := 0, n := 0, kept := 0, own := false } x.asm wadi
    let c1 := c.setPort p (fun x => { x with rxSeq := (x.rxSeq + 1) % 4096, rxWait := false, asm := sdel x.asm wadi })
    c1.freeFlits p (wadi * 2 + a.cls) a.kept

/-- One flit of a good codeword: a data flit is taken in and an abort-end flit ends its packet, unless the receiver discards flits until a replay begins, whose first flit has
the SEQ it expects; idle flits carry nothing, and what link control flits say comes with the commands of their messages (R526, R527, R534). -/
def Core.takeHeader (c : Core) (p h head : Nat) : Core :=
  let f := flitOf h
  let k := flitKind h
  if k = 1 then c.takeFlit p f head
  else if k = 3 then abortEnd c p f.seq f.wadi
  else c

/-- CODEWORD_RECEIVE (R523, R524, R526, R534): what arrived on the eight wavelengths lies at most 15 symbols from the codeword of five flits and a count, which is
then what the decoder finds; otherwise the codeword is uncorrectable, as is one with a flit header whose check fails. -/
def codewordReceive (c : Core) (p : Nat) (w : Codeword) (waves : List (List Nat)) : Core :=
  let errors := symbolErrors waves (codewordOf w)
  if c.trained p = false then c
  else if errors > 15 || (upto 5).any (fun i => !(flitOf (flitHeader w.flits i)).hchk) then (c.inc (portKey p Reg.seifFecUncorr) 1).nak p
  else
    let c0 := c.setPort p (fun x => { x with rxCount := w.count % 2 ^ 20 })
    let c1 := if errors = 0 then c0 else c0.inc (portKey p Reg.seifFecCorr) errors
    let c2 := (upto 5).foldl (fun d i => d.takeHeader p (flitHeader w.flits i) (flitPacket w.flits i)) c1
    if (c2.port p).rxSeq = (c.port p).rxSeq then c2 else c2.put p (.linkAck (((c2.port p).rxSeq + 4095) % 4096))

/-- HEARTBEAT_TIMEOUT (R536): no HEARTBEAT for 40 µs. -/
def heartbeatTimeout (c : Core) (p : Nat) : Core :=
  if c.trained p = true ∧ (c.port p).lastHb + 40000 ≤ c.up then c.portDown p 1 else c

/-- A loss seen by a port's receiver (R536). -/
def signalLoss (c : Core) (p reason : Nat) : Core := if c.trained p then c.portDown p reason else c

/-- The ports of a laser input (R520). -/
def lightPorts (engine : Nat) : List Nat := (upto 32).filter (fun p => engineOf p == engine)

/-- LIGHT_LOSS of a laser input (R522, R556). -/
def lightLoss (c : Core) (engine : Nat) : Core :=
  (lightPorts engine).foldl (fun d p =>
    let k := portKey p Reg.seifPortState
    if d.fld k 7 1 = 0 then d
    else
      let e := (d.setBit k 7 false).raise (qpage (p % 4) 8) 5
      if d.up? p then e.portDown p 5 else e) c

/-- LIGHT_RETURN of a laser input (R705): enabled ports that lacked light begin training. -/
def lightReturn (c : Core) (engine : Nat) : Core :=
  (lightPorts engine).foldl (fun d p =>
    let k := portKey p Reg.seifPortState
    if d.fld k 7 1 = 1 then d
    else
      let e := d.setBit k 7 true
      if e.portEn p && !e.replaced p && e.portState p != 2 then e.beginTrain p else e) c

/-- PORT_RETRAIN (R553): a DOWN port that is enabled, every 10 ms. -/
def portRetrain (c : Core) (p : Nat) : Core :=
  if c.portState p = 3 ∧ c.portEn p ∧ (c.port p).trainDue ≤ c.up then c.beginTrain p else c

/-- TRAINING_COMPLETE (R551, R552): `ok` tells whether training succeeded; `grants` are the neighbour's allotments by wadi · 2 + class. A port goes on to enter UP or MISWIRED only
once IDENT has been exchanged. -/
def trainingComplete (c : Core) (p : Nat) (ok : Bool) (grants : List Nat) : Core :=
  let k := portKey p Reg.seifPortState
  if c.portState p ≠ 1 then c
  else if !ok || c.fld k 7 1 == 0 then c.portDown p 6
  else if !(c.port p).identSeen then c
  else
    let peer := c.reg (portKey p Reg.seifPeer)
    let c := c.sendIdent p
    if c.miswired p (field peer 0 16) (field peer 16 5) then c.enterMiswired p
    else
      let c1 := (c.setFld k 0 3 2).raise (qpage (p % 4) 8) 1
      let held : SMap Nat := ((upto 32).map (fun i => (i, nth 0 grants i))).filter (fun t => t.2 != 0)
      let c2 := c1.setPort p (fun x => { x with lastHb := c1.up, rxWait := false, granted := [], credits := held })
      ((upto 32).foldl (fun d i => d.grant p i) c2).drainPort p

/-- Sum of a port's allotments. -/
def PortSt.allotSum (x : PortSt) : Nat := sumN 32 (fun k => sget 256 x.allot k)

/-- SEIF_CREDIT of a quarter's selected port (R532, R555). -/
def seifCredit (c : Core) (q v : Nat) : Core :=
  let p := 4 * c.fld (Reg.seifPortSel q) 0 3 + q % 4
  let k := field v 0 4 * 2 + field v 4 1
  let n := field v 16 13
  let x := c.port p
  let sel := c.setReg (portKey p Reg.seifCredit) (field v 0 5)
  if x.allotSum - sget 256 x.allot k + n > 8192 then sel.raise (qpage (q % 4) 8) 3
  else (sel.setPort p (fun x => { x with allot := sset 256 x.allot k n })).grant p k

end Sys2Proof.Machine
end

