-- ==== Sys2Proof/Machine/Coll.lean ====
section
/-!
DEFINITION. Collectives (R557 to R594): groups and shards, packets, the ring and tree orders of addition, thinning, gathering, PERMUTE and
ALLTOALL. The order of additions is that of the rules; which packets carry them is stated beside each transport below.
-/
namespace Sys2Proof.Machine
open Sys2Proof

/-! ### Groups, shards and fields -/

/-- Elements of a reduction segment (R570), and data bytes of a packet (R565). -/
def segElems : Nat := 1008
/-- Data bytes of a packet (R565). -/
def pktBytes : Nat := 4032

/-- First element of a rank's shard and its length (R560). -/
def shardOf (count nmemb r : Nat) : Nat × Nat :=
  let s := 32 * ceilDiv count (32 * nmemb)
  let lo := min (r * s) count
  (lo, min ((r + 1) * s) count - lo)

/-- Whether an opcode is ALLREDUCE or REDUCE_SCATTER. -/
def isReduction (op : Nat) : Bool := op == 0x60 || op == 0x61

/-- The wadi in use (R562). -/
def collWadi (op w : Nat) : Nat :=
  if op = 0x64 then (if (8 ≤ w ∧ w ≤ 11) ∨ w = 15 then w else 15)
  else if op = 0x65 then (if 8 ≤ w ∧ w ≤ 13 then w else 12)
  else if 2 ≤ w ∧ w ≤ 11 then w else 2

/-- A wire or source format of ALLGATHER and BROADCAST: other codes act as 1 (R561). -/
def gatherFmt (f : Nat) : Nat := if f = 3 ∨ f = 7 then f else 1

/-- The source format in force (R561). -/
def Dx.collSrcFmt (x : Dx) (op : Nat) : Nat :=
  let f := x.f 25 0 3
  if isReduction op then (if f = 3 then 3 else 1) else gatherFmt f

/-- The format in which values cross the links at the end: OUT_FCB.FMT (R576, R578). -/
def Dx.collWire (x : Dx) (op : Nat) : Nat := if isReduction op then x.f 26 0 3 else gatherFmt (x.f 26 0 3)

/-- The format of DST (R561, R577). -/
def Dx.collDst (x : Dx) (op : Nat) : Nat :=
  let w := x.collWire op
  if isReduction op then w else if x.f 25 3 3 = w then w else 1

/-- THIN_K in force (R561, R579). -/
def Dx.collThin (x : Dx) (op : Nat) : Nat := if isReduction op && x.f 60 0 31 != 0 then min (x.f 56 0 11) 1024 else 0

/-- THIN_K as packets carry it (R565). -/
def Dx.collThinField (x : Dx) (op : Nat) : Nat := if isReduction op then x.f 56 0 11 else 0

/-- Collectives open on a quarter (R587, R593). -/
def collOpenCount (c : Core) (q : Nat) : Nat := (c.coll.runs.filter (fun r => r.quarter == q)).length

/-- Whether an epoch is older than another (R587). -/
def epochOlder (e E : Nat) : Bool := let d := (E + 2 ^ 16 - e % 2 ^ 16) % 2 ^ 16; decide (1 ≤ d) && decide (d ≤ 32767)

/-- COLL_EPOCH_Q.OLDER of a quarter (R587, R593). -/
def collOlder (c : Core) (q : Nat) : Nat :=
  let e := c.fld (Reg.collEpochQ q) 0 16
  (c.coll.runs.filter (fun r => r.quarter == q && isReduction r.op && epochOlder r.epoch e)).length

/-- The open collective with a GROUP and TAG (R567) of the node a packet is for (R627). -/
def collMatch (c : Core) (dst group tag : Nat) : Option CollRun :=
  c.coll.runs.find? (fun r => r.group == group && r.tag == tag && r.as == dst)

/-- The open collective of a strand. -/
def collOf (c : Core) (strand : Nat) : Option CollRun := c.coll.runs.find? (fun r => r.strand == strand)

/-- Put a changed collective back. -/
def Dx.setColl (x : Dx) (r : CollRun) : Dx :=
  x.core (fun c => { c with coll := { c.coll with runs := c.coll.runs.map (fun t => if t.strand == r.strand then r else t) } })

/-- Close a collective. With none open on a quarter, a RESERVE that was written there takes effect (R593). -/
def collClose (c : Core) (strand : Nat) : Core :=
  let runs := c.coll.runs.filter (fun t => t.strand != strand)
  { c with coll := { c.coll with runs := runs, lanes := c.coll.lanes.filter (fun e => runs.any (fun r => r.quarter == e.1)) } }

/-- Set a bit of a quarter's COLL_ERR and its interrupt bit (R593, R594). -/
def collError (c : Core) (q i : Nat) : Core := (c.setBit (Reg.collErr q) i true).raise (qpage q 9) i

/-! ### Values and their encodings (R565, R574, R583) -/

/-- The bits of −0 in FP32. -/
def negZero32 : Nat := 2 ^ 31

/-- A contribution as a partial: FP32 bits, or the pair (x, −0) (R574). -/
def CVal.ofF32 (arith : Bool) (v : Nat) (bad : Bool) : CVal :=
  if arith then { v := (convBits 1 0 Rnd.nearest v).bits, l := 2 ^ 63, bad := bad } else { v := v, bad := bad }

/-- The combination of two partials (R570, R574). -/
def CVal.add (arith : Bool) (a b : CVal) : CVal :=
  if arith then
    let h := fp64Add a.v b.v
    let e := Fp.sub (Fp.add (decodeBits 0 a.v) (decodeBits 0 b.v)) (decodeBits 0 h)
    let m := fp64Add a.l b.l
    { v := h, l := (roundTo 0 Rnd.nearest 0 (Fp.add (decodeBits 0 m) e)).bits, bad := a.bad || b.bad }
  else { v := fp32Add a.v b.v, bad := a.bad || b.bad }

/-- The result before conversion, with the format it stands in: FP32, or FP64 rounded to odd (R574). -/
def CVal.result (arith : Bool) (a : CVal) : Fp :=
  if arith then decodeBits 0 (roundTo 0 { code := 6 } 0 (Fp.add (decodeBits 0 a.v) (decodeBits 0 a.l))).bits
  else decodeBits 1 a.v

/-- The mask of 64-byte pieces that flagged items of a size touch. -/
def pieceMask (size : Nat) (bad : List Bool) : Nat :=
  ((upto bad.length).filter (fun i => nth false bad i)).foldl (fun m i =>
    let b := i * size / 64
    if m.testBit b then m else m + 2 ^ b) 0

/-- The sparse records of elements, element `i` having index `g i` in the vector (R583): a block's word, then its entries. Answers the bytes, their number
of entries, and the mask of poisoned pieces. -/
def sparseBytes (g : Nat → Nat) (vs : List CVal) : List Byte × Nat × Nat :=
  let ents := ((upto vs.length).map (fun i => (g i, nth { v := negZero32 } vs i))).filter (fun p => p.2.v != negZero32 || p.2.bad)
  let blocks := (ents.map (fun p => p.1 / 4096)).foldl insN []
  let recs := blocks.map (fun b =>
    let es := ents.filter (fun p => p.1 / 4096 == b)
    (leBytes 4 (b % 2 ^ 20 + es.length % 2 ^ 12 * 2 ^ 20), false) :: es.map (fun p => (leBytes 4 (p.1 % 4096) ++ leBytes 4 p.2.v, p.2.bad)))
  let all := recs.flatten
  let flags := (all.map (fun p => p.1.map (fun _ => p.2))).flatten
  ((all.map (fun p => p.1)).flatten, ents.length, pieceMask 1 flags)

/-- The entries of sparse records: index in the vector, FP32 bits, poison. `at_` is the place of the first byte in the packet's data. -/
def sparseRead (poison : Nat) : Nat → Nat → List Byte → SMap (Nat × Bool) → SMap (Nat × Bool)
  | 0, _, _, m => m
  | n + 1, at_, bs, m =>
    if bs.length < 4 then m
    else
      let w := ofLE (bs.take 4)
      let cnt := w / 2 ^ 20
      let m' := (upto cnt).foldl (fun m i =>
        let e := (bs.drop (4 + 8 * i)).take 8
        let bad := poison.testBit ((at_ + 4 + 8 * i) / 64) || poison.testBit ((at_ + 11 + 8 * i) / 64)
        sput m (w % 2 ^ 20 * 4096 + ofLE (e.take 4) % 4096) (ofLE (e.drop 4), bad)) m
      sparseRead poison n (at_ + 4 + 8 * cnt) (bs.drop (4 + 8 * cnt)) m'

/-- Partials as a packet carries them under an ENC code (R565): bytes, items, mask. DEDUCED, log entry 66. -/
def encodeVals (enc : Nat) (g : Nat → Nat) (vs : List CVal) : List Byte × Nat × Nat :=
  let flags := vs.map (fun v => v.bad)
  match enc with
  | 1 => ((vs.map (fun v => leBytes 8 v.v ++ leBytes 8 v.l)).flatten, vs.length, pieceMask 16 flags)
  | 2 => ((vs.map (fun v => leBytes 2 (convBits 1 3 Rnd.nearest v.v).bits)).flatten, vs.length, pieceMask 2 flags)
  | 4 => sparseBytes g vs
  | _ => ((vs.map (fun v => leBytes 4 v.v)).flatten, vs.length, pieceMask 4 flags)

/-- The partials that a packet carries: `n` elements of index `g` when sparse, else as many as ITEMS says (R565). DEDUCED, log entry 66. -/
def decodeVals (p : CollPkt) (arith : Bool) (g : Nat → Nat) (n : Nat) : List CVal :=
  let num (i size : Nat) : Nat := ofLE ((p.data.drop (i * size)).take size)
  let bad (i size : Nat) : Bool := p.poison.testBit (i * size / 64)
  match p.enc with
  | 1 => (upto p.items).map (fun i => { v := num (2 * i) 8, l := num (2 * i + 1) 8, bad := bad i 16 })
  | 2 => (upto p.items).map (fun i => CVal.ofF32 arith (convBits 3 1 Rnd.nearest (num i 2)).bits (bad i 2))
  | 4 =>
    let m := sparseRead p.poison p.data.length 0 p.data []
    (upto n).map (fun i => let e := sget (negZero32, false) m (g i); CVal.ofF32 arith e.1 e.2)
  | _ => (upto p.items).map (fun i => CVal.ofF32 arith (num i 4) (bad i 4))

/-! ### Sending -/

/-- LEVEL of a packet in its one byte (R565): the ring step or tree level, and one more for what the owner of a shard gathers. In a ring of more than 255 members the steps go round 1 to
254, and 255 is the gathering. DESIGN CHOICE, log entry 65. -/
def CollRun.levelByte (r : CollRun) (level : Nat) : Nat :=
  if r.det || r.members.length ≤ 255 then level else if level = r.members.length then 255 else (level - 1) % 254 + 1

/-- A packet of a collective with its header filled in (R565). -/
def CollRun.pkt (r : CollRun) (enc segment level items offset : Nat) (data : List Byte) (poison : Nat) : CollPkt :=
  { group := r.group, tag := r.tag, epoch := r.epoch, opcode := r.op, det := r.det, arith := r.arith, enc := enc, sender := r.rank,
    count := r.count, segment := segment, level := r.levelByte level, items := items, thinK := r.thinK, offset := offset, data := data, poison := poison, wadi := r.wadi }

/-- Send a packet to a node, FLOW by its segment (R569). -/
def Dx.sendColl (x : Dx) (r : CollRun) (node : Nat) (p : CollPkt) : Dx :=
  x.core (fun c => { c with out := c.out ++ [{ dst := node, wadi := r.wadi, body := .collData p, strand := some r.strand, src := c.actAs, flow := some (p.segment % 4) }] })

/-- The node of a rank. -/
def CollRun.node (r : CollRun) (k : Nat) : Nat := nth 0xFFFF r.members k

/-- The encoding of a segment (R578, R583): contributions sparse when thinned, else SF16 or FP32 as their source, partials FP32, FP64 pairs, or sparse where that is smaller. -/
def segEnc (r : CollRun) (srcFmt : Nat) (g : Nat → Nat) (raw thin : Bool) (vs : List CVal) : Nat :=
  if raw then (if thin then 4 else if srcFmt = 3 then 2 else 0)
  else if r.arith then 1
  else if thin && decide ((sparseBytes g vs).1.length < 4 * vs.length) then 4 else 0

/-- Entries of a full sparse packet. -/
def sparseFull : Nat := 503

/-- A segment in parts of at most 503 sparse entries, as its records fit the packets (R565, R583); the last part has fewer, none included. DEDUCED, log entry 66. -/
def sparseParts (vs : List CVal) : List (List CVal) :=
  let marks := vs.map (fun v => v.v != negZero32 || v.bad)
  let rank (i : Nat) : Nat := ((marks.take i).filter id).length
  (upto ((marks.filter id).length / sparseFull + 1)).map (fun k =>
    (upto vs.length).map (fun i => if nth false marks i && rank i / sparseFull == k then nth { v := negZero32 } vs i else { v := negZero32 }))

/-- Send a segment to a rank. `raw` tells that it carries contributions and not partials; segments of pairs and of sparse records take several packets in order. -/
def Dx.sendSeg (x : Dx) (r : CollRun) (dest level segment : Nat) (g : Nat → Nat) (raw : Bool) (vs : List CVal) : Dx :=
  let enc := segEnc r (x.collSrcFmt r.op) g raw (x.collThin r.op != 0) vs
  let per := if enc = 1 then 252 else segElems
  let parts : List (Nat × List CVal) := if enc = 4 then (sparseParts vs).map (fun p => (0, p))
    else (upto (ceilDiv vs.length per)).map (fun i => (i * per, (vs.drop (i * per)).take per))
  parts.foldl (fun y p =>
    let (bs, items, mask) := encodeVals enc (fun j => g (p.1 + j)) p.2
    y.sendColl r (r.node dest) (r.pkt enc segment level items 0 bs mask)) x

/-- Send bytes to a rank in packets of at most `per` bytes, from OFFSET `off`; `bad` flags poisoned bytes. -/
def Dx.sendBytes (x : Dx) (r : CollRun) (node enc level per off : Nat) (items : Nat → Nat) (bs : List (Byte × Bool)) : Dx :=
  (upto (ceilDiv bs.length per)).foldl (fun y i =>
    let part := (bs.drop (i * per)).take per
    y.sendColl r node (r.pkt enc i level (items part.length) (if off = 2 ^ 64 then 0 else off + i * per) (part.map (fun b => b.1))
      (pieceMask 1 (part.map (fun b => b.2))))) x

/-! ### Contributions and thinning -/

/-- `n` elements of a dense vector with the poison of their blocks. -/
def Dx.readVector (x : Dx) (fmt a n : Nat) : Dx × List (Byte × Bool) :=
  let (y, ps) := x.readPieces a (rowBytes fmt n)
  (y, (ps.map (fun p => p.2.1.map (fun b => (b, p.2.2)))).flatten)

/-- The decoded elements of a vector's bytes, with the exponent of each element's ulp in its own format and its poison. -/
def vectorElems (fmt n : Nat) (bs : List (Byte × Bool)) : List (Fp × Int × Bool) :=
  (upto n).map (fun i =>
    if fmt = 7 then
      let b := (bs.drop (33 * (i / 32))).take 33
      let e := (nth (0, false) b 0).1.toNat
      (decodeB8 e (nth (0, false) b (1 + i % 32)).1.toNat, (e : Int) - 133, (nth (0, false) b 0).2 || (nth (0, false) b (1 + i % 32)).2)
    else
      let sz := elemBytes fmt
      let b := (bs.drop (i * sz)).take sz
      let v := decodeBits fmt (ofLE (b.map (fun t => t.1)))
      (v, srcUlpOf fmt v, b.any (fun t => t.2)))

/-- Place of a value in the ranking of a thinning block: magnitude, a NaN above every number (R581). -/
def thinKey (v : Nat) : Nat := let m := v % 2 ^ 31; if m > 0x7F800000 then 0x7F800001 else m

/-- The chosen indices of a thinning block (R581). -/
def thinChoose (k : Nat) (vs : List Nat) : List Nat :=
  let cand := ((upto vs.length).map (fun i => (i, thinKey (nth 0 vs i)))).filter (fun p => p.2 != 0)
  ((sortBy (fun (a b : Nat × Nat) => decide (a.2 > b.2) || (a.2 == b.2 && decide (a.1 ≤ b.1))) cand).take k).map (fun p => p.1)

/-- The contributions of a reduction's descriptor (R570, R578, R580, R581) as FP32 bits, with the writes of a thinned one. -/
def collContrib (x : Dx) (op : Nat) : Dx × List (Nat × Bool) :=
  let n := x.f 28 0 32
  let fmt := x.collSrcFmt op
  let (y, bs) := x.readVector fmt (x.f 40 0 48) n
  let sz := elemBytes fmt
  let g := (upto n).map (fun i =>
    let b := (bs.drop (i * sz)).take sz
    let raw := ofLE (b.map (fun t => t.1))
    ((if fmt = 3 then (convBits 3 1 Rnd.nearest raw).bits else raw), b.any (fun t => t.2)))
  let k := x.collThin op
  if k = 0 then (y, g)
  else
    let aux := x.erg (x.f 60 0 31)
    let gen := y.c.reg (Reg.collJobGen x.acc.q)
    let (y, head) := y.readPieces aux 64
    let hb := (head.map (fun p => p.2.1)).flatten
    let fresh := decide (ofLE (hb.take 4) ≠ gen) || decide (ofLE ((hb.drop 4).take 4) ≠ n)
    let (y, rs) := if fresh then (y, []) else y.readVector 1 (aux + 64) n
    let v := (upto n).map (fun i =>
      let e := nth (0, false) g i
      if fresh then e
      else
        let b := (rs.drop (4 * i)).take 4
        (fp32Add e.1 (ofLE (b.map (fun t => t.1))), e.2 || b.any (fun t => t.2)))
    let chosen := ((upto (ceilDiv n 4096)).map (fun b =>
      (thinChoose k (((v.drop (4096 * b)).take 4096).map (fun e => e.1))).map (fun i => 4096 * b + i))).flatten.foldl insN []
    let r' := (upto n).map (fun i => let e := nth (0, false) v i; (if chosen.contains i then 0 else e.1, e.2))
    let bytes := (r'.map (fun e => (leBytes 4 e.1).map (fun b => (b, e.2)))).flatten
    let y := y.writePieces 0 0 ((blockPieces (aux + 64) (4 * n)).map (fun p =>
      let es := (bytes.drop (p.1 - (aux + 64))).take p.2
      (p.1, es.map (fun e => e.1), es.any (fun e => e.2))))
    let y := y.writePoison false 0 0 aux (leBytes 4 gen ++ leBytes 4 n)
    (y, (upto n).map (fun i => let e := nth (0, false) v i; (if chosen.contains i then e.1 else negZero32, e.2)))

/-- Own contributions of elements `lo` to `lo + n - 1`. -/
def CollRun.own (r : CollRun) (lo n : Nat) : List CVal := ((r.src.drop lo).take n).map (fun e => CVal.ofF32 r.arith e.1 e.2)

/-- Own contributions as FP32 bits, whatever ARITH is. -/
def CollRun.rawOwn (r : CollRun) (lo n : Nat) : List CVal := ((r.src.drop lo).take n).map (fun e => { v := e.1, bad := e.2 })

/-- The combination of two runs of partials, lower operand first. -/
def zipAdd (arith : Bool) (a b : List CVal) : List CVal := List.zipWith (CVal.add arith) a b

/-- Count additions in the quarter of the port they arrived on (R592, R593). -/
def collCount (x : Dx) (port n : Nat) : Dx := if n = 0 then x else x.core (fun c => c.inc64 (Reg.collAddsLo (port % 4)) n)

/-! ### The ring (R570, DET 0) -/

/-- A segment of a shard: its first element and length. -/
def CollRun.seg (r : CollRun) (shard s : Nat) : Nat × Nat :=
  let (lo, n) := shardOf r.count r.members.length shard
  (lo + s * segElems, min segElems (n - s * segElems))

/-- The rank after this one in a segment's direction: ascending when it is even (R570). -/
def ringNext (n rank s : Nat) : Nat := if s % 2 = 0 then (rank + 1) % n else (rank + n - 1) % n

/-- The shard of a segment that a rank sends at a level. DESIGN CHOICE, log entry 65. -/
def ringShard (n sender level s : Nat) : Nat := if s % 2 = 0 then (sender + n * level - level) % n else (sender + level) % n

/-- Segments of a shard. -/
def CollRun.segs (r : CollRun) (shard : Nat) : Nat := ceilDiv (shardOf r.count r.members.length shard).2 segElems

/-- Start the ring: this member is the first of one shard for even segments and of one for odd ones. DESIGN CHOICE, log entry 65. -/
def ringStart (x : Dx) (r : CollRun) : Dx :=
  let n := r.members.length
  let first (s : Nat) : Nat := ringShard n r.rank 1 s
  (upto 2).foldl (fun y par =>
    let sh := first par
    ((upto (r.segs sh)).filter (fun s => s % 2 == par)).foldl (fun y s =>
      let (lo, k) := r.seg sh s
      y.sendSeg r (ringNext n r.rank s) 1 s (fun j => lo + j) true (r.rawOwn lo k)) y) x

/-- Segments that arrive at a rank: all but those it sends first. -/
def ringLeft (r : CollRun) : Nat :=
  let n := r.members.length
  sumN n (fun sh => ((upto (r.segs sh)).filter (fun s => ringShard n r.rank 1 s != sh)).length)

/-! ### The tree (R570, R572, DET 1) -/

/-- The rank that holds shard `r` at node `j` of level `d` of the pairwise tree, which covers ranks j·2^d to (j + 1)·2^d − 1: the child that contains
bit d − 1 of the shard's number, unless the upper child is empty. -/
def treeHolder (n : Nat) : Nat → Nat → Nat → Nat
  | 0, j, _ => j
  | d + 1, j, r => if n ≤ (2 * j + 1) * 2 ^ d then treeHolder n d (2 * j) r else treeHolder n d (2 * j + b2n (r.testBit d)) r

/-- The shards that `sender` passes to `to` at level `d + 1`. -/
def treeShards (n d sender dest : Nat) : List Nat :=
  (upto n).filter (fun r => treeHolder n d (sender >>> d) r == sender && treeHolder n (d + 1) (sender >>> (d + 1)) r == dest && sender != dest)

/-- Elements of a list of shards. -/
def CollRun.lenOf (r : CollRun) (shards : List Nat) : Nat := shards.foldl (fun a s => a + (shardOf r.count r.members.length s).2) 0

/-- Index in the vector of place `i` of a transfer of shards. -/
def CollRun.indexOf (r : CollRun) : List Nat → Nat → Nat
  | [], i => i
  | s :: l, i => let (lo, n) := shardOf r.count r.members.length s; if i < n then lo + i else r.indexOf l (i - n)

/-- Key of received partials: level, sender and segment. -/
def recvKey (level sender seg : Nat) : Nat := (level * 2 ^ 17 + sender) * 2 ^ 24 + seg

/-- A whole transfer received from a rank at a level, if all its segments are there. -/
def CollRun.transfer (r : CollRun) (level sender len : Nat) : Option (List CVal) :=
  let all := ((upto (ceilDiv len segElems)).map (fun s => sget [] r.recv (recvKey level sender s))).flatten
  if all.length = len then some all else none

/-- The value of shard `sh` over this rank's node of level `d`, when this rank holds it and has all its parts. An empty sibling adds −0 (R210). -/
def treeVal (r : CollRun) (sh : Nat) : Nat → Option (List CVal)
  | 0 => let (lo, n) := shardOf r.count r.members.length sh; some (r.own lo n)
  | d + 1 =>
    let n := r.members.length
    if treeHolder n (d + 1) (r.rank >>> (d + 1)) sh ≠ r.rank then none
    else match treeVal r sh d with
      | none => none
      | some own =>
        let sib := (r.rank >>> d) ^^^ 1
        if n ≤ sib * 2 ^ d then some (own.map (fun v => CVal.add r.arith v (CVal.ofF32 r.arith negZero32 false)))
        else
          let sender := treeHolder n d sib sh
          let shards := treeShards n d sender r.rank
          match r.transfer (d + 1) sender (r.lenOf shards) with
          | none => none
          | some all =>
            let off := r.lenOf (shards.filter (fun t => decide (t < sh)))
            let other := (all.drop off).take own.length
            some (if sib % 2 = 1 then zipAdd r.arith own other else zipAdd r.arith other own)

/-- Levels of the tree: ⌈log₂ NMEMB⌉. -/
def CollRun.height (r : CollRun) : Nat := log2Up r.members.length

/-- The transfers a rank makes, as (level − 1, receiver). -/
def treeOuts (r : CollRun) : List (Nat × Nat) :=
  let n := r.members.length
  ((upto r.height).map (fun d =>
    let tos := ((upto n).filter (fun sh => treeHolder n d (r.rank >>> d) sh == r.rank)).map (fun sh => treeHolder n (d + 1) (r.rank >>> (d + 1)) sh)
    ((tos.filter (fun t => t != r.rank)).foldl insN []).map (fun t => (d, t)))).flatten

/-- Make every transfer whose parts are there. -/
def treeSend (x : Dx) (r : CollRun) : Dx × CollRun :=
  let n := r.members.length
  (treeOuts r).foldl (fun (p : Dx × CollRun) o =>
    let key := o.1 * 2 ^ 17 + o.2
    if p.2.sent.contains key then p
    else
      let shards := treeShards n o.1 r.rank o.2
      let vals := shards.map (fun sh => treeVal p.2 sh o.1)
      if vals.any (fun v => v.isNone) then p
      else
        let vs := (vals.map (fun v => v.getD [])).flatten
        let raw := o.1 == 0
        let vs := if raw then (shards.map (fun sh => let (lo, k) := shardOf r.count n sh; r.rawOwn lo k)).flatten else vs
        let y := (upto (ceilDiv vs.length segElems)).foldl (fun y s =>
          y.sendSeg r o.2 (o.1 + 1) s (fun j => r.indexOf shards (s * segElems + j)) raw ((vs.drop (s * segElems)).take segElems)) p.1
        (y, { p.2 with sent := key :: p.2.sent })) (x, r)

/-! ### Results -/

/-- Whole packets of a wire format: bytes each. -/
def wirePer (fmt : Nat) : Nat := if fmt = 7 then 4026 else pktBytes

/-- ENC of values in a wire format (R565). -/
def wireEnc (fmt : Nat) : Nat := if fmt = 1 then 0 else if fmt = 3 then 2 else if fmt = 7 then 3 else 5

/-- ITEMS of a packet of a wire format. -/
def wireItems (fmt bytes : Nat) : Nat := if fmt = 7 then bytes / 33 * 32 else if wireEnc fmt = 5 then bytes else bytes / elemBytes fmt

/-- Key of wire bytes by sender and segment. -/
def partKey (sender seg : Nat) : Nat := sender * 2 ^ 32 + seg

/-- Keep wire bytes of a sender as if they had arrived in packets of `per` bytes. -/
def CollRun.keepBytes (r : CollRun) (sender per : Nat) (bs : List (Byte × Bool)) : CollRun :=
  (upto (ceilDiv bs.length per)).foldl (fun (r : CollRun) i =>
    let part := (bs.drop (i * per)).take per
    { r with parts := sput r.parts (partKey sender i) (part.map (fun b => b.1), pieceMask 1 (part.map (fun b => b.2))) }) r

/-- All wire bytes of a sender with their poison, in the order of their segments. -/
def CollRun.bytesOf (r : CollRun) (sender : Nat) : List (Byte × Bool) :=
  ((sslice r.parts (partKey sender 0) (2 ^ 32)).map (fun p => (upto p.2.1.length).map (fun i => (nth 0 p.2.1 i, p.2.2.testBit (i / 64))))).flatten

/-- Convert a run of elements to a wire format under OUT_FCB (R120, R576, R578): elements from index `base` of the operand, `ulp` the exponent of each
element's ulp in the format it stands in. Checks each element by R135. -/
def collConvert (x : Dx) (fmt base : Nat) (vs : List (Fp × Int × Bool)) : Dx × List (Byte × Bool) :=
  let fcb := x.f 26 0 8
  let n := vs.length
  let y := (upto n).foldl (fun y i => if (nth (Fp.zero, 0, false) vs i).1.special then y.flagNaN (base + i) else y) x
  let (y, d) := y.drawsFrom fcb (fun _ => 133) (base / 4) (ceilDiv (base + (if fmt = 7 then 32 * ceilDiv n 32 else n)) 4)
    ((upto (ceilDiv (if fmt = 7 then 32 * ceilDiv n 32 else n) 4)).map (· + base / 4))
  let e (i : Nat) : Fp × Int × Bool := nth (Fp.zero, 0, false) vs i
  if fmt = 7 then
    (y, ((upto (ceilDiv n 32)).map (fun b =>
      let xs := (upto 32).map (fun i => e (32 * b + i))
      let (ex, ms) := encodeB8 (fun i => d.rnd (base + 32 * b + i)) (fun i => (nth (Fp.zero, 0, false) xs i).2.1) (xs.map (fun t => t.1))
      let bad := xs.any (fun t => t.2.2)
      (BitVec.ofNat 8 ex, bad) :: ms.map (fun m => (BitVec.ofNat 8 m, bad)))).flatten)
  else
    (y, ((upto n).map (fun i =>
      let t := e i
      (leBytes (elemBytes fmt) (roundTo fmt (d.rnd (base + i)) t.2.1 t.1).bits).map (fun b => (b, t.2.2)))).flatten)

/-- Own shard of a reduction is summed: convert it once and, in an ALLREDUCE, send it to every other member (R578). An FP32 sum is written to FP32 as it stands, a NaN of R141
included: that is no conversion (R131). -/
def ownShard (x : Dx) (r : CollRun) (vs : List CVal) : Dx × CollRun :=
  let fmt := x.collWire r.op
  let n := r.members.length
  let base := if r.op = 0x60 then (shardOf r.count n r.rank).1 else 0
  let (y, conv) := collConvert x fmt base (vs.map (fun v => let f := v.result r.arith; (f, srcUlpOf (if r.arith then 0 else 1) f, v.bad)))
  let bs := if fmt = 1 ∧ r.arith = false then (vs.map (fun v => (leBytes 4 v.v).map (fun b => (b, v.bad)))).flatten else conv
  let r1 := { r with owned := true }.keepBytes r.rank (wirePer fmt) bs
  if r.op ≠ 0x60 then (y, r1)
  else
    let level := if r.det then r.height + 1 else n
    (((upto n).filter (fun k => k != r.rank)).foldl (fun y k => y.sendBytes r (r.node k) (wireEnc fmt) level (wirePer fmt) (2 ^ 64) (wireItems fmt) bs) y, r1)

/-- Wire bytes a sender owes this member: a shard, the root's vector, or nothing. -/
def wireOwed (x : Dx) (r : CollRun) (sender : Nat) : Nat :=
  let n := r.members.length
  let fmt := x.collWire r.op
  if r.op = 0x63 then rowBytes fmt r.count
  else if r.op = 0x61 ∧ sender ≠ r.rank then 0
  else rowBytes fmt (shardOf r.count n sender).2

/-- The root of a BROADCAST (R561). -/
def Dx.root (x : Dx) (r : CollRun) : Nat := let k := x.f 58 0 16; if k < r.members.length then k else 0

/-- The senders whose wire bytes make up DST, in order. -/
def wireSenders (x : Dx) (r : CollRun) : List Nat :=
  if r.op = 0x63 then [x.root r] else if r.op = 0x61 then [r.rank] else upto r.members.length

/-- Whether this member's share of the work is done. -/
def collFinished (x : Dx) (r : CollRun) : Bool :=
  if r.op = 0x64 then decide (r.unacked = 0) && decide (r.expect ≤ r.got)
  else if r.op = 0x65 then
    (upto r.members.length).all (fun k => match sfind r.lens k with
      | some n => decide ((r.bytesOf k).length = n)
      | none => false)
  else
    (!isReduction r.op || (r.owned && decide (r.left = 0) && (!r.det || (treeOuts r).all (fun o => r.sent.contains (o.1 * 2 ^ 17 + o.2))))) &&
      (wireSenders x r).all (fun k => decide ((r.bytesOf k).length = wireOwed x r k))

/-- Write bytes with their poison at an address, each 64-byte block poisoned by any poisoned byte (R590). -/
def Dx.writeFlagged (x : Dx) (hint uses a : Nat) (bs : List (Byte × Bool)) : Dx :=
  let y := if bs.any (fun b => b.2) then x.st 0x31 else x
  y.writePieces hint uses ((blockPieces a bs.length).map (fun p =>
    let part := (bs.drop (p.1 - a)).take p.2
    (p.1, part.map (fun b => b.1), part.any (fun b => b.2))))

/-- Note dropped bytes of a PERMUTE or ALLTOALL (R585, R586, R593). -/
def Dx.collDrop (x : Dx) (n pos : Nat) : Dx := if n = 0 then x else (x.dropMany n pos).core (fun c => c.inc (Reg.collDrop x.acc.q) n)

/-- Write the output of a finished collective (R577, R586). An ALLTOALL without a block (R561) has no capacity and writes no lengths. DESIGN CHOICE, log entry 125. -/
def collOutput (x : Dx) (r : CollRun) : Dx :=
  let dst := x.f 48 0 48
  let hint := x.f 54 0 2
  let uses := x.f 55 0 8
  if r.op = 0x64 then x
  else if r.op = 0x65 then
    let none_ := decide (x.f 60 0 31 = 0)
    let aux := x.erg (x.f 60 0 31)
    let cap := if none_ then 0 else x.at (aux + 4) 4
    let counts := ergByte (x.at (aux + 8) 4)
    ((upto r.members.length).foldl (fun (p : Dx × Nat) k =>
      let bs := r.bytesOf k
      let fit := min bs.length (cap - p.2)
      let y := (p.1.writeFlagged hint uses (dst + p.2) (bs.take fit)).collDrop (bs.length - fit) k
      (if none_ then y else y.write (counts + 4 * k) (leBytes 4 bs.length), p.2 + 64 * ceilDiv bs.length 64)) (x, 0)).1
  else
    let wire := x.collWire r.op
    let bs := ((wireSenders x r).map r.bytesOf).flatten
    let n := if r.op = 0x61 then (shardOf r.count r.members.length r.rank).2 else r.count
    if x.collDst r.op = wire then x.writeFlagged hint uses dst bs
    else x.writeFlagged hint uses dst (((vectorElems wire n bs).map (fun e =>
      (leBytes 4 (roundTo 1 Rnd.nearest e.2.1 e.1).bits).map (fun b => (b, e.2.2)))).flatten)

/-- Complete a finished collective, or keep it: one that has met a packet that does not agree ends at its timeout (R567), and one whose packets are still to be routed completes
once they have been (R589). -/
def collSettle (x : Dx) (r : CollRun) : Dx × Bool :=
  if r.mismatch || !collFinished x r then (x.setColl r, false)
  else if x.c.out.any (fun m => m.strand == some r.strand) then (x.setColl { r with ready := true }, false)
  else ((collOutput x r).core (fun c => collClose c r.strand), true)

/-! ### Arrival of a packet -/

/-- Whether a packet belongs to a descriptor that matched by GROUP and TAG (R567, R588). COUNT matters where the opcode reads it. -/
def collAgrees (r : CollRun) (p : CollPkt) : Bool :=
  p.opcode == r.op && p.det == r.det && p.arith == r.arith && p.epoch == r.epoch && p.thinK == r.thinK &&
    (r.op == 0x64 || r.op == 0x65 || p.count == r.count)

/-- Whether a byte address lies in the receiver's job memory (R34, R585). -/
def Core.jobByte (c : Core) (a : Nat) : Bool :=
  match place a with
  | .dram => true
  | .erg q off => decide (off < c.top q)
  | _ => false

/-- PERMUTE data (R585): bytes land at OFFSET; those outside job memory or beyond EXPECT are dropped; an acknowledgement answers them. -/
def permuteTake (x : Dx) (r : CollRun) (p : CollPkt) : Dx × CollRun :=
  let n := p.data.length
  let fit := min n (r.expect - r.got)
  let bs := (upto n).map (fun i => (nth 0 p.data i, p.poison.testBit (i / 64)))
  let inside := (upto fit).filter (fun i => x.c.jobByte (p.offset + i))
  let lost := (upto n).filter (fun i => !(decide (i < fit) && x.c.jobByte (p.offset + i)))
  let y := if inside.length = fit then x.writeFlagged 0 0 p.offset (bs.take fit)
    else inside.foldl (fun y i => y.writeFlagged 0 0 (p.offset + i) [nth (0, false) bs i]) x
  let y := y.collDrop lost.length (p.offset + nth 0 lost 0)
  (y.send (r.node p.sender) r.wadi (.permuteAck r.group r.tag n), { r with got := r.got + n })

/-- The ring step of a packet (R565): its LEVEL, or in a ring of more than 255 members the next step with that LEVEL whose shard has the segment. DESIGN CHOICE, log entry 65. -/
def CollRun.ringStep (r : CollRun) (p : CollPkt) : Option Nat :=
  let n := r.members.length
  if n ≤ 255 then some p.level
  else firstN n (fun l => decide (sget 0 r.steps p.segment < l) && r.levelByte l == p.level && decide (p.segment < r.segs (ringShard n p.sender l p.segment)))

/-- The values that a packet of a segment adds to those that have come: in order after them, or, of sparse records, in their places until the last packet (R583). Answers the whole so far
and whether more packets come. -/
def CollRun.gatherSeg (r : CollRun) (key k : Nat) (g : Nat → Nat) (p : CollPkt) : CollRun × List CVal × Bool :=
  let have_ := sget [] r.recv key
  if p.enc = 4 then
    let new := decodeVals p r.arith g k
    let zero := CVal.ofF32 r.arith negZero32 false
    let all := match sfind r.recv (key + 2 ^ 23) with
      | some old => List.zipWith (fun a b => if b = zero then a else b) old new
      | none => new
    if p.items = sparseFull then ({ r with recv := sput r.recv (key + 2 ^ 23) all }, [], true)
    else ({ r with recv := sdel r.recv (key + 2 ^ 23) }, all, false)
  else
    let all := have_ ++ decodeVals p r.arith (fun j => g (have_.length + j)) k
    (r, all, false)

/-- A reduction's partials (R570): kept by segment until the segment is whole, then added. -/
def reduceTake (x : Dx) (r : CollRun) (port : Nat) (p : CollPkt) : Dx × CollRun :=
  let n := r.members.length
  if r.det then
    let key := recvKey p.level p.sender p.segment
    let shards := treeShards n (p.level - 1) p.sender r.rank
    let k := min segElems (r.lenOf shards - p.segment * segElems)
    let (r, all, more) := r.gatherSeg key k (fun j => r.indexOf shards (p.segment * segElems + j)) p
    if more then (x, r)
    else
      let y := collCount x port (all.length - (sget [] r.recv key).length)
      treeSend y { r with recv := sput r.recv key all }
  else match r.ringStep p with
    | none => (x, r)
    | some step =>
      let key := recvKey step p.sender p.segment
      let sh := ringShard n p.sender step p.segment
      let (lo, k) := r.seg sh p.segment
      let (r, vs, more) := r.gatherSeg key k (fun j => lo + j) p
      if more then (x, r)
      else
        let y := collCount x port (vs.length - (sget [] r.recv key).length)
        if vs.length < k then (y, { r with recv := sput r.recv key vs })
        else
          let sum := zipAdd r.arith vs (r.own lo k)
          let r := { r with recv := sdel r.recv key, left := r.left - 1, steps := if n ≤ 255 then r.steps else sput r.steps p.segment step }
          if sh = r.rank then (y, { r with res := sput r.res p.segment sum })
          else (y.sendSeg r (ringNext n r.rank p.segment) (step + 1) p.segment (fun j => lo + j) false sum, r)

/-- The sums of the own shard of a reduction, once they are all there. -/
def ownSums (r : CollRun) : Option (List CVal) :=
  let (lo, n) := shardOf r.count r.members.length r.rank
  if r.det then treeVal r r.rank r.height
  else
    let vs := if r.members.length = 1 then r.own lo n else ((upto (r.segs r.rank)).map (fun s => sget [] r.res s)).flatten
    if vs.length = n then some vs else none

/-- When the own shard of a reduction is summed, finish it (R578), unless an RNG_LANE_SEED holds its first code-5 draw (R450). -/
def tryOwn (x : Dx) (r : CollRun) : Dx × CollRun :=
  if r.owned || !isReduction r.op then (x, r)
  else match ownSums r with
    | none => (x, r)
    | some vs =>
      let (y, u) := ownShard x { r with held := false } vs
      if x.held y then (x, { r with held := true }) else (y, u)

/-- Take one packet into its running descriptor, or discard it on a mismatch, which the descriptor does not get over (R567, R588). -/
def collTakeIn (x : Dx) (r : CollRun) (port : Nat) (p : CollPkt) : Dx × CollRun :=
  if !collAgrees r p then (x.core (fun c => collError c r.quarter 1), { r with mismatch := true })
  else if r.op = 0x64 then permuteTake x r p
  else if r.op = 0x65 then
    let r := { r with parts := sput r.parts (partKey p.sender p.segment) (p.data, p.poison) }
    (x, if p.data.length < pktBytes then { r with lens := sput r.lens p.sender (p.offset + p.data.length) } else r)
  else
    let final := !isReduction r.op || p.level == r.levelByte (if r.det then r.height + 1 else r.members.length)
    if final then (x, { r with parts := sput r.parts (partKey p.sender p.segment) (p.data, p.poison) })
    else
      let (y, r) := reduceTake x r port p
      tryOwn y r

/-- COLLECTIVE_PACKET for an open collective (R567, R570, R585): the descriptor of the run is `x`'s. Answers whether it is complete. -/
def collTake (x : Dx) (r : CollRun) (port : Nat) (p : CollPkt) : Dx × Bool :=
  let (y, r) := collTakeIn x r port p
  collSettle y r

/-- Bytes a parked packet takes: header and whole blocks. DEDUCED, log entry 67. -/
def parkBytes (p : CollPkt) : Nat := 32 + 64 * (1 + ceilDiv p.data.length 64)

/-- Flits that a collective packet takes (R528, R565). -/
def collFlits (p : CollPkt) : Nat := packetFlits (1 + ceilDiv p.data.length 64)

/-- Whether a quarter's parking area has room for a packet (R566, R593). -/
def Core.parkRoom (c : Core) (q : Nat) (p : CollPkt) : Bool :=
  decide ((c.coll.parked.filter (fun e => e.1 == q)).foldl (fun n e => n + parkBytes e.2.2) 0 + parkBytes p ≤ min (c.fld (Reg.collParkSize q) 0 7) 64 * 2 ^ 20)

/-- Flits that a collective packet held leave the receive buffer of its port (R531). Both classes of its wadi get the credits that were withheld (R566). -/
def Core.freeHeld (c : Core) (port wadi : Nat) (slot : Option (Nat × Nat)) : Core :=
  match slot with
  | some (cls, n) => (c.freeFlits port (2 * wadi + cls) n).grant port (2 * wadi + (1 - cls))
  | none => c

/-- COLLECTIVE_PACKET before its descriptor has started (R566): parked in the quarter of its port; when the area is full it stays in the receive buffer,
whose credits of its wadi are withheld. `slot` is the class and flits that it holds there. DEDUCED, log entry 67. -/
def collPark (c : Core) (port dst : Nat) (p : CollPkt) (slot : Option (Nat × Nat)) : Core :=
  if c.parkRoom (port % 4) p then { c with coll := { c.coll with parked := c.coll.parked ++ [(port % 4, dst, p)] } }.freeHeld port p.wadi slot
  else
    let (cls, n) := slot.getD (0, 0)
    { c with coll := { c.coll with stuck := c.coll.stuck ++ [{ port := port, dst := dst, pkt := p, cls := cls, flits := n }] } }

/-- Packets that no longer stay in the receive buffers: their credits return (R531). -/
def collUnheld (c : Core) (es : List Stuck) : Core := es.foldl (fun d e => d.freeHeld e.port e.pkt.wadi (some (e.cls, e.flits))) c

/-- Packets in the receive buffers go to parking areas that have room again, in the order of their arrival. -/
def collUnstick (c : Core) : Core :=
  c.coll.stuck.foldl (fun d e =>
    if d.parkRoom (e.port % 4) e.pkt then
      collUnheld { d with coll := { d.coll with stuck := d.coll.stuck.erase e, parked := d.coll.parked ++ [(e.port % 4, e.dst, e.pkt)] } } [e]
    else d) c

/-- Whether a packet that waits is for a collective. -/
def CollRun.mine (r : CollRun) (dst : Nat) (p : CollPkt) : Bool := dst == r.as && p.group == r.group && p.tag == r.tag

/-- Whether packets wait for a collective. -/
def Core.hasEarly (c : Core) (r : CollRun) : Bool := c.coll.parked.any (fun e => r.mine e.2.1 e.2.2) || c.coll.stuck.any (fun e => r.mine e.dst e.pkt)

/-- The packets that wait for an open collective leave the parking area and the receive buffers (R566). -/
def Core.takeEarly (c : Core) (r : CollRun) : Core × List (Nat × CollPkt) :=
  let mine := r.mine
  let held := c.coll.stuck.filter (fun e => mine e.dst e.pkt)
  let early := (c.coll.parked.filter (fun e => mine e.2.1 e.2.2)).map (fun e => (e.1, e.2.2)) ++ held.map (fun e => (e.port, e.pkt))
  (collUnstick (collUnheld { c with coll := { c.coll with parked := c.coll.parked.filter (fun e => !mine e.2.1 e.2.2), stuck := c.coll.stuck.filter (fun e => !mine e.dst e.pkt) } } held), early)

/-- Every packet that waits for its descriptor is discarded (R616). -/
def collDiscard (c : Core) : Core := collUnheld { c with coll := { c.coll with parked := [], stuck := [], aborts := [] } } c.coll.stuck

/-! ### Start of a collective -/

/-- The group record of a descriptor (R558): GROUP, members, and whether it is valid for this device (R559). -/
def readGroup (x : Dx) : Dx × Nat × List Nat × Bool :=
  let a := x.erg (x.f 32 0 31)
  let (y, head) := x.read a 16
  let n := min (ofLE ((head.drop 4).take 4)) 65536
  let (y, bs) := y.read (a + 16) (2 * n)
  let ms := (upto n).map (fun i => ofLE ((bs.drop (2 * i)).take 2))
  let rising := (upto (n - 1)).all (fun i => decide (nth 0 ms i < nth 0 ms (i + 1)))
  (y, ofLE (head.take 2), ms, rising && ms.contains y.c.me)

/-- The source of an ALLGATHER or BROADCAST in the wire format (R576), elements from index `base` of the vector. -/
def gatherSource (x : Dx) (op base n : Nat) : Dx × List (Byte × Bool) :=
  let sf := x.collSrcFmt op
  let wire := x.collWire op
  let (y, bs) := x.readVector sf (x.f 40 0 48) n
  if sf = wire then (y, bs) else collConvert y wire base (vectorElems sf n bs)

/-- Send a PERMUTE's move list (R584): a local copy for the own node, packets for others. Without a list (R561) nothing moves. -/
def permuteSend (x : Dx) (r : CollRun) : Dx × CollRun :=
  let aux := x.erg (x.f 60 0 31)
  if x.f 60 0 31 = 0 then (x, r) else
  let (y, n) := x.num aux 4
  let (y, expect) := y.num (aux + 4) 4
  let y := y.touch (aux + 8) (32 * n)
  let ents := (upto n).map (fun i => let e := aux + 8 + 32 * i; (y.at e 2, y.at (e + 4) 4, y.at (e + 8) 8 % 2 ^ 48, y.at (e + 16) 8 % 2 ^ 48))
  -- every source byte is read before any byte is written (R564)
  let (y, data) := ents.foldl (fun (p : Dx × List (List (Nat × List Byte × Bool))) e =>
    let (z, ps) := p.1.readPieces e.2.2.1 e.2.1
    (z, p.2 ++ [ps])) (y, [])
  (upto n).foldl (fun (p : Dx × CollRun) i =>
    let e := nth (0, 0, 0, 0) ents i
    let ps := nth [] data i
    if e.1 = x.c.me then ((p.1.writePieces 0 0 (ps.map (fun t => (e.2.2.2 + (t.1 - e.2.2.1), t.2)))).dmaCount e.2.1, p.2)
    else
      let bs := (ps.map (fun t => t.2.1.map (fun b => (b, t.2.2)))).flatten
      (p.1.sendBytes r e.1 5 1 pktBytes e.2.2.2 id bs, { p.2 with unacked := p.2.unacked + bs.length })) (y, { r with expect := expect })

/-- Send an ALLTOALL's blocks (R586), all empty without a block at AUX (R561): the last packet of a block is the one that is not full, empty when the length is a whole number of packets. -/
def alltoallSend (x : Dx) (r : CollRun) : Dx × CollRun :=
  let aux := x.erg (x.f 60 0 31)
  let (y, bs) := x.read aux 12
  let tab := ergByte (ofLE (bs.take 4))
  let n := r.members.length
  let none_ := decide (x.f 60 0 31 = 0)
  let y := if none_ then x else y.touch tab (8 * n)
  let blocks := (upto n).map (fun k => if none_ then (0, 0) else (y.at (tab + 8 * k) 4, y.at (tab + 8 * k + 4) 4))
  (upto n).foldl (fun (p : Dx × CollRun) k =>
    let b := nth (0, 0) blocks k
    let (y, ps) := p.1.readPieces (x.f 40 0 48 + b.1) b.2
    let bs := (ps.map (fun t => t.2.1.map (fun b => (b, t.2.2)))).flatten
    if k = r.rank then (y, { p.2.keepBytes k pktBytes bs with lens := sput p.2.lens k bs.length })
    else
      let y := y.sendBytes r (r.node k) 5 1 pktBytes 0 id bs
      (if bs.length % pktBytes = 0 then y.sendColl r (r.node k) (r.pkt 5 (bs.length / pktBytes) 1 0 bs.length [] 0) else y, p.2)) (y, r)

/-- The sends a collective makes at its start. -/
def collFirst (x : Dx) (r : CollRun) : Dx × CollRun :=
  let n := r.members.length
  match r.op with
  | 0x64 => permuteSend x r
  | 0x65 => alltoallSend x r
  | 0x62 =>
    let (lo, k) := shardOf r.count n r.rank
    let (y, bs) := gatherSource x r.op lo k
    let fmt := x.collWire r.op
    (((upto n).filter (fun t => t != r.rank)).foldl (fun y t =>
      y.sendBytes r (r.node t) (wireEnc fmt) 1 (wirePer fmt) (2 ^ 64) (wireItems fmt) bs) y, r.keepBytes r.rank (wirePer fmt) bs)
  | 0x63 =>
    if x.root r ≠ r.rank then (x, r)
    else
      let (y, bs) := gatherSource x r.op 0 r.count
      let fmt := x.collWire r.op
      (((upto n).filter (fun t => t != r.rank)).foldl (fun y t =>
        y.sendBytes r (r.node t) (wireEnc fmt) 1 (wirePer fmt) (2 ^ 64) (wireItems fmt) bs) y, r.keepBytes r.rank (wirePer fmt) bs)
  | _ =>
    let (y, src) := collContrib x r.op
    let r := { r with src := src, left := if r.det || n == 1 then 0 else ringLeft { r with src := src } }
    let (y, r) := if r.det then treeSend y r else (if n = 1 then y else ringStart y r, r)
    tryOwn y r

/-- A collective whose abort has come: status 0x50 and COLL_ERR.ABORTED (R589). -/
def collAborted (x : Dx) (r : CollRun) : Dx := (x.st 0x50).core (fun c => collError (collClose c r.strand) r.quarter 2)

/-- Start a collective (R557 to R594). `op` is its opcode, `det` its header's DET. An abort packet that has come for it ends it; packets parked for it are taken in (R566). Answers
whether it is complete. -/
def collStart (x : Dx) (op : Nat) (det : Bool) : Dx × Bool :=
  let strand := x.acc.strand.getD 64
  let (y, group, ms, ok) := readGroup x
  if !ok then ((y.st 0x20).core (fun c => collError c x.acc.q 0), true)
  else
    let r : CollRun := { strand := strand, as := y.c.me, quarter := x.acc.q, op := op, group := group, tag := x.f 36 0 32, epoch := x.f 46 0 16, det := det,
                         arith := isReduction op && x.f 24 4 1 == 1, count := x.f 28 0 32, thinK := x.collThinField op,
                         wadi := collWadi op (x.f 24 0 4), members := ms, rank := (firstN ms.length (fun i => nth 0 ms i == y.c.me)).getD 0 }
    let ended := y.c.coll.aborts.contains (r.as, group, r.tag)
    let (y, r) := if ended then (y, r) else collFirst y r
    let (c, early) := y.c.takeEarly r
    let y := y.core (fun _ => { c with coll := { c.coll with runs := c.coll.runs ++ [r], aborts := c.coll.aborts.filter (fun e => e != (r.as, group, r.tag)) } })
    if ended then (collAborted y r, true) else
    let (y, r) := early.foldl (fun (p : Dx × CollRun) e => collTakeIn p.1 p.2 e.1 e.2) (y, r)
    collSettle y r

/-- PERMUTE_ACK (R585). -/
def permuteAck (x : Dx) (r : CollRun) (bytes : Nat) : Dx × Bool := collSettle x { r with unacked := r.unacked - bytes }

/-- A collective's packet is unreachable (R589): status 0x50, and an abort packet to every other member on wadi 0. -/
def collLost (x : Dx) (r : CollRun) : Dx :=
  let y := (x.st 0x50).core (fun c => collClose c r.strand)
  ((upto r.members.length).filter (fun k => k != r.rank)).foldl (fun (y : Dx) k => y.send (r.node k) 0 (.collAbort r.group r.tag)) y

end Sys2Proof.Machine
end

