-- ==== Sys2Proof/Machine/LaneOps.lean ====
section
/-!
DEFINITION. The lane instruction set (R373 to R400): the instruction word, register access, and what each operation does to a thread group.
-/
namespace Sys2Proof.Machine
open Sys2Proof

/-- A field of an instruction word (R373). -/
structure LWord where
  w : Nat
deriving DecidableEq, Repr

/-- Group, operation, source-2 kind. -/
def LWord.grp (i : LWord) : Nat := field i.w 60 4
/-- Operation within the group. -/
def LWord.op (i : LWord) : Nat := field i.w 56 4
/-- Source-2 kind K; 3 acts as 0 (R376). -/
def LWord.k (i : LWord) : Nat := let k := field i.w 54 2; if k = 3 then 0 else k
/-- Destination register. -/
def LWord.dst (i : LWord) : Nat := field i.w 47 7
/-- Source registers. -/
def LWord.s1 (i : LWord) : Nat := field i.w 40 7
/-- Source 2. -/
def LWord.s2 (i : LWord) : Nat := field i.w 33 7
/-- Source 3. -/
def LWord.s3 (i : LWord) : Nat := field i.w 26 7
/-- Predicate register. -/
def LWord.pred (i : LWord) : Nat := field i.w 23 3
/-- Format code. -/
def LWord.fmt (i : LWord) : Nat := field i.w 20 3
/-- Rounding code; 7 acts as 0 (R379). -/
def LWord.rnd (i : LWord) : Nat := let r := field i.w 17 3; if r = 7 then 0 else r
/-- Immediate. -/
def LWord.imm (i : LWord) : Nat := field i.w 0 16
/-- The immediate sign-extended to 32 bits (R377). -/
def LWord.simm (i : LWord) : Nat := ofSigned 32 (toSigned 16 i.imm)
/-- The immediate as a floating-point source: SF16 widened to FP64 or FP32 bits (R377). -/
def LWord.fimm (i : LWord) (code : Nat) : Nat := (convBits 3 code Rnd.nearest i.imm).bits

/-- Operations that each group's table lists (R375). -/
def laneOps (grp : Nat) : Nat := nth 0 [14, 16, 5, 15, 7, 12, 4, 4, 7, 16] grp

/-- Whether an opcode is reserved (R375). -/
def LWord.reserved (i : LWord) : Bool := decide (laneOps i.grp ≤ i.op)

/-- A thread group at work: what it touches outside itself, its launch and its registers. `undef` numbers the draw of undefined register
values. -/
structure Lx where
  x : Dx
  run : LaneRun
  g : LaneGroup
  undef : Nat := 0
deriving DecidableEq, Repr

/-- Vector registers per group (R345). -/
def LaneRun.vregs (r : LaneRun) : Nat := (dfld r.desc 27 0 4 + 1) * 8
/-- Header flag DET of the launch. -/
def LaneRun.det (r : LaneRun) : Bool := dfld r.desc 1 4 1 == 1
/-- KEY of the launch. -/
def LaneRun.key (r : LaneRun) : Nat := dfld r.desc 48 0 64
/-- An Erg offset of the launch's descriptor, as a 31-bit offset that names its quarter (R454). -/
def LaneRun.off (r : LaneRun) (byte : Nat) : Nat := r.quarter * 2 ^ 29 + dfld r.desc byte 0 29
/-- Local address of entry `i` of the launch's deferred-add log (R345, R359). -/
def LaneRun.logAt (r : LaneRun) (i : Nat) : Nat := ergAddr r.quarter (dfld r.desc 56 0 29 / 16 * 16) + 16 * i
/-- Group scratch bytes (R345). -/
def LaneRun.scratch (r : LaneRun) : Nat := 128 * ceilDiv (dfld r.desc 44 0 32) 128
/-- Thread groups of the launch. -/
def LaneRun.groups (r : LaneRun) : Nat := dfld r.desc 28 0 24

/-- The register a vector field names (R344). -/
def Lx.vname (l : Lx) (r : Nat) : Nat := if r < l.run.vregs then r else 0

/-- A vector register of a thread (R348). DESIGN CHOICE, log entry 47. -/
def Lx.v (l : Lx) (r t : Nat) : Nat :=
  match sfind l.g.v (l.vname r * 32 + t) with
  | some x => x
  | none => Config.unwrittenReg l.undef (l.vname r) t % 2 ^ 32

/-- An FP64 pair of a thread (R374). -/
def Lx.w (l : Lx) (r t : Nat) : Nat := l.v (r / 2 * 2) t + l.v (r / 2 * 2 + 1) t * 2 ^ 32

/-- A scalar register. -/
def Lx.s (l : Lx) (r : Nat) : Nat := sget 0 l.g.s (r % 32)
/-- A scalar pair. -/
def Lx.sw (l : Lx) (r : Nat) : Nat := l.s (r % 32 / 2 * 2) + l.s (r % 32 / 2 * 2 + 1) * 2 ^ 32
/-- A predicate register. -/
def Lx.p (l : Lx) (r : Nat) : Nat := nth 0 l.g.p (r % 8)

/-- Write a vector register of a thread. -/
def Lx.setV (l : Lx) (r t x : Nat) : Lx := { l with g := { l.g with v := sput l.g.v (l.vname r * 32 + t) (x % 2 ^ 32) } }
/-- Write an FP64 pair of a thread. -/
def Lx.setW (l : Lx) (r t x : Nat) : Lx := (l.setV (r / 2 * 2) t (x % 2 ^ 32)).setV (r / 2 * 2 + 1) t (x / 2 ^ 32)
/-- Write a scalar register. -/
def Lx.setS (l : Lx) (r x : Nat) : Lx := { l with g := { l.g with s := sset 0 l.g.s (r % 32) (x % 2 ^ 32) } }
/-- Write a scalar pair. -/
def Lx.setSW (l : Lx) (r x : Nat) : Lx := (l.setS (r % 32 / 2 * 2) (x % 2 ^ 32)).setS (r % 32 / 2 * 2 + 1) (x / 2 ^ 32)
/-- Write a predicate register. -/
def Lx.setP (l : Lx) (r x : Nat) : Lx := { l with g := { l.g with p := setNth l.g.p (r % 8) (x % 2 ^ 32) } }
/-- Write one bit of a predicate register. -/
def Lx.setPbit (l : Lx) (r t : Nat) (b : Bool) : Lx := l.setP r (putField (l.p r) t 1 (b2n b))
/-- Raise exception flags (R385). -/
def Lx.raise (l : Lx) (f : Nat) : Lx := { l with g := { l.g with flags := l.g.flags ||| f } }

/-- Threads enabled for an instruction (R378), as a mask. -/
def Lx.enabled (l : Lx) (i : LWord) : Nat := l.g.active &&& l.p i.pred
/-- Enabled threads, ascending. -/
def Lx.threads (l : Lx) (i : LWord) : List Nat := (upto 32).filter (fun t => (l.enabled i).testBit t)

/-- Do something for each enabled thread, in ascending order. -/
def Lx.each (l : Lx) (i : LWord) (f : Lx → Nat → Lx) : Lx := (l.threads i).foldl f l

/-- Do something once for the group when a thread is enabled (R378). -/
def Lx.once (l : Lx) (i : LWord) (f : Lx → Lx) : Lx := if l.enabled i = 0 then l else f l

/-- IV, DZ, OF, UF, NX (R385). -/
def flIV : Nat := 1
/-- Division by zero. -/
def flDZ : Nat := 2
/-- Overflow, underflow and inexact of a rounded result. -/
def flagsOf (r : Rounded) : Nat := (if r.overflow then 4 else 0) + (if r.underflow then 8 else 0) + (if r.inexact then 16 else 0)

/-! ### Operands -/

/-- The arithmetic format of group 0 and 3: FMT 2 to 7 act as 1 (R380). -/
def LWord.ffmt (i : LWord) : Nat := if i.fmt = 0 then 0 else 1

/-- A floating-point source register of a thread. -/
def Lx.fsrc (l : Lx) (i : LWord) (r t : Nat) : Nat := if i.fmt = 0 then l.w r t else l.v r t

/-- Source 2 as a floating-point operand (R376, R377). -/
def Lx.fb (l : Lx) (i : LWord) (t : Nat) : Nat :=
  match i.k with
  | 1 => if i.fmt = 0 then l.sw i.s2 else l.s i.s2
  | 2 => i.fimm i.ffmt
  | _ => l.fsrc i i.s2 t

/-- The scalar that K = 1 broadcasts as an integer operand (R376): of the pair SW that FMT 0 names, an integer operation takes the low word. Group
1 ignores FMT (R384). DESIGN CHOICE, log entry 106. -/
def Lx.is (l : Lx) (i : LWord) : Nat := if i.fmt = 0 ∧ i.grp ≠ 1 then l.sw i.s2 % 2 ^ 32 else l.s i.s2

/-- Source 2 as an integer operand of a thread (R376, R377). -/
def Lx.ib (l : Lx) (i : LWord) (t : Nat) : Nat :=
  match i.k with
  | 1 => l.is i
  | 2 => i.simm
  | _ => l.v i.s2 t

/-- Write a floating-point result. -/
def Lx.setF (l : Lx) (i : LWord) (t x : Nat) : Lx := if i.fmt = 0 then l.setW i.dst t x else l.setV i.dst t x

/-! ### Rounding in lane instructions (R381, R439, R440) -/

/-- How the results of an instruction round: the code and the draw of each of the eight rounding groups. -/
structure LRnd where
  code : Nat
  draws : List Nat := []
deriving DecidableEq, Repr

/-- The rounding of thread `t`. -/
def LRnd.at_ (r : LRnd) (infEn : Bool) (t : Nat) : Rnd := { code := r.code, infEn := infEn, draw := nth 0 r.draws (t / 4), lane := t % 4 }

/-- Take the draws of an instruction that rounds: under code 4 by s31, which then steps; under code 5 from the lanes 4g of the processor
(R128, R341, R440). `rounds` tells whether results round; an exact operation of group 0 only steps s31. -/
def Lx.round (l : Lx) (i : LWord) (rounds : Bool) : Lx × LRnd :=
  if i.rnd = 4 ∧ l.g.active ≠ 0 then
    let n := l.s 31
    let key := kd l.run.key 0xFFFB 0
    (l.setS 31 (n + 1), { code := 4, draws := (upto 8).map (fun q => pk key (l.g.g % 2 ^ 24 * 2 ^ 40 + n * 2 ^ 8 + q)) })
  else if i.rnd = 5 ∧ rounds then
    let (m, ds) := (upto 8).foldl (fun (p : SMap Nat × List Nat) q =>
      let (m, d) := laneDraw p.1 (laneKey l.run.quarter l.g.proc (4 * q)); (m, p.2 ++ [d])) (l.x.lfsr, [])
    ({ l with x := { l.x with lfsr := m } }, { code := 5, draws := ds })
  else (l, { code := i.rnd })

/-- A source ulp far below every result: rounding with c = 24 (R381). -/
def farUlp : Int := -100000

/-! ### Group 0 -/

/-- Flags of NaN operands: IV for a signalling one (R141). -/
def nanFlags (code : Nat) (ops : List Nat) : Nat := if ops.any (isSignalling code) then flIV else 0

/-- A rounded operation's result and flags (R139 to R142): the first NaN operand made quiet, an invalid operation's canonical NaN, or the exact
result rounded. Whether an FMA of 0, infinity and a quiet NaN raises IV is left to the implementation by the standard; none is raised. DESIGN
CHOICE, log entry 101. -/
def finishOp (code : Nat) (r : Rnd) (ops : List Nat) (extra : Nat) (res : Fp) : Nat × Nat :=
  match firstNaN code ops with
  | some b => (b, nanFlags code ops)
  | none => match res with
    | .nan => (canonNaN code, flIV)
    | _ => let z := roundTo code r farUlp res; (z.bits, flagsOf z + extra)

/-- minimumNumber and maximumNumber (R380). -/
def minMax (code : Nat) (max : Bool) (a b : Nat) : Nat × Nat :=
  let x := decodeBits code a
  let y := decodeBits code b
  let f := nanFlags code [a, b]
  if x = .nan ∧ y = .nan then (quietBits code a, f)
  else if x = .nan then (b, f)
  else if y = .nan then (a, f)
  else
    let neg (z : Fp) : Bool := match z with | .fin s 0 _ => s | _ => false
    let less := Fp.lt x y || (x.isZero && y.isZero && neg x && !neg y)
    (if max = less then b else a, f)

/-- A group 0 operation on stored bits: result and flags. -/
def arith (op code : Nat) (r : Rnd) (a b c : Nat) : Nat × Nat :=
  let x := decodeBits code a
  let y := decodeBits code b
  let z := decodeBits code c
  let down := r.code == 3
  let zero (v : Fp) : Bool := match v with | .fin _ 0 _ => true | _ => false
  let fin (v : Fp) : Bool := match v with | .fin _ _ _ => true | _ => false
  match op with
  | 0 => finishOp code r [a, b] 0 (Fp.addR down x y)
  | 1 => finishOp code r [a, b] 0 (Fp.addR down x y.neg)
  | 2 => finishOp code r [a, b] 0 (Fp.mul x y)
  | 3 => finishOp code r [a, b, c] 0 (Fp.fmaR down x y z)
  | 4 => finishOp code r [a, b, c] 0 (Fp.fmaR down x y z.neg)
  | 5 => finishOp code r [a, b] (if zero y && fin x && !zero x then flDZ else 0) (Fp.div x y)
  | 6 => finishOp code r [a] 0 (Fp.sqrt x)
  | 7 => minMax code false a b
  | 8 => minMax code true a b
  | 9 => (a % 2 ^ (if code = 0 then 63 else 31), 0)
  | _ => let s := 2 ^ (if code = 0 then 63 else 31); (if a < s then a + s else a - s, 0)

/-- EXP2, LOG2, RSQRT (R382). -/
def transc (op a : Nat) : Nat × Nat :=
  let x := decodeBits 1 a
  match op with
  | 11 => finishOp 1 Rnd.nearest [a] 0 (Fp.exp2 x)
  | 12 => match x with
    | .fin _ 0 _ => (infBits 1 true, flDZ)
    | _ => finishOp 1 Rnd.nearest [a] 0 (Fp.log2 x)
  | _ => match x with
    | .fin s 0 _ => (infBits 1 s, flDZ)
    | _ => finishOp 1 Rnd.nearest [a] 0 (Fp.rsqrt x)

/-- Group 0 (R380 to R383). -/
def laneArith (l : Lx) (i : LWord) : Lx :=
  let op := i.op
  let (l1, r) := l.round i (decide (op ≤ 6))
  if op ≥ 11 then l1.each i (fun k t => let (b, f) := transc op (l.v i.s1 t); (k.setV i.dst t b).raise f)
  else l1.each i (fun k t =>
    let (b, f) := arith op i.ffmt (r.at_ false t) (l.fsrc i i.s1 t) (l.fb i t) (l.fsrc i i.s3 t)
    (k.setF i t b).raise f)

/-! ### Groups 1 and 9 -/

/-- A 32-bit integer operation (R384): `d` is the old destination, `imm` the immediate. -/
def intOp (op a b c d imm : Nat) : Nat :=
  match op with
  | 0 => (a + b) % 2 ^ 32
  | 1 => (a + 2 ^ 32 - b) % 2 ^ 32
  | 2 => a * b % 2 ^ 32
  | 3 => (a * b + c) % 2 ^ 32
  | 4 => a * b / 2 ^ 32
  | 5 => a &&& b
  | 6 => a ||| b
  | 7 => a ^^^ b
  | 8 => (a <<< (b % 32)) % 2 ^ 32
  | 9 => a >>> (b % 32)
  | 10 => ofSigned 32 (toSigned 32 a / (2 ^ (b % 32) : Nat))
  | 11 => if toSigned 32 a ≤ toSigned 32 b then a else b
  | 12 => if toSigned 32 a ≤ toSigned 32 b then b else a
  | 13 => ((upto 32).filter (fun j => a.testBit j)).length
  | 14 => d % 2 ^ 16 + imm * 2 ^ 16
  | _ => b

/-- Group 1, per thread. -/
def laneInt (l : Lx) (i : LWord) : Lx :=
  l.each i (fun k t => k.setV i.dst t (intOp i.op (l.v i.s1 t) (l.ib i t) (l.v i.s3 t) (l.v i.dst t) i.imm))

/-- Group 9, once for the group (R378, R384). -/
def laneScalar (l : Lx) (i : LWord) : Lx :=
  l.once i (fun k => k.setS i.dst (intOp i.op (l.s i.s1) (if i.k = 2 then i.simm else l.s i.s2) (l.s i.s3) (l.s i.dst) i.imm))

/-! ### Group 2 -/

/-- The decoded value and source ulp of a narrow format in a register (R386). -/
def convSrc (code raw : Nat) : Fp × Int :=
  if code = 7 then (decodeB8 (field raw 8 8) (raw % 256), (field raw 8 8 : Int) - 133)
  else
    let bits := match code with
      | 0 => raw % 2 ^ 64
      | 1 | 2 => raw % 2 ^ 32
      | 3 | 4 => raw % 2 ^ 16
      | _ => raw % 2 ^ 8
    let x := decodeBits code bits
    (x, srcUlpOf code x)

/-- Whether a written value differs from its source (R389). -/
def differs (x y : Fp) : Bool := !(x == .nan && y == .nan) && !Fp.eq x y

/-- A conversion to format `dst` (not B8) of a source value: stored bits and flags (R389). -/
def convTo (src dst raw : Nat) (r : Rnd) : Nat × Nat :=
  let (x, u) := convSrc src raw
  let z := if src = 0 ∧ dst = 1 then convBits 0 1 r raw else roundTo dst r u x
  let y := decodeBits dst z.bits
  let inf := match x with | .inf _ => true | _ => false
  let sat := z.overflow || (inf && differs x y)
  let iv := if (src = 0 ∨ src = 1) ∧ isSignalling src raw then flIV else 0
  (z.bits, iv ||| (if sat then 4 else 0) ||| (if z.underflow then 8 else 0) ||| (if sat || differs x y then 16 else 0))

/-- A conversion of the 32 threads to one B8 block (R388): results by thread, as m and E, with flags. OF where the clamp of R134 saturates. -/
def convB8 (src : Nat) (raws : List Nat) (r : Nat → Rnd) : List (Nat × Nat) :=
  let xs := raws.map (convSrc src)
  let (e, ms) := roundB8 r (fun j => (nth (Fp.zero, 0) xs j).2) (xs.map (·.1))
  ms.mapIdx (fun t v =>
    let x := (nth (Fp.zero, 0) xs t).1
    let m := ofSigned 8 (max (-127) (min 127 v))
    let y := decodeB8 e m
    let raw := nth 0 raws t
    let iv := if (src = 0 ∨ src = 1) ∧ isSignalling src raw then flIV else 0
    let sat := decide (v.natAbs > 127)
    (m + e * 256, iv ||| (if sat then 4 else 0) ||| (if sat || differs x y then 16 else 0)))

/-- Float to integer (R387): bits and flags. A NaN written as 0 and a saturated value differ from the source, so they raise NX as well (R389). -/
def toInt (src raw : Nat) (signed : Bool) (code : Nat) : Nat × Nat :=
  let (x, _) := convSrc src raw
  let lo : Int := if signed then -2 ^ 31 else 0
  let hi : Int := if signed then 2 ^ 31 - 1 else 2 ^ 32 - 1
  match x with
  | .nan => (0, flIV + 16)
  | .inf neg => (ofSigned 32 (if neg then lo else hi), flIV + 16)
  | .fin neg m e =>
    let (t, nx) := toIntGrid { code := code } neg m e
    let v : Int := if neg then -(t : Int) else t
    if v < lo then (ofSigned 32 lo, flIV + 16) else if hi < v then (ofSigned 32 hi, flIV + 16) else (ofSigned 32 v, if nx then 16 else 0)

/-- Write a converted value. -/
def Lx.setC (l : Lx) (dst : Nat) (i : LWord) (t x : Nat) : Lx := if dst = 0 then l.setW i.dst t x else l.setV i.dst t x

/-- A source register in a format's class. -/
def Lx.csrc (l : Lx) (code : Nat) (i : LWord) (t : Nat) : Nat := if code = 0 then l.w i.s1 t else l.v i.s1 t

/-- Group 2 (R387 to R389). INF_EN of a conversion is IMM[15] (R121). DEDUCED, log entry 105. -/
def laneConv (l : Lx) (i : LWord) : Lx :=
  let inf := bit i.imm 15
  match i.op with
  | 3 | 4 =>
    let code := if i.rnd ≥ 4 then 0 else i.rnd
    l.each i (fun k t => let (b, f) := toInt i.fmt (l.csrc i.fmt i t) (i.op == 3) code; (k.setV i.dst t b).raise f)
  | _ =>
    let (l1, r) := l.round i true
    if i.op = 0 ∨ i.fmt = 7 then
      let src := if i.op = 0 then field i.imm 0 3 else 1
      if i.fmt = 7 then
        let outs := convB8 src ((upto 32).map (l.csrc src i)) (r.at_ inf)
        l1.each i (fun k t => let o := nth (0, 0) outs t; (k.setV i.dst t o.1).raise o.2)
      else l1.each i (fun k t => let (b, f) := convTo src i.fmt (l.csrc src i t) (r.at_ inf t); (k.setC i.fmt i t b).raise f)
    else l1.each i (fun k t =>
      let a := l.v i.s1 t
      let v : Int := if i.op = 1 then toSigned 32 a else a
      let z := roundTo i.fmt (r.at_ inf t) 0 (Fp.ofInt v)
      (k.setC i.fmt i t z.bits).raise (flagsOf z))

/-! ### Group 3 -/

/-- Source 2 of a predicate operation as 32 bits, one per thread (R376, R390). DESIGN CHOICE, log entry 106. -/
def Lx.pb (l : Lx) (i : LWord) : Nat :=
  match i.k with
  | 1 => l.is i
  | 2 => i.simm
  | _ => l.p i.s2

/-- Group 3 (R390). The immediate of SEL is an integer source, 32 bits wide (R377). DESIGN CHOICE, log entry 106. -/
def laneCmp (l : Lx) (i : LWord) : Lx :=
  let code := i.ffmt
  match i.op with
  | 0 | 1 | 2 | 3 | 4 => l.each i (fun k t =>
      let a := l.fsrc i i.s1 t
      let b := l.fb i t
      let x := decodeBits code a
      let y := decodeBits code b
      let un := x == .nan || y == .nan
      let r := match i.op with
        | 0 => !un && Fp.eq x y
        | 1 => !un && Fp.lt x y
        | 2 => !un && Fp.le x y
        | 3 => un || !Fp.eq x y
        | _ => un
      (k.setPbit i.dst t r).raise (nanFlags code [a, b]))
  | 5 => l.each i (fun k t => k.setPbit i.dst t (l.v i.s1 t == l.ib i t))
  | 6 => l.each i (fun k t => k.setPbit i.dst t (decide (toSigned 32 (l.v i.s1 t) < toSigned 32 (l.ib i t))))
  | 7 => l.each i (fun k t => k.setPbit i.dst t (decide (l.v i.s1 t < l.ib i t)))
  | 8 => l.each i (fun k t =>
      let b := match i.k with
        | 1 => if i.fmt = 0 then l.sw i.s2 else l.s i.s2
        | 2 => i.simm
        | _ => l.fsrc i i.s2 t
      k.setF i t (if (l.p i.s3).testBit t then l.fsrc i i.s1 t else b))
  | 9 => l.each i (fun k t => k.setPbit i.dst t ((l.p i.s1).testBit t && (l.pb i).testBit t))
  | 10 => l.each i (fun k t => k.setPbit i.dst t ((l.p i.s1).testBit t || (l.pb i).testBit t))
  | 11 => l.each i (fun k t => k.setPbit i.dst t ((l.p i.s1).testBit t != (l.pb i).testBit t))
  | 12 => l.each i (fun k t => k.setPbit i.dst t ((l.p i.s1).testBit t && !(l.pb i).testBit t))
  | 13 => l.once i (fun k => k.setS i.dst (l.p i.s1))
  | _ => l.once i (fun k => k.setP i.dst (l.s i.s1))

/-! ### Group 4 and 7: memory (R354, R391 to R394, R398) -/

/-- Access width of a format (R393). -/
def laneWidth (fmt : Nat) : Nat :=
  match fmt with
  | 0 => 8
  | 1 | 2 => 4
  | 3 | 4 => 2
  | 7 => 33
  | _ => 1

/-- The address of a thread before alignment (R392). -/
def Lx.addr (l : Lx) (i : LWord) (erg group : Bool) (t : Nat) : Nat :=
  let base := if erg then 0x8000000000 + l.s i.s1 else l.sw i.s1
  let off := match i.k with
    | 1 => l.s i.s2
    | 2 => 0
    | _ => if group then 0 else l.v i.s2 t
  (base + off + ofSigned 64 (toSigned 16 i.imm)) % 2 ^ 64

/-- Whether `n` bytes at an address lie in the job's own device memory on this device (R34, R354, R394). -/
def Lx.mine (l : Lx) (a n : Nat) : Bool :=
  let node := a / 2 ^ 48
  let b := a % 2 ^ 48
  (node == 0 || node == l.x.c.node) && (match place b with
    | .dram => decide (b + n ≤ dramEnd)
    | .erg q off => decide (off + n ≤ l.x.c.top q)
    | _ => false)

/-- Count accesses of `n` bytes outside the job's own device memory (R354, R394), and those of this device's Erg store at or above TOP in the quarter
addressed (R458). -/
def Lx.remote (l : Lx) (as : List Nat) (n : Nat) : Lx :=
  if as.isEmpty then l
  else
    let own (a : Nat) : Bool := a / 2 ^ 48 == 0 || a / 2 ^ 48 == l.x.c.node
    { l with x := l.x.core (fun c => (as.filter own).foldl (fun d a => d.countAbove (a % 2 ^ 48) n) (c.inc (Reg.laneRemote l.run.quarter) as.length)) }

/-- The effects of the reads of one instruction: one access for each distinct 32 B sector, on the narrow path where its line has no other
(R355, R471). -/
def Lx.touch (l : Lx) (rs : List (Nat × Nat)) : Lx :=
  let ss := (rs.map (fun r => (sectorsOf r.1 r.2).map (· / 32))).flatten.foldl insN []
  ss.foldl (fun k s =>
    let one := (ss.filter (fun t => t / 4 == s / 4)).length == 1
    let y := ({ k.x with acc := { k.x.acc with narrow := one } }).touch (32 * s) 32
    { k with x := { y with acc := { y.acc with narrow := false } } }) l

/-- The order in which the threads of an instruction reach one place: ascending from an unspecified thread where two touch the same bytes (R356,
R358), else ascending. DESIGN CHOICE, log entry 48. -/
def Lx.arrival (l : Lx) (ts : List Nat) (rs : List (Nat × Nat)) : Lx × List Nat :=
  let clash := (rs.mapIdx (fun i r => (i, r))).any (fun p => (rs.take p.1).any (fun q => meets p.2.1 p.2.2 q.1 (q.1 + q.2)))
  if clash then let (y, v) := l.x.fresh; let k := v % max 1 ts.length; ({ l with x := y }, ts.drop k ++ ts.take k) else (l, ts)

/-- Store bytes of several threads as runs of consecutive addresses. -/
def Lx.storeAll (l : Lx) (ws : List (Nat × List Byte)) : Lx :=
  let m : SMap Byte := ws.foldl (fun m w => (w.2.foldl (fun (p : SMap Byte × Nat) b => (sput p.1 p.2 b, p.2 + 1)) (m, w.1)).1) []
  let runs : List (Nat × List Byte) := m.foldr (fun p acc => match acc with
    | (a, bs) :: t => if p.1 + 1 = a then (p.1, p.2 :: bs) :: t else (p.1, [p.2]) :: acc
    | [] => [(p.1, [p.2])]) []
  { l with x := runs.foldl (fun y r => y.write r.1 r.2) l.x }

/-- LD and LDE. -/
def laneLoad (l : Lx) (i : LWord) (erg : Bool) : Lx :=
  let ts := l.threads i
  let n := laneWidth i.fmt
  if i.fmt = 7 then
    match ts with
    | [] => l
    | t0 :: _ =>
      let a := l.addr i erg false t0
      if !l.mine a 33 then (l.remote [a] 33).each i (fun k t => k.setV i.dst t 0)
      else
        let b := a % 2 ^ 48
        let k0 := l.touch [(b, 33)]
        k0.each i (fun k t => k.setV i.dst t (k0.x.at (b + 1 + t) 1 + (k0.x.at b 1) * 256))
  else
    let at_ (t : Nat) : Nat := l.addr i erg false t / n * n
    let ok := ts.filter (fun t => l.mine (at_ t) n)
    let k0 := (l.remote ((ts.filter (fun t => !ok.contains t)).map at_) n).touch (ok.map (fun t => (at_ t % 2 ^ 48, n)))
    k0.each i (fun k t =>
      let v := if ok.contains t then k0.x.at (at_ t % 2 ^ 48) n else 0
      if i.fmt = 0 then k.setW i.dst t v else k.setV i.dst t v)

/-- ST and STE. -/
def laneStore (l : Lx) (i : LWord) (erg : Bool) : Lx :=
  let ts := l.threads i
  let n := laneWidth i.fmt
  if i.fmt = 7 then
    match ts with
    | [] => l
    | t0 :: _ =>
      let a := l.addr i erg false t0
      if !l.mine a 33 then l.remote [a] 33
      else
        let b := a % 2 ^ 48
        l.storeAll ((b, leBytes 1 (l.v i.s3 t0 / 256)) :: ts.map (fun t => (b + 1 + t, leBytes 1 (l.v i.s3 t))))
  else
    let at_ (t : Nat) : Nat := l.addr i erg false t / n * n
    let ok := ts.filter (fun t => l.mine (at_ t) n)
    let k0 := l.remote ((ts.filter (fun t => !ok.contains t)).map at_) n
    let (k1, order) := k0.arrival ok (ok.map (fun t => (at_ t, n)))
    k1.storeAll (order.map (fun t => (at_ t % 2 ^ 48, leBytes n (if i.fmt = 0 then l.w i.s3 t else l.v i.s3 t))))

/-- LDS and LDSE (R391, R392). -/
def laneLoadS (l : Lx) (i : LWord) (erg : Bool) : Lx :=
  l.once i (fun l =>
    let a := l.addr i erg true 0 / 4 * 4
    if !l.mine a 4 then (l.remote [a] 4).setS i.dst 0
    else
      let k := l.touch [(a % 2 ^ 48, 4)]
      k.setS i.dst (k.x.at (a % 2 ^ 48) 4))

/-- Keep at most `cap` deferred adds, those with the lowest keys (R360). Answers the place in the log of the new entry, unless it is the one dropped, and
whether one was dropped. -/
def addEntry (r : LaneRun) (cap : Nat) (e : DefAdd) : LaneRun × Option Nat × Bool :=
  let put (e : DefAdd) := insBy (fun a b => decide (a.key ≤ b.key)) e r.adds
  if r.adds.length < cap then ({ r with adds := put { e with place := r.adds.length } }, some r.adds.length, false)
  else
    let gone := (put e).getLast?
    let at_ := (gone.getD e).place
    let r1 := { r with drops := r.drops + 1, dropPos := min r.dropPos (gone.getD e).key }
    if gone = some e ∨ gone = none then (r1, none, true) else ({ r1 with adds := (put { e with place := at_ }).dropLast }, some at_, true)

/-- The bytes of a deferred-add log entry: the spec gives their number and not their layout. They are open, but tell entries apart. DESIGN CHOICE, log
entry 107. -/
def Core.logEntry (c : Core) (e : DefAdd) : Core × List Byte :=
  let v := Config.freeValue c.free % 2 ^ 128
  let used (i : Nat) : Bool := match sfind c.addLogs ((v + i) % 2 ^ 128) with | some d => { d with place := 0 } != { e with place := 0 } | none => false
  let i := ((upto (c.addLogs.length + 1)).find? (fun i => !used i)).getD 0
  let b := (v + i) % 2 ^ 128
  ({ c with free := c.free + 1, addLogs := sput c.addLogs b { e with place := 0 } }, leBytes 16 b)

/-- The deferred add that the 16 bytes of a log entry say: one this device wrote, or what another device's bytes mean. DESIGN CHOICE, log entry 107. -/
def Core.readEntry (c : Core) (b place : Nat) : DefAdd :=
  match sfind c.addLogs b with
  | some e => { e with place := place }
  | none =>
    let wide := Config.logField b 2 % 2 == 1
    { key := Config.logField b 0 % 2 ^ 53, addr := Config.logField b 1 % 2 ^ 48 / (if wide then 8 else 4) * (if wide then 8 else 4), wide := wide,
      val := Config.logField b 3 % 2 ^ (if wide then 64 else 32), place := place }

/-- Group 7 (R357 to R361, R398). DESIGN CHOICE, log entry 48. -/
def laneAtomic (l : Lx) (i : LWord) : Lx :=
  let erg := decide (i.op ≥ 2)
  let isF := i.op % 2 == 1
  let wide := isF && i.fmt == 0
  let n := if wide then 8 else 4
  let at_ (t : Nat) : Nat := l.addr i erg false t / n * n
  let ts := l.threads i
  let ok := ts.filter (fun t => l.mine (at_ t) n)
  let val (t : Nat) : Nat := if wide then l.w i.s3 t else l.v i.s3 t
  let put (k : Lx) (t v : Nat) : Lx := if wide then k.setW i.dst t v else k.setV i.dst t v
  let away := ts.filter (fun t => !ok.contains t)
  let k0 := away.foldl (fun k t => put k t 0) (l.remote (away.map at_) n)
  if l.run.det ∧ isF then
    let cap := dfld l.run.desc 60 0 24
    ok.foldl (fun k t =>
      let cnt := sget 0 k.g.adds t
      let key := l.g.g * 2 ^ 32 + t * 2 ^ 24 + min cnt (2 ^ 24 - 1)
      let k := put k t 0
      if cnt ≥ 2 ^ 24 then
        { k with run := { k.run with drops := k.run.drops + 1, dropPos := min k.run.dropPos key },
                 x := k.x.core (fun c => c.raise (qpage l.run.quarter 4) 3) }
      else
        let e : DefAdd := { key := key, addr := at_ t % 2 ^ 48, wide := wide, val := val t }
        let (r, place, full) := addEntry k.run cap e
        let x := if full then k.x.core (fun c => c.raise (qpage l.run.quarter 4) 3) else k.x
        let x := match place with
          | none => x
          | some i =>
            let (c, bs) := x.c.logEntry e
            { x with c := c }.write (l.run.logAt i) bs
        { k with run := r, x := x, g := { k.g with adds := sput k.g.adds t (cnt + 1) } }) k0
  else
    let (k1, order) := k0.arrival ok (ok.map (fun t => (at_ t, n)))
    order.foldl (fun k t =>
      let a := at_ t % 2 ^ 48
      let (y, old) := (k.x.core (fun c => c.settleWord a)).num a n
      let new := if isF then (if wide then fp64Add old (val t) else fp32Add old (val t)) else (old + val t) % 2 ^ 32
      let k := { k with x := y.write a (leBytes n new) }
      if l.run.det then k.setV i.dst t 0 else put k t old) k1

/-! ### Group 5: cross-lane (R395, R396) -/

/-- A pairwise tree over 32 leaves of stored bits with flags (R210, R396). -/
def bitTree (f : Nat → Nat → Nat × Nat) : Nat → List Nat → Nat × Nat
  | 0, xs => (xs.headD 0, 0)
  | h + 1, xs =>
    let a := bitTree f h (xs.take (2 ^ h))
    let b := bitTree f h (xs.drop (2 ^ h))
    let r := f a.1 b.1
    (r.1, a.2 ||| b.2 ||| r.2)

/-- Group 5. -/
def laneCross (l : Lx) (i : LWord) : Lx :=
  let code := i.ffmt
  let a (t : Nat) : Nat := l.fsrc i i.s1 t
  let c (t : Nat) : Nat := l.fsrc i i.s3 t
  let on (t : Nat) : Bool := (l.enabled i).testBit t
  let rnd : Rnd := { code := if i.rnd = 4 ∨ i.rnd = 5 then 0 else i.rnd }
  let neg0 := if code = 0 then 2 ^ 63 else 2 ^ 31
  let width := if i.fmt = 0 then 64 else 32
  match i.op with
  | 0 => l.each i (fun k t => k.setF i t (a (l.ib i t % 32)))
  | 1 => l.each i (fun k t => let b := l.ib i t; k.setF i t (if b ≤ t then a (t - b) else c t))
  | 2 => l.each i (fun k t => let b := l.ib i t; k.setF i t (if t + b ≤ 31 then a (t + b) else c t))
  | 3 => l.each i (fun k t => k.setF i t (a (t ^^^ (l.ib i t % 32))))
  | 4 | 5 | 6 =>
    let idle := if i.op = 4 then neg0 else infBits code (i.op == 6)
    let op := if i.op = 4 then 0 else if i.op = 5 then 7 else 8
    let (r, f) := bitTree (fun x y => arith op code rnd x y 0) 5 ((upto 32).map (fun t => if on t then a t else idle))
    l.each i (fun k t => (k.setF i t r).raise f)
  | 7 =>
    let (_, outs) := (upto 32).foldl (fun (p : Option Nat × List (Nat × Nat)) t =>
      let x := if on t then a t else neg0
      match p.1 with
      | none => (some x, p.2 ++ [(x, 0)])
      | some s => let r := arith 0 code rnd s x 0; (some r.1, p.2 ++ [r])) (none, [])
    let fl := outs.foldl (fun f r => f ||| r.2) 0
    l.each i (fun k t => (k.setF i t (nth (0, 0) outs t).1).raise fl)
  | 8 =>
    let sum := (upto 32).foldl (fun s t => if on t then (s + a t) % 2 ^ width else s) 0
    l.each i (fun k t => k.setF i t sum)
  | 9 =>
    l.each i (fun k t => k.setF i t ((upto (t + 1)).foldl (fun s u => if on u then (s + a u) % 2 ^ width else s) 0))
  | 10 => l.once i (fun k => k.setS i.dst ((upto 32).foldl (fun s u => if on u && a u != 0 then s + 2 ^ u else s) 0))
  | _ => l.once i (fun k =>
      let t0 := (l.threads i).headD 0
      let v := a (l.ib i t0 % 32)
      if i.fmt = 0 then k.setSW i.dst v else k.setS i.dst v)

/-! ### Group 6: draws (R397) -/

/-- Group 6. -/
def laneDraws (l : Lx) (i : LWord) : Lx :=
  match i.op with
  | 0 => l.each i (fun k t => k.setW i.dst t (pk l.run.key (i.imm * 2 ^ 48 + l.w i.s1 t % 2 ^ 48)))
  | 1 => l.each i (fun k t =>
      let key := laneKey l.run.quarter l.g.proc t
      let v := lfsrNext (laneState k.x.lfsr key)
      { k with x := { k.x with lfsr := setLane k.x.lfsr key v } }.setV i.dst t v)
  | 2 => l.each i (fun k t => k.setV i.dst t (roundTo 1 Rnd.nearest 0 (.fin false (field (l.w i.s1 t) 40 24) (-24))).bits)
  | _ => l.each i (fun k t => k.setPbit i.dst t (decide (l.w i.s1 t / 2 ^ 32 < l.ib i t)))

/-! ### Group 8: control and divergence (R399, R400) -/

/-- Why a group stops (R353): 1 stack overflow, 2 fetch beyond the program, 3 reserved opcode. -/
inductive LaneEnd where
  | goes
  | exits
  | stops (reason : Nat)
deriving DecidableEq, Repr

/-- An instruction index reached from `i` by a signed distance; a negative one lies beyond the program. -/
def laneTarget (i : Nat) (d : Int) : Nat := let t := (i : Int) + d; if t < 0 then 2 ^ 22 else t.toNat

/-- The fetch step of R400: pop until threads are active and the group is not at its reconvergence index. -/
def laneFetch : Nat → LaneGroup → LaneGroup × LaneEnd
  | 0, g => (g, .goes)
  | n + 1, g =>
    let rc := g.stack.find? (fun e => e.1 == 0)
    let meet := match rc with | some e => e.2.2 == g.pc | none => false
    if g.active = 0 ∨ meet = true then
      match g.stack with
      | [] => if g.active = 0 then (g, .exits) else (g, .goes)
      | e :: rest => laneFetch n { g with stack := rest, active := e.2.1 &&& (g.exited ^^^ 0xFFFFFFFF), pc := e.2.2 }
    else (g, .goes)

/-- The return index of instruction `i` with a displacement, in the 22 bits of a divergence stack entry (R342). -/
def laneReturn (i : Nat) (d : Int) : Nat := (((i : Int) + d).emod (2 ^ 22)).toNat

/-- BRA (R400) with return index `r`; none when the stack would overflow. An entry holds an index of 22 bits (R342). -/
def laneBra (g : LaneGroup) (taken i target r : Nat) : Option LaneGroup :=
  let t := g.active &&& taken
  let next := (i + 1) % 2 ^ 22
  if t = g.active then some { g with pc := target }
  else if t = 0 then some { g with pc := i + 1 }
  else
    let n := g.active &&& (t ^^^ 0xFFFFFFFF)
    match g.stack with
    | (1, m, x) :: (0, m2, y) :: rest =>
      if x = next ∧ y = r then some { g with stack := (1, m ||| n, x) :: (0, m2, y) :: rest, active := t, pc := target }
      else if g.stack.length + 2 > 64 then none
      else some { g with stack := (1, n, next) :: (0, g.active, r) :: g.stack, active := t, pc := target }
    | st =>
      if st.length + 2 > 64 then none
      else some { g with stack := (1, n, next) :: (0, g.active, r) :: st, active := t, pc := target }

/-- Group 8 up to the next fetch: none is a stack overflow. -/
def laneCtl (l : Lx) (i : LWord) : Option Lx :=
  let pc := l.g.pc
  match i.op with
  | 0 => (laneBra l.g (l.p i.pred) pc (laneTarget pc (toSigned 16 i.imm)) (laneReturn pc (toSigned 14 (field i.w 26 14)))).map (fun g => { l with g := g })
  | 1 => some { l with g := { l.g with pc := laneTarget pc (toSigned 16 i.imm) } }
  | 2 => some { l with g := { l.g with pc := l.s i.s1 % 2 ^ 22 } }
  | 3 =>
    let ex := l.g.exited ||| l.enabled i
    some { l with g := { l.g with exited := ex, active := l.g.active &&& (ex ^^^ 0xFFFFFFFF), pc := pc + 1 } }
  | 5 => let k := l.once i (fun k => k.setS i.dst l.g.flags); some { k with g := { k.g with pc := pc + 1 } }
  | 6 => let k := l.once i (fun k => { k with g := { k.g with flags := k.g.flags &&& (i.imm % 32 ^^^ 0xFFFFFFFF) } })
         some { k with g := { k.g with pc := pc + 1 } }
  | _ => some { l with g := { l.g with pc := pc + 1 } }

/-- What an instruction outside group 8 does. -/
def laneDo (l : Lx) (i : LWord) : Lx :=
  match i.grp with
  | 0 => laneArith l i
  | 1 => laneInt l i
  | 2 => laneConv l i
  | 3 => laneCmp l i
  | 4 => match i.op with
    | 0 => laneLoad l i false
    | 1 => laneStore l i false
    | 2 => laneLoad l i true
    | 3 => laneStore l i true
    | 4 => laneLoadS l i false
    | 5 => laneLoadS l i true
    | _ => l
  | 5 => laneCross l i
  | 6 => laneDraws l i
  | 7 => laneAtomic l i
  | _ => laneScalar l i

/-- Run one fetched instruction and the fetch step that follows it. -/
def laneRunWord (l : Lx) (i : LWord) : Lx × LaneEnd :=
  let after := if i.grp = 8 then laneCtl l i else let k := laneDo l i; some { k with g := { k.g with pc := k.g.pc + 1 } }
  match after with
  | none => (l, .stops 1)
  | some k =>
    let (g, e) := laneFetch 130 k.g
    let k := { k with g := g }
    if e = .goes ∧ g.pc ≥ 2 ^ 22 then (k, .stops 2) else (k, e)

end Sys2Proof.Machine
end

