-- ==== Sys2Proof/Machine/Lane.lean ====
section
/-!
DEFINITION. The lane processors (R341 to R372): launches, dispatch, issue, group stops, deferred adds, and context images. A launch runs
while it stands in `Core.lanes`; what answers `true` beside the descriptor has completed it.
-/
namespace Sys2Proof.Machine
open Sys2Proof

/-- The running launch of a strand. -/
def Core.launch? (c : Core) (strand : Nat) : Option LaneRun := c.lanes.find? (fun r => r.strand == strand)

/-- Replace a strand's running launch. -/
def Core.setLaunch (c : Core) (r : LaneRun) : Core := { c with lanes := c.lanes.map (fun x => if x.strand == r.strand then r else x) }

/-- Remove a strand's running launch. -/
def Core.dropLaunch (c : Core) (strand : Nat) : Core := { c with lanes := c.lanes.filter (fun x => x.strand != strand) }

/-- Thread groups resident on a quarter (R371). -/
def Core.residentGroups (c : Core) (q : Nat) : Nat :=
  (c.lanes.filter (fun r => r.quarter == q)).foldl (fun n r => n + r.resident.length) 0

/-- Whether the lane processors of a quarter are faulty (R363). -/
def Core.lanesFaulty (c : Core) (q : Nat) : Bool := c.fld (Reg.laneFault q) 0 1 == 1

/-- PROC_COUNT of a launch or restore; 0 acts as 128 (R345). -/
def procCount (d : BitVec 512) : Nat := let n := dfld d 24 0 7; if n = 0 then 128 else n

/-- LANE_LAUNCH (R345, R346, R363). -/
def laneLaunch (x : Dx) : Dx × Bool :=
  let q := x.acc.q
  if x.c.lanesFaulty q then (x.st 0x40, true)
  else if x.f 28 0 24 = 0 then (x, true)
  else
    let r : LaneRun := { strand := x.acc.strand.getD 0, quarter := q, desc := x.desc, procFirst := x.f 25 0 7, procCount := procCount x.desc }
    (x.core (fun c => { c with lanes := c.lanes ++ [r] }), false)

/-- Whether a collective is open on a quarter (R587). -/
def Core.collOpen (c : Core) (q : Nat) : Bool := c.coll.runs.any (fun r => r.quarter == q)

/-- COLL_LANES.RESERVE as in force: 0 acts as 1 and above 32 as 32 (R592, R593). -/
def Core.collReserve (c : Core) (q : Nat) : Nat := max 1 (min 32 (sget (c.fld (Reg.collLanes q) 0 6) c.coll.lanes q))

/-- The group slots of a processor that collective work takes (R592). DESIGN CHOICE, log entry 124. -/
def Core.collSlots (c : Core) (q p : Nat) : Nat := if c.collOpen q && decide (128 - c.collReserve q ≤ p) then Config.collSlots c.free p % 257 else 0

/-- Whether a processor can take another group of a launch: a slot of its 256 that neither a group nor collective work holds, and vector registers of its 8,192 (R343, R592). -/
def Core.procFree (c : Core) (r : LaneRun) (p : Nat) : Bool :=
  let on := (c.lanes.filter (fun x => x.quarter == r.quarter)).map (fun x => (x.vregs, (x.resident.filter (fun g => g.proc == p)).length))
  decide (on.foldl (fun n v => n + v.2) 0 + c.collSlots r.quarter p < 256) && decide (on.foldl (fun n v => n + v.1 * v.2) 0 + r.vregs ≤ 8192)

/-- The listed processors, in the order dispatch tries them: ascending after the one that took the previous group (R346). -/
def LaneRun.procs (r : LaneRun) : List Nat :=
  let listed (p : Nat) : Bool := decide ((p + 128 - r.procFirst) % 128 < r.procCount)
  let start := match r.last with | some p => p + 1 | none => 0
  ((upto 128).map (fun i => (start + i) % 128)).filter listed

/-- The processor the next group of a launch goes to. -/
def Core.nextProc (c : Core) (r : LaneRun) : Option Nat := r.procs.find? (c.procFree r)

/-- Whether a launch has groups left to dispatch. -/
def LaneRun.left (r : LaneRun) : Bool := !r.saved.isEmpty || decide (r.next < r.groups)

/-- A group's registers at dispatch (R347). -/
def LaneRun.newGroup (r : LaneRun) (g proc : Nat) : LaneGroup :=
  { g := g, proc := proc,
    s := sset 0 (sset 0 (sset 0 (sset 0 [] 0 g) 1 r.groups) 2 (r.off 36)) 3 ((r.off 40 + g * r.scratch) % 2 ^ 32),
    v := (upto 32).map (fun t => (t, t)) }

/-- PRIO of a launch's strand descriptor (R68, R71). -/
def LaneRun.prio (r : LaneRun) : Nat := dfld r.desc 1 6 2

/-- Whether dispatch is open to a launch on a processor: no lane seed holds its quarter (R450), and it comes first in the order of R68 among the launches
that wait for the same processor: higher priority, then round-robin in ascending strand number (R349). -/
def Core.dispatchOpen (c : Core) (r : LaneRun) (p : Nat) : Bool :=
  let last := (sfind c.laneServed (r.quarter * 128 + p)).getD 63
  let turn (x : LaneRun) : Nat := (x.strand + 63 - last) % 64
  !c.laneSeed.any (fun h => h.1 == r.quarter) &&
  !c.lanes.any (fun x => x.quarter == r.quarter && x.left && x.strand != r.strand && c.nextProc x == some p &&
    (decide (x.prio > r.prio) || (x.prio == r.prio && decide (turn x < turn r))))

/-- Complete a launch (R350, R360). -/
def finishLaunch (x : Dx) (r : LaneRun) : Dx :=
  (x.dropMany r.drops r.dropPos).core (fun c => c.dropLaunch r.strand)

/-- After a group has left: the launch completes once every group has exited and no deferred add is left to apply. -/
def settleLaunch (x : Dx) (r : LaneRun) : Dx × Bool :=
  if r.resident.isEmpty && !r.left && r.adds.isEmpty then (finishLaunch x r, true) else (x.core (fun c => c.setLaunch r), false)

/-- A group stops (R353): the launch ends with 0x20. -/
def stopLaunch (x : Dx) (r : LaneRun) (g reason : Nat) : Dx :=
  let y := finishLaunch x r
  (y.st 0x20).core (fun c => ((c.setFld (Reg.laneFault r.quarter) 1 2 reason).setFld (Reg.laneFault r.quarter) 8 24 g).raise (qpage r.quarter 4) 0)

/-- Put a group back after its fetch step. -/
def settleGroup (l : Lx) (e : LaneEnd) : Dx × Bool :=
  match e with
  | .goes =>
    let r := { l.run with resident := l.run.resident.map (fun g => if g.g == l.g.g then l.g else g) }
    (l.x.core (fun c => c.setLaunch r), false)
  | .exits => settleLaunch l.x { l.run with resident := l.run.resident.filter (fun g => g.g != l.g.g) }
  | .stops reason => (stopLaunch l.x l.run l.g.g reason, true)

/-- Dispatch the next group of the strand's launch (R346, R347, R369). -/
def groupDispatch (x : Dx) : Dx × Bool :=
  match x.c.launch? (x.acc.strand.getD 64) with
  | none => (x, false)
  | some r =>
    match x.c.nextProc r with
    | none => (x, false)
    | some p =>
      if !r.left || !x.c.dispatchOpen r p then (x, false)
      else
        let (g, r1) := match r.saved with
          | s :: rest => ({ s with proc := p }, { r with saved := rest, last := some p })
          | [] => (r.newGroup r.next p, { r with next := r.next + 1, last := some p })
        let (g1, e) := laneFetch 130 g
        let r2 := { r1 with resident := r1.resident ++ [g1] }
        let x := x.core (fun c => { c with laneServed := sput c.laneServed (r.quarter * 128 + p) r.strand })
        settleGroup { x := x, run := r2, g := g1 } (if e = .goes ∧ g1.pc ≥ 2 ^ 22 then .stops 2 else e)

/-- Local address of an instruction of a launch (R345, R373). -/
def LaneRun.codeAt (r : LaneRun) (pc : Nat) : Nat := ergAddr r.quarter (dfld r.desc 32 0 29 / 8 * 8 + 8 * pc)

/-- The instruction a resident group issues next. DEDUCED, log entry 49. -/
def laneNext (x : Dx) (gi : Nat) : Option (LaneRun × LaneGroup × LWord) :=
  match x.c.launch? (x.acc.strand.getD 64) with
  | none => none
  | some r => match r.resident.find? (fun g => g.g == gi) with
    | none => none
    | some g => some (r, g, { w := x.at (r.codeAt g.pc) 8 })

/-- The checks of an instruction (R363): it ran `fails` times with a failed check. Answers whether the launch ends. -/
def laneChecks (x : Dx) (q fails : Nat) : Dx × Bool :=
  let n := min fails 3
  if n = 0 then (x, false)
  else
    let y := x.core (fun c => (c.inc (Reg.laneReruns q) (min n 2)).raise (qpage q 4) 1)
    let y := { y with comp := { y.comp with retries := max y.comp.retries (min n 2), status := max y.comp.status 0x10 } }
    if n = 3 then ((y.st 0x40).core (fun c => (c.setBit (Reg.laneFault q) 0 true).raise (qpage q 4) 2), true) else (y, false)

/-- Issue the next instruction of a resident group, when it is the operation named (R351, R363, R375). -/
def laneIssue (x : Dx) (grp op gi fails : Nat) : Dx × Bool :=
  match laneNext x gi with
  | none => (x, false)
  | some (r, g, w) =>
    if w.grp ≠ grp ∨ w.op ≠ op ∨ w.reserved = true then (x, false)
    else
      let y := (x.touch (r.codeAt g.pc) 8).core (fun c => c.inc64 (Reg.laneIssueLo r.quarter) 1)
      let (y, dead) := laneChecks y r.quarter fails
      if dead then (finishLaunch y r, true)
      else
        let undef := y.c.free
        let y := y.core (fun c => { c with free := c.free + 1 })
        let (l, e) := laneRunWord { x := y, run := r, g := g, undef := undef } w
        settleGroup l e

/-- A group fetches a reserved opcode and stops (R353, R375). -/
def laneReserved (x : Dx) (gi : Nat) : Dx × Bool :=
  match laneNext x gi with
  | none => (x, false)
  | some (r, g, w) => if w.reserved then (stopLaunch (x.touch (r.codeAt g.pc) 8) r g.g 3, true) else (x, false)

/-- Apply the deferred adds in ascending key (R359), and complete the launch. -/
def deferredApply (x : Dx) : Dx × Bool :=
  match x.c.launch? (x.acc.strand.getD 64) with
  | none => (x, false)
  | some r =>
    if !r.resident.isEmpty || r.left then (x, false)
    else
      let y := (sortBy (fun (a b : DefAdd) => decide (a.key ≤ b.key)) r.adds).foldl (fun (y : Dx) e =>
        let n := if e.wide then 8 else 4
        let (y1, old) := (y.core (fun c => c.settleWord e.addr)).num e.addr n
        y1.write e.addr (leBytes n (if e.wide then fp64Add old e.val else fp32Add old e.val))) x
      (finishLaunch y { r with adds := [] }, true)

/-! ### Context images (R364 to R370) -/

/-- Bytes of a saved group's record (R367). A count past the 24 bits that a record keeps is saved as the largest (R361). DESIGN CHOICE, log entry 107. -/
def recordBytes (r : LaneRun) (undef : Nat) (g : LaneGroup) : List Byte :=
  let stack := (g.stack.reverse.map (fun e => leBytes 4 e.2.1 ++ leBytes 4 (e.2.2 % 2 ^ 22 + e.1 * 2 ^ 31))).flatten
  leBytes 4 g.g ++ leBytes 4 (g.pc % 2 ^ 22) ++ leBytes 1 g.stack.length ++ leBytes 3 0 ++ leBytes 4 g.active ++ leBytes 4 g.flags
    ++ leBytes 4 g.exited ++ leBytes 8 0 ++ ((upto 32).map (fun i => leBytes 4 (sget 0 g.s i))).flatten
    ++ ((upto 8).map (fun i => leBytes 4 (nth 0 g.p i))).flatten ++ stack ++ leBytes (512 - stack.length) 0
    ++ ((upto 32).map (fun t => leBytes 4 (min (sget 0 g.adds t) (2 ^ 24 - 1)))).flatten ++ leBytes 192 0
    ++ ((upto r.vregs).map (fun v => ((upto 32).map (fun t =>
        leBytes 4 ((sfind g.v (v * 32 + t)).getD (Config.unwrittenReg (undef + g.g) v t % 2 ^ 32)))).flatten)).flatten

/-- Bytes of an image header (R366). -/
def imageHeader (run : Option LaneRun) (records : Nat) : List Byte :=
  match run with
  | none => leBytes 4 0x4C435458 ++ leBytes 1 1 ++ leBytes 1 32 ++ leBytes 18 0 ++ leBytes 8 (2 ^ 64 - 1) ++ leBytes 224 0
  | some r =>
    leBytes 4 0x4C435458 ++ leBytes 1 1 ++ leBytes 1 32 ++ leBytes 1 1 ++ leBytes 1 0 ++ leBytes 4 r.next ++ leBytes 4 records
      ++ leBytes 4 r.adds.length ++ leBytes 4 r.drops ++ leBytes 8 r.dropPos ++ leBytes 32 0 ++ leBytes 64 r.desc.toNat ++ leBytes 128 0

/-- LANE_SAVE (R364, R365): the image. Answers the strand whose launch it ends, if one runs. DEDUCED, log entry 50. -/
def laneSave (x : Dx) : Dx × Option Nat :=
  let base := x.erg (x.f 40 0 31 / 128 * 128)
  match x.c.launch? (x.f 24 0 6) with
  | none => (x.write base (imageHeader none 0), none)
  | some r =>
    let gs := sortBy (fun (a b : LaneGroup) => decide (a.g ≤ b.g)) (r.resident ++ r.saved)
    let undef := x.c.free
    let x := x.core (fun c => { c with free := c.free + r.groups + 1 })
    let size := 1024 + 128 * r.vregs
    let y := x.write base (imageHeader (some r) gs.length)
    let y := (gs.mapIdx (fun i g => (i, g))).foldl (fun (y : Dx) p => y.write (base + 256 + p.1 * size) (recordBytes r undef p.2)) y
    (y, some r.strand)

/-- A group read back from its record (R367, R400), the oldest stack entry first in the record. -/
def recordGroup (x : Dx) (a vregs : Nat) : LaneGroup :=
  let depth := min 64 (x.at (a + 8) 1)
  let ent (i : Nat) : Nat × Nat × Nat :=
    let w := x.at (a + 192 + 8 * i) 8
    (field w 63 1, field w 0 32, field w 32 22)
  { g := x.at a 4 % 2 ^ 24, pc := x.at (a + 4) 4 % 2 ^ 22, active := x.at (a + 12) 4, flags := x.at (a + 16) 4 % 32, exited := x.at (a + 20) 4,
    s := (upto 32).foldl (fun m i => sset 0 m i (x.at (a + 32 + 4 * i) 4)) [],
    p := (upto 8).map (fun i => x.at (a + 160 + 4 * i) 4),
    stack := ((upto depth).map ent).reverse,
    adds := (upto 32).foldl (fun m t => sset 0 m t (x.at (a + 704 + 4 * t) 4 % 2 ^ 24)) [],
    v := ((upto vregs).map (fun v => (upto 32).map (fun t => (v * 32 + t, x.at (a + 1024 + 128 * v + 4 * t) 4)))).flatten }

/-- Why a LANE_RESTORE is refused (R370). DESIGN CHOICE, log entry 46. -/
def restoreRefused (x : Dx) (base : Nat) (d : BitVec 512) : Bool :=
  let top := x.c.top x.acc.q
  let cap := dfld d 60 0 24
  let scratch := dfld d 28 0 24 * (128 * ceilDiv (dfld d 44 0 32) 128)
  x.at base 4 != 0x4C435458 || x.at (base + 4) 1 != 1 || x.at (base + 6) 1 != 1
    || decide ((dfld d 27 0 4 + 1) * 8 > 128)
    || decide (dfld d 32 0 29 ≥ top) || decide (dfld d 36 0 29 ≥ top)
    || decide (dfld d 40 0 29 + scratch > top) || decide (dfld d 56 0 29 + 16 * cap > top)

/-- LANE_RESTORE (R368 to R370, R446). The deferred adds are those whose entries stand at ATOM_BASE. DESIGN CHOICE, log entries 46, 107. -/
def laneRestore (x : Dx) : Dx × Bool :=
  let q := x.acc.q
  if x.c.lanesFaulty q then (x.st 0x40, true)
  else
    let base := x.erg (x.f 40 0 31 / 128 * 128)
    let x := x.touch base 256
    let d := BitVec.ofNat 512 (x.at (base + 64) 64)
    if restoreRefused x base d then (x.st 0x60, true)
    else
      let vregs := (dfld d 27 0 4 + 1) * 8
      let n := x.at (base + 12) 4
      let size := 1024 + 128 * vregs
      let x := x.touch (base + 256) (n * size)
      let gs := (upto n).map (fun i => recordGroup x (base + 256 + i * size) vregs)
      let used := x.at (base + 16) 4
      let log := ergAddr q (dfld d 56 0 29 / 16 * 16)
      let x := x.touch log (16 * used)
      let adds := (upto used).map (fun i => x.c.readEntry (x.at (log + 16 * i) 16) i)
      let r : LaneRun := { strand := x.acc.strand.getD 0, quarter := q, desc := d, procFirst := x.f 25 0 7, procCount := procCount x.desc,
                           saved := sortBy (fun (a b : LaneGroup) => decide (a.g ≤ b.g)) gs, next := x.at (base + 8) 4,
                           adds := sortBy (fun (a b : DefAdd) => decide (a.key ≤ b.key)) adds,
                           drops := x.at (base + 20) 4, dropPos := x.at (base + 24) 8 }
      let lf := r.procs.foldl (fun m p => (upto 32).foldl (fun m l =>
        let k := laneKey q p l
        setLane m k (kd r.key 0xFFFA (2 ^ 40 + k) % 2 ^ 32)) m) x.lfsr
      settleLaunch { x with c := { x.c with lanes := x.c.lanes ++ [r] }, lfsr := lf } r

end Sys2Proof.Machine
end

