-- ==== Sys2Proof/Machine/MemMaint.lean ====
section
/-!
DEFINITION. What the memory system does of itself: layout and interleave changes (R455 to R462), LAST drops (R468), retraining (R477 to R482),
the traffic generator (R483), correction writes (R492, R493), leaks (R495), merge windows (R501), scrubbing (R504 to R507), and row
repair (R508 to R514).
-/
namespace Sys2Proof.Machine
open Sys2Proof

/-! ### Layout and interleave (R455 to R462) -/

/-- The layout a quarter's registers ask for (R455, R457). -/
def Core.wantedLayout (c : Core) (q : Nat) : Layout :=
  let stage := min 64 (c.fld Reg.cpTxnStage 0 7)
  let coal := max 1 (min 64 (c.fld (Reg.embCoal q) 0 7))
  let asked := max 16 (c.fld (Reg.ergCache q) 0 9 / 16 * 16)
  let room := 510 - stage - coal - 16
  { stage := stage, coal := coal, cache := if asked ≤ room then asked else max 16 (room / 16 * 16) }

/-- Merge entries perform their read-modify-writes (R502). DEDUCED, log entry 53. -/
def Core.settleMerges (c : Core) (p : Merge → Bool) : Core := (c.merge.filter p).foldl Core.closeMerge c

/-- Write back and invalidate lines. -/
def Core.flushLines (c : Core) (p : Line → Bool) : Core :=
  (c.lines.filter p).foldl Core.evict c

/-- Bytes of a range read zero and hold no error and no poison. -/
def Core.zeroRange (c : Core) (a n : Nat) : Core :=
  { c with mem := sclear c.mem a n, dram := sclear c.dram a n, errs := sclear c.errs (a / 8) (n / 8),
           poison := c.poison.filter (fun b => decide (b < a / 64) || decide ((a + n) / 64 ≤ b)),
           dramPoison := c.dramPoison.filter (fun b => decide (b < a / 64) || decide ((a + n) / 64 ≤ b)) }

/-- A quarter's layout takes effect (R456). Bytes above the lower of the two tops are cleared, so that bytes added later read zero. -/
def Core.applyLayout (c : Core) (q : Nat) : Core :=
  let c1 := (c.settleMerges (fun _ => true)).flushLines (fun l => l.quarter == q)
  let old := c1.top q
  let c2 := { c1 with layouts := setNth c1.layouts q (c1.wantedLayout q), layoutDue := c1.layoutDue.filter (· != q) }
  let lo := min old (c2.top q)
  (c2.zeroRange (ergAddr q lo) (0x1FE00000 - lo)).raise (qpage q 5) 2

/-- LAYOUT_CHANGE: every waiting layout takes effect. `running` tells whether a strand runs. -/
def layoutChange (c : Core) (running : Bool) : Core := if running then c else c.layoutDue.foldl Core.applyLayout c

/-- The interleave modes MEM_ILV asks for (R461). -/
def Core.wantedIlv (c : Core) : BitVec 96 :=
  BitVec.ofNat 96 (c.reg (Reg.memIlv0 0) + c.reg (Reg.memIlv1 0) * 2 ^ 32 + c.reg (Reg.memIlv2 0) * 2 ^ 64)

/-- INTERLEAVE_CHANGE of group `k` (R462). DEDUCED, log entry 54. -/
def interleaveChange (c : Core) (k : Nat) (running : Bool) : Core :=
  if running || decide (96 ≤ k) || c.wantedIlv.getLsbD k == c.ilv.getLsbD k then c
  else
    let inGroup (a : Nat) : Bool := a / 2 ^ 32 == k
    let c1 := (c.settleMerges (fun _ => true)).flushLines (fun l => inGroup (l.tag * 128))
    let c2 := c1.zeroRange (k * 2 ^ 32) (2 ^ 32)
    { c2 with ilv := c2.ilv ^^^ BitVec.ofNat 96 (2 ^ k), ilvFill := insN c2.ilvFill k,
              corrections := c2.corrections.filter (fun w => !inGroup (w * 8)) }

/-- INTERLEAVE_FILL_END of group `k` (R462). -/
def interleaveFillEnd (c : Core) (k : Nat) : Core := { c with ilvFill := delN c.ilvFill k }

/-- MEM_ILV_STATE.BUSY (R486). -/
def Core.ilvBusy (c : Core) : Bool := c.wantedIlv != c.ilv || !c.ilvFill.isEmpty

/-- LAST_DROP of the line that holds an address (R468): its count is zero and no reader still runs. -/
def lastDrop (c : Core) (a : Nat) : Core :=
  match c.line? a with
  | none => c
  | some l =>
    if l.hint = 3#2 ∧ l.uses = 0 ∧ l.users = [] then ((c.revert l).dropLine l.tag).inc (Reg.ergLastDrop l.quarter) 1 else c

/-- A strand's descriptor has completed: it no longer holds a line it read (R468), and what it found uncorrectable counts as poisoned (R496). -/
def Core.releaseUses (c : Core) (strand : Nat) : Core :=
  { c with lines := c.lines.map (fun l => if l.users.contains strand then { l with users := l.users.filter (· != strand) } else l),
           ownUe := c.ownUe.filter (fun x => x.1 != strand) }

/-! ### Retraining (R477 to R482) -/

/-- Key of a register of a device channel. -/
def chKey (chan : Nat) (r : Nat → Nat) : Nat := bankKey (chan % 64) (r (chan / 64))

/-- STATE of a channel: 0 UNTRAINED, 1 TRAINING, 2 READY, 3 QUIESCED, 4 FAILED. -/
def Core.chState (c : Core) (chan : Nat) : Nat := c.fld (chKey chan Reg.memChState) 0 3

/-- Set STATE of a channel. -/
def Core.setChState (c : Core) (chan v : Nat) : Core := c.setFld (chKey chan Reg.memChState) 0 3 v

/-- A channel enters FAILED (R482, R487): its dirty lines are poisoned, both blocks of each. -/
def Core.failChannel (c : Core) (chan : Nat) : Core :=
  let c1 := (c.setChState chan 4).raise (qpage (chan / 64) 6) 3
  let hit := c1.lines.filter (fun l => (dramChan c1.ilv (l.tag * 128)).1 == chan)
  { c1 with poison := (hit.filter (fun l => l.dirty != 0)).foldl (fun p l => insN (insN p (l.tag * 2)) (l.tag * 2 + 1)) c1.poison }

/-- Assign spare lanes to failing lanes (R478, R480). Answers whether a lane is left without one. A spare switched in during operation raises
SPARE_USED (R487). -/
def Core.useSpares (c : Core) (chan : Nat) (lanes : List Nat) (running : Bool) : Core × Bool :=
  let k := chKey chan Reg.memChState
  lanes.foldl (fun (p : Core × Bool) l =>
    let n := p.1.fld k 3 2
    if n ≥ 2 then (p.1, true)
    else
      let d := (p.1.setFld k 3 2 (n + 1)).setFld k (8 + 8 * n) 7 l
      (if running then d.raise (qpage (chan / 64) 6) 2 else d, p.2)) (c, false)

/-- Whether the MC may schedule full retrains of a quarter's channels: HOLD is clear and the first 60 s are over (R39, R481). DEDUCED, log entry 55. -/
def Core.mayRetrain (c : Core) (chan : Nat) : Bool :=
  c.fld (chKey chan (fun q => Reg.memHrt q)) 31 1 == 0 && decide (60 * 10 ^ 9 ≤ c.up)

/-- PERIOD_MS of a channel's hidden retrain in ns; 0 acts as 50 (R486). -/
def Core.hrtPeriod (c : Core) (chan : Nat) : Nat :=
  let p := c.fld (chKey chan Reg.memHrt) 0 16
  (if p = 0 then 50 else p) * 10 ^ 6

/-- HIDDEN_RETRAIN of a channel (R479, R481, R482): it measures an eye margin and finds failing lanes. -/
def hiddenRetrain (c : Core) (chan margin : Nat) (lanes : List Nat) : Core :=
  if 256 ≤ chan ∨ c.chState chan ≠ 2 ∨ c.up < sget 0 c.hrtLast chan + c.hrtPeriod chan then c
  else
    let k := chKey chan Reg.memChState
    let c1 := { c with hrtLast := sset 0 c.hrtLast chan c.up }
    let c2 := (c1.incFld (chKey chan Reg.memChRetrains) 0 16 1).setFld k 24 8 margin
    if lanes.length + c2.fld k 3 2 > 2 then c2.failChannel chan
    else if !lanes.isEmpty then (if 60 * 10 ^ 9 ≤ c2.up then c2.schedRetrain chan else c2)
    else if margin < c2.fld (chKey chan Reg.memHrt) 16 8 ∧ c2.mayRetrain chan then c2.schedRetrain chan else c2

/-- The full retrains that start at a step boundary (R481): at most one per stack at a time. DEDUCED, log entry 55. -/
def Core.startRetrains (c : Core) : Core :=
  let asked := (upto 256).filter (fun ch => c.fld (chKey ch Reg.memRetrainReq) 0 1 == 1 && c.mayRetrain ch)
  (c.retrainDue ++ asked).foldl (fun d ch =>
    if d.chState ch ≠ 2 ∨ (upto 32).any (fun i => d.chState (ch / 32 * 32 + i) == 3) then d
    else
      let e := (d.setChState ch 3).setBit (chKey ch Reg.memRetrainReq) 0 false
      { e with retrainDue := e.retrainDue.filter (· != ch) }) c

/-- FULL_RETRAIN_END of a channel (R480, R482, R487). -/
def fullRetrainEnd (c : Core) (chan margin : Nat) (lanes : List Nat) : Core :=
  if 256 ≤ chan ∨ c.chState chan ≠ 3 then c
  else
    let c1 := ((c.incFld (chKey chan Reg.memChRetrains) 16 16 1).setFld (chKey chan Reg.memChState) 24 8 margin).raise (qpage (chan / 64) 6) 4
    let r := c1.useSpares chan lanes true
    if r.2 then r.1.failChannel chan else r.1.setChState chan 2

/-- MEM_RETRAIN_REQ.REQ of a quarter's selected channel (R481). -/
def retrainReq (c : Core) (q : Nat) : Core := c.setBit (bankKey (c.fld (Reg.memChSel q) 0 6) (Reg.memRetrainReq q)) 0 true

/-! ### Traffic generator (R483) -/

/-- Start a channel's generator with the settings of a quarter's selected channel. -/
def Core.tgStart (c : Core) (chan sel : Nat) : Core :=
  if c.chState chan ≠ 2 ∧ c.chState chan ≠ 3 then c
  else
    let ctl := c.reg (chKey sel Reg.memTgCtrl)
    let fr := c.reg (chKey sel Reg.memTgFrames)
    let first := min 383 (field fr 0 9)
    let last := if field fr 16 9 < first ∨ field fr 16 9 > 383 then first else field fr 16 9
    let r : TgRun := { chan := chan, mode := if field ctl 3 2 = 3 then 0 else field ctl 3 2, pattern := if field ctl 5 2 = 3 then 0 else field ctl 5 2,
                       loops := field ctl 16 16, seed := max 1 (c.fld (chKey sel Reg.memTgSeed) 0 31), first := first, last := last }
    let k := chKey chan Reg.memTgStatus
    { (c.setFld k 0 1 1).setFld k 16 16 0 with tg := c.tg.filter (fun t => t.chan != chan) ++ [r] }

/-- The device channel that a quarter's MEM_CH_SEL names. -/
def Core.selChan (c : Core) (q : Nat) : Nat := q * 64 + c.fld (Reg.memChSel q) 0 6

/-- START of a quarter's selected channel. -/
def tgStart (c : Core) (q : Nat) : Core := c.tgStart (c.selChan q) (c.selChan q)

/-- ALL: every generator of a quarter. -/
def tgAll (c : Core) (q : Nat) : Core := (upto 64).foldl (fun d i => d.tgStart (q * 64 + i) (c.selChan q)) c

/-- STOP of a quarter's selected channel. -/
def tgStop (c : Core) (q : Nat) : Core :=
  { c with tg := c.tg.map (fun t => if t.chan == c.selChan q then { t with stop := true } else t) }

/-- Words of a run's frames. -/
def TgRun.words (r : TgRun) : Nat := (r.last - r.first + 1) * 2 ^ 19

/-- The 80 bits of a run's beat `i`: PRBS31 from SEED, a one that walks across the 80 lanes, or the word's own channel offset with its check bits. DESIGN
CHOICE, log entry 56. -/
def TgRun.beat (r : TgRun) (i : Nat) : Nat :=
  if r.pattern = 0 then Config.prbsBeat r.seed i % 2 ^ 80
  else if r.pattern = 1 then 2 ^ (i % 80)
  else encodeWord (r.first * 2 ^ 22 + 8 * i) 0

/-- The local address of a run's word `i`. -/
def Core.tgAddr (c : Core) (r : TgRun) (i : Nat) : Nat := dramAddr c.ilv r.chan (r.first * 2 ^ 22 + 8 * i)

/-- The first `n` words of a run's frames hold its pattern; the channel has accepted a write to their bursts (R492). -/
def tgPattern (c : Core) (r : TgRun) (n : Nat) : Core :=
  (upto n).foldl (fun (d : Core) i =>
    let a := d.tgAddr r i
    let b := r.beat i
    let bs := leBytes 8 (b % 2 ^ 64)
    let held := d.sectorValid a
    { d with dram := putBytes d.dram a bs, mem := if held then d.mem else putBytes d.mem a bs,
             errs := sset (0 : BitVec 80) d.errs (a / 8) (BitVec.ofNat 80 (b ^^^ encodeWord b 0)),
             corrections := d.corrections.filter (fun w => w / 8 != a / 64),
             dramPoison := delN d.dramPoison (a / 64), poison := if held then d.poison else delN d.poison (a / 64) }) c

/-- The lanes on which the cells of a run's word `i` differ from its beat: a bit on the lane of its position, or on the spare that replaces the lane (R478). -/
def Core.tgDiff (c : Core) (r : TgRun) (i : Nat) : Nat :=
  let a := c.tgAddr r i
  let cell := encodeWord (ofLE (getBytes c.dram a 8)) (b2n (c.dramPoison.contains (a / 64))) ^^^ (sget (0 : BitVec 80) c.errs (a / 8)).toNat
  let x := cell ^^^ r.beat i
  let k := chKey r.chan Reg.memChState
  (upto 2).foldl (fun x s =>
    let l := c.fld k (8 + 8 * s) 7
    if s < c.fld k 3 2 ∧ x.testBit l = true then x - 2 ^ l + 2 ^ (80 + s) else x) x

/-- How far a stopped run came: whole passes, words of the last one, and words read in all. Where STOP cuts it is not stated: a mode 0 run may have been writing. DESIGN
CHOICE, log entry 56. -/
def Core.tgCut (c : Core) (r : TgRun) : Nat × Nat × Nat :=
  let passes := if r.loops = 0 then Config.freeValue (c.free + 1) else Config.freeValue (c.free + 1) % r.loops
  let n := Config.freeValue c.free % (r.words + 1)
  let last := if r.mode = 2 then n else Config.freeValue (c.free + 2) % (n + 1)
  (passes, n, r.words * passes + last)

/-- TG_DONE (R483, R487), which waits for the copy of a row of its frames (R509): a run that writes leaves its pattern, and one that reads compares every word of its frames; a stopped run has covered a part of them
that is not stated. `errors` words more, the first of them at channel offset / 8 `first`, mismatch on `lanes` without a cause in the cells. DESIGN CHOICE, log
entry 56. -/
def tgDone (c : Core) (chan errors first lanes : Nat) : Core :=
  match c.tg.find? (fun t => t.chan == chan) with
  | none => c
  | some r =>
    if r.loops = 0 ∧ !r.stop ∨ c.remapBusy.any (fun m => m.chan == chan && decide (r.first ≤ m.row / 128) && decide (m.row / 128 ≤ r.last)) then c
    else
      let q := chan / 64
      let c0 : Core := { c with tg := c.tg.filter (fun t => t.chan != chan), free := c.free + 3 * b2n r.stop }
      let (passes, n, reads) := if r.stop then c.tgCut r else (r.loops, r.words, r.words * r.loops)
      let n := if passes = 0 then n else r.words
      let c1 := if r.mode = 2 then c0 else tgPattern c0 r n
      let bad := if r.mode = 2 then (upto n).filter (fun i => c1.tgDiff r i != 0) else []
      let c1 := if r.mode = 1 then c1 else c1.inc64 (Reg.memRdLo q) (8 * reads)
      let k := chKey chan Reg.memTgStatus
      let total := errors + bad.length
      let c2 := ((c1.setFld k 0 1 0).setFld k 1 1 1).setFld k 16 16 (min total 65535)
      let at_ := (bad.map (fun i => r.first * 2 ^ 19 + i)).foldl min (if errors = 0 then 2 ^ 28 - 1 else first % 2 ^ 28)
      let mask := bad.foldl (fun m i => m ||| c1.tgDiff r i) (if errors = 0 then 0 else lanes)
      let c3 := ((c2.setReg (chKey chan Reg.memTgLane0) (field mask 0 32)).setReg (chKey chan Reg.memTgLane1) (field mask 32 32)).setReg
        (chKey chan Reg.memTgLane2) (field mask 64 18)
      let c4 := (if total = 0 then c3 else c3.setReg (chKey chan Reg.memTgFirst) at_).raise (qpage q 6) 0
      if total = 0 then c4 else c4.raise (qpage q 6) 1

/-! ### Corrections, leaks, merge windows -/

/-- CORRECTION_WRITE (R492): the corrected burst that holds a word is written to DRAM. DEDUCED, log entry 57. -/
def correctionWrite (c : Core) (a : Nat) : Core :=
  match place a with
  | .dram =>
    if c.held a || !c.corrections.any (fun w => w / 8 == a / 64) then c
    else
      { c with errs := (c.corrections.filter (fun w => w / 8 == a / 64)).foldl sdel c.errs,
               corrections := c.corrections.filter (fun w => w / 8 != a / 64) }
  | _ => c

/-- ERG_CORRECTION_REWRITE (R493): the corrected word is rewritten in place. DEDUCED, log entry 57. -/
def ergRewrite (c : Core) (a : Nat) : Core :=
  match place a with
  | .erg _ _ =>
    if !c.corrections.contains (a / 8) then c
    else { c with errs := sdel c.errs (a / 8), corrections := c.corrections.filter (· != a / 8) }
  | _ => c

/-- LEAK_S of a quarter in ns; 0 acts as 1 (R517). -/
def Core.leakNs (c : Core) (q : Nat) : Nat := max 1 (c.fld (Reg.eccBucket q) 16 16) * 10 ^ 9

/-- BUCKET_LEAK of a quarter (R495): every unit's level loses 1 at a leak instant. -/
def bucketLeak (c : Core) (q : Nat) : Core :=
  let (base, n) := nth (0, 0) c.leakBase q
  if c.up < base + (n + 1) * c.leakNs q then c
  else
    let c1 := { c with leakBase := setNth c.leakBase q (base, n + 1) }
    (upto 65).foldl (fun d u => let k := bankKey u (Reg.eccLevel q); d.setFld k 0 16 (d.fld k 0 16 - 1)) c1

/-- A write of ECC_BUCKET that changes LEAK_S counts leak instants afresh (R495). -/
def Core.restartLeak (c : Core) (q : Nat) : Core := { c with leakBase := setNth c.leakBase q (c.up, 0) }

/-- MERGE_WINDOW_EXPIRE of the entry that holds a word (R501). -/
def mergeExpire (c : Core) (a : Nat) : Core :=
  match c.merge.find? (fun e => e.word == a / 8) with
  | some e => c.closeMerge e
  | none => c

/-! ### Scrubbing (R504 to R507) -/

/-- Words of a unit: a channel's 1,536 MiB, a quarter's 512 MiB of Erg store (R504). -/
def unitWords (u : Nat) : Nat := if u < 64 then 1536 * 2 ^ 17 else 512 * 2 ^ 17

/-- The local address of a unit's word. -/
def Core.unitAddr (c : Core) (q u w : Nat) : Nat := if u < 64 then dramAddr c.ilv (q * 64 + u) (8 * w) else ergAddr q (8 * w)

/-- SCRUB_READ of a unit (R504 to R506, R509): its next word is read, unless its channel or row waits. `upset` is what has flipped in that word's cell. -/
def scrubRead (c : Core) (q u : Nat) (upset : BitVec 80) : Core :=
  let x := c.unit q u
  let rate := if u < 64 then c.fld (Reg.eccScrub q) 0 16 else c.fld (Reg.eccScrub q) 16 16
  if 4 ≤ q ∨ 64 < u ∨ rate = 0 ∨ unitWords u ≤ x.scrubAt then c
  else if u < 64 ∧ (c.chState (q * 64 + u) = 3 ∨ c.chState (q * 64 + u) = 4 ∨ c.rowBusy (c.unitAddr q u x.scrubAt)) then c
  else
    let a := c.unitAddr q u x.scrubAt
    let c1 := c.setUnit q u { x with scrubAt := x.scrubAt + 1 }
    let c2 := { c1 with errs := sset (0 : BitVec 80) c1.errs (a / 8) (sget (0 : BitVec 80) c1.errs (a / 8) ^^^ upset) }
    let c3 := if u < 64 then c2.inc64 (Reg.memRdLo q) 8 else c2
    (c3.checkCells { q := q, src := 1 } a 1).1

/-- TARGET_S in ms; 0 acts as 30 (R517). -/
def Core.lapTarget (c : Core) (q : Nat) : Nat :=
  let t := c.fld (Reg.eccScrubTarget q) 0 16
  (if t = 0 then 30 else t) * 1000

/-- The MC adapts a scrub rate to a lap time (R507). -/
def adaptRate (rate lap target : Nat) : Nat :=
  if 2 * lap < target then (if rate > 16 then max 16 (rate / 2) else rate) else if lap > target then min 65535 (rate * 2) else rate

/-- SCRUB_LAP_END of a unit (R506, R507). DEDUCED, log entry 108. -/
def scrubLapEnd (c : Core) (q u : Nat) : Core :=
  let x := c.unit q u
  if 4 ≤ q ∨ 64 < u ∨ x.scrubAt < unitWords u then c
  else
    let ms := (c.up - x.lapStart) / 10 ^ 6
    let k (r : Nat → Nat) : Nat := bankKey u (r q)
    let c1 := c.setUnit q u { x with scrubAt := 0, lapStart := c.up, slow := false }
    let mx := c1.reg (k Reg.eccLapMax)
    let c2 := ((c1.setReg (k Reg.eccLapLast) ms).setReg (k Reg.eccLapMin) (min ms (c1.reg (k Reg.eccLapMin)))).setReg (k Reg.eccLapMax)
      (if mx = 2 ^ 32 - 1 then ms else max ms mx)
    let c3 := c2.inc (k Reg.eccLapCount) 1
    -- a lap that began before the last change of the rate says nothing of the rate in force
    if c3.fld (Reg.eccScrubTarget q) 31 1 = 1 ∨ x.lapStart < (c3.unit q (u / 64 * 64)).rateAt then c3
    else
      let lo := u / 64 * 16
      let rate := c3.fld (Reg.eccScrub q) lo 16
      let laps := if u < 64 then ((upto 64).map (fun i => c3.reg (bankKey i (Reg.eccLapLast q)))).filter (· != 2 ^ 32 - 1) else [ms]
      let new := adaptRate rate (laps.foldl max 0) (c3.lapTarget q)
      if new = rate then c3 else (c3.setUnit q (u / 64 * 64) { c3.unit q (u / 64 * 64) with rateAt := c3.up }).setFld (Reg.eccScrub q) lo 16 new

/-- LAP_SLOW of a unit (R507): once for a lap that passes 4 × TARGET_S. -/
def lapSlow (c : Core) (q u : Nat) : Core :=
  let x := c.unit q u
  if 4 ≤ q ∨ 64 < u ∨ x.slow ∨ c.up ≤ x.lapStart + 4 * c.lapTarget q * 10 ^ 6 then c
  else (c.setUnit q u { x with slow := true }).raise (qpage q 7) 5

/-- HISTORY_EXPIRE of a channel's entries 600 s after their last correction (R508). -/
def historyExpire (c : Core) (q u : Nat) : Core :=
  let x := c.unit q u
  c.setUnit q u { x with history := x.history.filter (fun h => decide (c.up < h.2.2 + 600 * 10 ^ 9)) }

/-! ### Row repair (R508 to R514) -/

/-- What a change of the remap table or retirement list starts (R514). -/
def Core.repairChanged (c : Core) : Core := { c.setBit (Reg.eccRepair 0) 0 true with repairDue := true }

/-- Channel offset of a row's first byte (R460). -/
def rowOffset (bank row : Nat) : Nat := row * 2 ^ 15 + bank * 2 ^ 10

/-- The 64 KiB pages that hold a byte of a row (R511). -/
def Core.rowPages (c : Core) (chan bank row : Nat) : List Nat :=
  ((upto 4).map (fun i => dramAddr c.ilv chan (rowOffset bank row + 256 * i) / 65536)).foldl insN []

/-- The retirement list in Q0's error log region (R515). -/
def Core.writeRetireList (c : Core) : Core :=
  let bs := ((upto 4096).map (fun i => match c.retired[i]? with | some p => leBytes 8 (p + 2 ^ 63) | none => leBytes 8 0)).flatten
  c.putErg (ergAddr 0 0x1FF00000) bs

/-- Retire a page of a failing row (R511, R516, R518). -/
def Core.retirePage (c : Core) (chan bank row page : Nat) : Core :=
  let ls := c.lines.filter (fun l => l.tag / 512 == page)
  let c1 := ls.foldl (fun d l => (d.revert l).dropLine l.tag) c
  let c2 := { c1 with retired := insN c1.retired page, merge := c1.merge.filter (fun e => e.word / 8192 != page) }
  let c3 := c2.setReg (Reg.eccRetired 0) c2.retired.length
  ((c3.log (chan / 64) { kind := 0x07, unit := chan % 64, row := row + bank * 2 ^ 16, addr := page * 65536, count := c3.retired.length }).raise (qpage 0 7) 3).writeRetireList.repairChanged

/-- Retire the pages of a row without a spare, or leave it in service when the list is full (R511, R512). -/
def Core.retireRow (c : Core) (chan bank row : Nat) : Core :=
  let q := chan / 64
  let ps := (c.rowPages chan bank row).filter (fun p => !c.retired.contains p)
  if c.retired.length + ps.length > 4096 then
    (c.log q { kind := 0x08, unit := chan % 64, row := row + bank * 2 ^ 16 }).raise (qpage q 7) 4
  else ps.foldl (fun d p => d.retirePage chan bank row p) c

/-- ROW_REMAP of a failing row (R509 to R512): at once when no strand runs, else after a step boundary has released it; no command reaches a quiesced channel
(R480). -/
def rowRemap (c : Core) (chan bank row : Nat) (running : Bool) : Core :=
  let q := chan / 64
  if !c.failing.contains (chan, bank, row) || c.fld (Reg.eccCfg q) 8 1 == 1 || c.chState chan == 3 || (running && !c.failDue.contains (chan, bank, row)) then c
  else
    let c1 := { c with failing := c.failing.filter (· != (chan, bank, row)), failDue := c.failDue.filter (· != (chan, bank, row)) }
    let old := c1.remaps.find? (fun m => m.chan == chan && m.bank == bank && m.row == row)
    let bank' := (c1.remaps ++ c1.remapBusy).filter (fun m => m.chan == chan && m.bank == bank)
    let bad := bank'.foldl (fun b m => b ||| m.bad) 0
    let bad := match old with | some m => bad ||| 2 ^ m.spare | none => bad
    let used (s : Nat) : Bool := bank'.any (fun m => m.spare == s && m.row != row)
    -- the old spare is marked bad whether or not another is free
    let mark := match old with | some m => m.bad ||| 2 ^ m.spare | none => 0
    match firstN 8 (fun s => !bad.testBit s && !used s) with
    | none =>
      let c2 : Core := { c1 with remaps := c1.remaps.map (fun (m : Remap) => if m.chan = chan ∧ m.bank = bank ∧ m.row = row then { m with bad := mark } else m) }
      c2.retireRow chan bank row
    | some s =>
      let c2 := (upto 4).foldl (fun (d : Core) i =>
        let a := dramAddr d.ilv chan (rowOffset bank row + 256 * i)
        (upto 8).foldl (fun (d : Core) j => (d.checkCells { q := q, src := 5 } (a + 32 * j) 4).1) d) (c1.inc64 (Reg.memRdLo q) 1024)
      let c3 := (upto 4).foldl (fun (d : Core) i => { d with errs := sclear d.errs (dramAddr d.ilv chan (rowOffset bank row + 256 * i) / 8) 32 }) c2
      { c3 with remapBusy := c3.remapBusy ++ [{ chan := chan, bank := bank, row := row, spare := s, bad := mark }],
                failing := c3.failing.filter (· != (chan, bank, row)) }

/-- REMAP_COPY_END (R509, R516, R518): the entry is written in the row remap table. The history of the row's words ends with the cells it was about (R508). DEDUCED,
log entry 108. -/
def remapCopyEnd (c : Core) (chan bank row : Nat) : Core :=
  match c.remapBusy.find? (fun m => m.chan == chan && m.bank == bank && m.row == row) with
  | none => c
  | some m =>
    let same (x : Remap) : Bool := x.chan == chan && x.bank == bank && x.row == row
    let c1 := { c with remapBusy := c.remapBusy.filter (fun x => !same x), remaps := c.remaps.filter (fun x => !same x) ++ [m] }
    let q := chan / 64
    let x := c1.unit q (chan % 64)
    let inRow (w : Nat) : Bool := field (8 * w) 10 5 == bank && field (8 * w) 15 16 == row
    let c1 := c1.setUnit q (chan % 64) { x with history := x.history.filter (fun h => !inRow h.1) }
    ((c1.log q { kind := 0x06, unit := chan % 64, row := row + bank * 2 ^ 16 + m.spare * 2 ^ 21 }).raise (qpage q 7) 2).repairChanged

/-- ECC_SPARES of a channel (R517): spares in use, marked bad, and banks with no free spare. -/
def Core.spares (c : Core) (chan : Nat) : Nat :=
  let ms := c.remaps.filter (fun m => m.chan == chan)
  let badOf (b : Nat) : Nat := (ms.filter (fun m => m.bank == b)).foldl (fun x m => x ||| m.bad) 0
  let cnt (x : Nat) : Nat := ((upto 8).filter (fun i => x.testBit i)).length
  let usedOf (b : Nat) : Nat := (ms.filter (fun m => m.bank == b)).foldl (fun x m => x ||| 2 ^ m.spare) 0
  let inUse : Nat := sumN 32 (fun b => cnt (usedOf b))
  let bad : Nat := sumN 32 (fun b => cnt (badOf b))
  let full : Nat := ((upto 32).filter (fun b => (usedOf b ||| badOf b) == 255)).length
  min 255 inUse + min 255 bad * 2 ^ 8 + full * 2 ^ 16

/-- A remap entry of the repair record (R513). -/
def Remap.entry (m : Remap) : Nat := m.chan + m.bank * 2 ^ 8 + m.row * 2 ^ 13 + m.spare * 2 ^ 29 + m.bad * 2 ^ 32 + 2 ^ 63

/-- The bytes of a repair record (R513). -/
def repairBytes (r : RepairCopy) : List Byte :=
  let body := (r.remaps.map (fun m => leBytes 8 m.entry)).flatten ++ (r.retired.map (fun p => leBytes 8 (p + 2 ^ 63))).flatten
  leBytes 4 0x52455052 ++ leBytes 1 1 ++ leBytes 3 0 ++ leBytes 4 r.seq ++ leBytes 4 r.remaps.length ++ leBytes 4 r.retired.length ++ leBytes 44 0
    ++ sha512 body ++ body

/-- What the bytes of a copy say; none when its MAGIC, VERSION or DIGEST does not match (R513, R709). -/
def readRepair (bs : List Byte) : Option RepairCopy :=
  let num (i n : Nat) : Nat := ofLE ((bs.drop i).take n)
  if bs.length < 128 then none
  else
    let n := num 12 4
    let body := (bs.drop 128).take (8 * (n + num 16 4))
    let es := ((upto (n + num 16 4)).map (fun i => num (128 + 8 * i) 8)).mapIdx (fun i e => (i, e))
    let on := es.filter (fun e => e.2.testBit 63)
    if num 0 4 ≠ 0x52455052 ∨ num 4 1 ≠ 1 ∨ 65536 < n ∨ 4096 < num 16 4 ∨ (bs.drop 64).take 64 ≠ sha512 body then none
    else some { seq := num 8 4,
                remaps := (on.filter (fun e => decide (e.1 < n))).map (fun e =>
                  { chan := field e.2 0 8, bank := field e.2 8 5, row := field e.2 13 16, spare := field e.2 29 3, bad := field e.2 32 8 }),
                retired := (on.filter (fun e => decide (n ≤ e.1))).map (fun e => field e.2 0 32) }

/-- REPAIR_RECORD_WRITE (R514, R709): the MC writes the copy with the lower SEQUENCE, an invalid one first; `ok` tells whether the flash took it. -/
def repairWrite (c : Core) (ok : Bool) : Core :=
  if !c.repairDue then c
  else
    let seqOf (i : Nat) : Nat := match readRepair (nth [] c.repair i) with | some r => r.seq + 1 | none => 0
    let seq := max (seqOf 0) (max (seqOf 1) 1) % 2 ^ 32
    if ok then
      let r := repairBytes { seq := seq, remaps := c.remaps, retired := c.retired }
      let c1 := { c with repair := setNth c.repair (if seqOf 0 ≤ seqOf 1 then 0 else 1) r, repairDue := false }
      c1.setReg (Reg.eccRepair 0) (field seq 0 16 * 2 ^ 16)
    else
      let c1 := { c with repairDue := false }
      ((c1.setBit (Reg.eccRepair 0) 1 true).raise (qpage 0 7) 6).log 0 { kind := 0x09 }

/-- What the memory system's policies start at a step boundary (R41, R481, R509). -/
def Core.maintBoundary (c : Core) : Core := { c.startRetrains with failDue := c.failing }

end Sys2Proof.Machine
end

