-- ==== Sys2Proof/Machine/Strand.lean ====
section
/-!
DEFINITION. Strands (R63 to R91): starting, stopping, cancelling, completion records, event counters, shadow swaps, and marking a transaction
aborted (R95).
-/
namespace Sys2Proof.Machine
open Sys2Proof

/-! ### Access -/

/-- A strand. -/
def State.strand (s : State) (k : Nat) : Strand := nth {} s.ctl.strands k

/-- Change a strand. -/
def State.setStrand (s : State) (k : Nat) (f : Strand → Strand) : State :=
  { s with ctl := { s.ctl with strands := setNth s.ctl.strands k (f (s.strand k)) } }

/-- Change the machine below the strands. -/
def State.on (s : State) (f : Core → Core) : State := { s with core := f s.core }

/-- Change the job's own state. -/
def State.onJob (s : State) (f : Job → Job) : State := s.on (fun c => { c with job := f c.job })

/-- Offset of register `r` of strand `k` (R90). -/
def strandKey (k r : Nat) : Nat := 0x5100 + 0x20 * k + r

/-- The quarter that runs a strand (R66). -/
def State.quarter (s : State) (k : Nat) : Nat := s.core.fld (strandKey k 0) 4 2

/-- A field of the strand's descriptor. -/
def Strand.f (t : Strand) (byte lo w : Nat) : Nat := dfld t.desc byte lo w

/-- OPCODE of the current descriptor. -/
def Strand.op (t : Strand) : Nat := t.f 0 0 8

/-- The transaction that the current descriptor is a member of (R71, R772). -/
def Strand.txn? (t : Strand) : Option Nat := if t.f 1 0 1 = 1 ∧ !t.fetchFailed then some (t.f 2 0 8) else none

/-- Whether an opcode is a collective (R560). -/
def isCollective (op : Nat) : Bool := decide (0x60 ≤ op) && decide (op ≤ 0x65)

/-- Whether a strand in WAIT_TIME still waits for a timed-event entry for its collective (R59); a staggered strand start takes none (R662). -/
def Strand.needsEntry (t : Strand) : Bool := t.startAt == 0 && isCollective t.op && !t.entry

/-- Whether a strand is in RUN, WAIT_TIME, WAIT_EVENT or STOPPING. -/
def Strand.active (t : Strand) : Bool :=
  match t.phase with
  | .idle | .halted | .faulted => false
  | _ => true

/-- CP_STRAND_STATUS.STATE (R90). -/
def Strand.state (t : Strand) : Nat :=
  match t.phase with
  | .idle => 0
  | .halted => 4
  | .faulted => 5
  | .waitTime => if t.stopping then 6 else 2
  | .waitEvent => if t.stopping then 6 else 3
  | _ => if t.stopping then 6 else 1

/-- Whether any strand of the device runs or waits. -/
def State.running (s : State) : Bool := s.ctl.strands.any Strand.active

/-- Whether the device is past boot and not held in reset (R665, R698, R706). -/
def State.live (s : State) : Bool := s.core.fld Reg.bootStatus 0 4 == 11 && !s.mgmt.held

/-- Whether the blocks are out of reset: neither FAILED nor held by a thermal trip (R706). -/
def State.awake (s : State) : Bool := s.core.fld Reg.bootStatus 0 4 != 15 && !s.mgmt.held

/-- The node a strand's descriptors act as: the adopted node for stand-in strands (R627). DEDUCED, log entry 26. -/
def State.actOf (s : State) (k : Nat) : Option Nat := if 32 ≤ k then s.core.adopted? else none

/-- The descriptor of strand `k` as its engine sees it. -/
def State.dx (s : State) (k : Nat) : Dx :=
  let t := s.strand k
  { c := { s.core with actAs := s.actOf k }, lfsr := s.ctl.lfsr, comp := t.comp, desc := t.desc, adds := t.adds,
    acc := { q := s.quarter k, strand := some k, index := t.pc, txn := t.txn?, poison := t.sawPoison },
    key := t.rkey.toNat, stream := t.rstream.toNat, pos := t.rpos.toNat }

/-- What a descriptor's work leaves behind. -/
def State.withDx (s : State) (k : Nat) (x : Dx) : State :=
  let s1 := { s with core := { x.c with actAs := none }, ctl := { s.ctl with lfsr := x.lfsr } }
  s1.setStrand k (fun t => { t with comp := x.comp, sawPoison := x.acc.poison, adds := x.adds, rkey := BitVec.ofNat 64 x.key,
                                    rstream := BitVec.ofNat 16 x.stream, rpos := BitVec.ofNat 48 x.pos })

/-- Work that no descriptor of this device does: a message served on quarter `q` as a node. -/
def State.dev (s : State) (q : Nat) (as : Option Nat) : Dx :=
  { c := { s.core with actAs := as }, lfsr := s.ctl.lfsr, acc := { q := q } }

/-- What such work leaves behind. -/
def State.withDev (s : State) (x : Dx) : State :=
  { s with core := { x.c with actAs := none }, ctl := { s.ctl with lfsr := x.lfsr } }

/-- The node that a message for `dst` is served as (R626, R627). -/
def State.serveAs (s : State) (dst : Nat) : Option Nat := if dst ≠ s.core.node ∧ s.core.adopted? = some dst then some dst else none

/-- Whether a strand answers for a node: a stand-in strand for the adopted node, any other for this node (R627). -/
def State.strandFor (s : State) (k dst : Nat) : Bool := (s.actOf k).getD s.core.node == dst

/-! ### Event counters (R69, R73 to R75) -/

/-- An event counter's value. -/
def State.event (s : State) (i : Nat) : Nat := sget 0 s.ctl.events i

/-- Set an event counter. -/
def State.setEvent (s : State) (i v : Nat) : State := { s with ctl := { s.ctl with events := sset 0 s.ctl.events i (v % 2 ^ 32) } }

/-- Add to an event counter, saturating at 0xFFFF_FFFF. -/
def State.addEvent (s : State) (i n : Nat) : State := s.setEvent i (satAdd 32 (s.event i) n)

/-! ### Shadow sets (R105 to R109) -/

/-- SHADOW_CTRL of a page. -/
def shadowCtrl (page : Nat) : Nat := page * 4096 + 0x20

/-- Copy the shadow set of a page into its active set. Only the power page has RWS fields (R760). -/
def Core.swapPage (c : Core) (page : Nat) : Core :=
  if page = 6 then
    (blockRegs 6).foldl (fun (d : Core) r =>
      if r.rws = 0 then d
      else
        let off := page * 4096 + r.off
        let sh := match sfind d.regs (shadowKey off) with | some v => v | none => resetWord off
        d.setReg off ((d.reg off &&& (0xFFFFFFFF - r.rws)) ||| (sh &&& r.rws))) c
  else c

/-- Disarm both triggers of a page (R106, R109). -/
def State.disarm (s : State) (page : Nat) : State :=
  let s1 := s.on (fun c => (c.setBit (shadowCtrl page) 0 false).setBit (shadowCtrl page) 1 false)
  { s1 with ctl := { s1.ctl with armTime := sdel s1.ctl.armTime page } }

/-- An armed trigger fires: swap and clear both arms. DEDUCED, log entry 60. -/
def State.fireSwap (s : State) (page : Nat) : State := (s.disarm page).on (fun c => c.swapPage page)

/-- Every mapped page, ascending (R760). -/
def mappedPages : List Nat := upto 9 ++ ((upto 4).map (fun q => (upto 10).map (fun b => qpage q b))).flatten

/-- The swaps that a SWAP_AFTER descriptor of strand `k` triggers at its completion (R106). DEDUCED, log entry 60. -/
def State.descSwaps (s : State) (k : Nat) : State :=
  mappedPages.foldl (fun (t : State) p =>
    if t.core.fld (shadowCtrl p) 1 1 = 1 ∧ t.core.fld (shadowCtrl p) 8 6 = k then t.fireSwap p else t) s

/-! ### Transactions: opening and marking aborted (R92, R95) -/

/-- Whether an identifier names the boundary transaction (R601). DEDUCED, log entry 22. -/
def Core.isBoundary (c : Core) (id : Nat) : Bool := id == c.fld Reg.jobCfg 0 8

/-- Whether a job runs on this device (R637). -/
def Core.inJob (c : Core) : Bool := c.jobState == 1 || c.jobState == 2

/-- A member with an identifier is fetched: its transaction is open (ch. 2). DEDUCED, log entry 20. -/
def Core.openTxn (c : Core) (id : Nat) : Core :=
  if (c.txn? id).isSome then c.setTxn id (fun t => { t with opened := true }) else { c with txns := c.txns ++ [{ id := id }] }

/-- A commit or prepare that waits for a transaction whose first member may not have been fetched. -/
def Core.expectTxn (c : Core) (id : Nat) : Core := if (c.txn? id).isSome then c else { c with txns := c.txns ++ [{ id := id, opened := false }] }

/-- Whether a transaction's decision binds: a local commit that has not published can still be aborted (R95, R96). -/
def Txn.decided (t : Txn) : Bool := t.decision.isSome && !t.waiters.any (fun w => w.kind == .localCommit)

/-- Close a transaction. -/
def Core.closeTxn (c : Core) (id : Nat) : Core := { c with txns := c.txns.filter (fun t => t.id != id) }

/-- Forget what the engines hold for a strand whose descriptor is cancelled. -/
def Core.dropRuns (c : Core) (k : Nat) : Core :=
  { (collClose (c.dropLaunch k) k) with
    samps := c.samps.filter (fun r => r.strand != k), stash := c.stash.filter (fun r => r.strand != k),
    laneSeed := c.laneSeed.filter (fun r => r.2 != k), emb := { c.emb with looks := c.emb.looks.filter (fun r => r.strand != k), gradWait := c.emb.gradWait.filter (fun g => g.1 != k) } }

/-- A transaction without the commit or prepare of strand `k`: an unprepared one no longer waits, and a local commit publishes nothing; a prepared or
decided transaction waits on without a strand (R85, R96, R104). DEDUCED, log entry 21. -/
def Txn.leave (t : Txn) (k : Nat) : Txn :=
  let ws := t.waiters.filter (fun w => w.strand != k || w.voted || t.decided)
  { t with waiters := ws.map (fun w => if w.strand = k then { w with strand := 64 } else w),
           decision := if t.decided || ws.any (fun w => w.kind == .localCommit) then t.decision else none }

/-- A commit or prepare descriptor ends without its transaction's decision taking effect. -/
def State.leave (s : State) (k : Nat) : State :=
  s.on (fun c => { c with txns := (c.txns.map (fun t => t.leave k)).filter (fun t => t.opened || !t.waiters.isEmpty) })

/-- End a strand's current descriptor with at least a status; its completion is still to be written. The drops of a launch that ends so, and those that nodes
have answered to a lookup, go into its record (R20, R320, R360). -/
def State.endDesc (s : State) (k st : Nat) : State :=
  let answered := (((s.core.emb.looks.filter (fun l => l.strand == k)).map (·.answers)).flatten.map (·.dropped)).flatten
  let drops (t : Comp) : Comp :=
    let u := t.dropMany answered.length (answered.foldl min (2 ^ 64 - 1))
    match s.core.launch? k with | some r => u.dropMany r.drops r.dropPos | none => u
  ((s.on (fun c => c.dropRuns k)).leave k).setStrand k (fun t => { t with phase := .done, comp := { drops t.comp with status := max (drops t.comp).status st } })

/-- A transaction with nothing staged, marked aborted (R95). -/
def Txn.discard (t : Txn) : Txn :=
  { t with aborted := true, decision := none, stage := [], stagePoison := [], stageHint := [], stageRegs := [], units := [], notices := [], stageSent := [] }

/-- A member that has not completed when its transaction is marked aborted is cancelled and completes with 0x21 (R95). A TXN_PREPARE or TXN_COMMIT whose own
completion time is fixed has completed. -/
def State.cancelMember (s : State) (k id : Nat) : State :=
  let t := s.strand k
  if t.active && t.phase != .fetch && t.comp.tEnd.isNone && t.txn? == some id then
    (s.endDesc k 0x21).setStrand k (fun t => { t with comp := { t.comp with cancelled := true } })
  else s

/-- Mark an open transaction aborted (R95): staged effects are discarded, its members still running but the one of strand `but`, whose end or TXN_ABORT marks it, are
cancelled, and a local TXN_COMMIT that waits completes with 0x21. A transaction whose decision to commit binds is not marked. A prepared
transaction whose TXN_PREPARE has timed out closes (R104). -/
def State.markAborted (s : State) (id : Nat) (but : Nat := 64) : State :=
  match s.core.txn? id with
  | none => s
  | some t =>
    if t.aborted || t.decided then s
    else
      let s1 := s.on (fun c => (c.setTxn id Txn.discard).raise 5 5)
      let s2 := if s1.core.isBoundary id then s1.on (fun c => c.raise 7 2) else s1
      let s3 := ((upto 64).filter (fun k => k != but)).foldl (fun (u : State) k => u.cancelMember k id) s2
      t.waiters.foldl (fun (u : State) w =>
        match w.kind with
        | .localCommit => u.endDesc w.strand 0x21
        | .participant => if 64 ≤ w.strand then u.on (fun c => c.closeTxn id) else u
        | .coordinator => u) s3

/-! ### Starting and stopping (R82, R85 to R88, R662) -/

/-- The stagger offset in ns (R662). -/
def Core.stagger (c : Core) : Nat :=
  let slots := max 1 (min 64 (c.fld Reg.pwrStagger 0 7))
  c.node % slots * c.fld Reg.pwrStagger 8 16

/-- Whether a strand belongs to the job (R637). -/
def Core.jobStrand (c : Core) (k : Nat) : Bool := (c.reg (Reg.jobStrandsLo + 4 * (k / 32))).testBit (k % 32)

/-- The sparse policies of a quarter start cold (R38, R39, R261): the audit counts return to zero and THRESH to one in sixteen unless it is held.
DEDUCED, log entry 37. -/
def Core.coldSparse (c : Core) (q : Nat) : Core :=
  let d := ((c.setFld (Reg.predTarget q) 16 16 0).setReg (Reg.predSkips q) 0).setReg (Reg.predMisses q) 0
  if d.fld (Reg.smeDensityThresh q) 8 1 = 1 then d else d.setFld (Reg.smeDensityThresh q) 0 8 16

/-- A job starts (R38): COLL_JOB_GEN counts it and the job-scoped policies start cold, that of the twin heartbeat with them. DEDUCED, log entry 68. -/
def Core.jobStart (c : Core) : Core :=
  { (upto 4).foldl (fun (d : Core) q => (d.setReg (Reg.collJobGen q) (d.reg (Reg.collJobGen q) + 1)).coldSparse q) c with
      policy := {}, job := { c.job with hbLast := none }, 
      emb := { c.emb with load := 0, trackers := [[], [], [], []], winLoad := 0, winRows := [], selDue := false, sumDue := false, meas := 0, boundaries := 0 } }

/-- Whether the start of a strand of the job starts a job: none runs, or every strand of the one before has halted (R38, R637). DEDUCED, log entry 68. -/
def State.jobStarts (s : State) (k : Nat) (restart : Bool) : Bool :=
  !restart && s.core.jobStrand k && (s.core.jobState == 0 || s.core.jobState == 4 ||
    (s.core.jobState == 1 && !(upto 64).any (fun j => s.core.jobStrand j && (s.strand j).active)))

/-- Start a strand that is IDLE, HALTED or FAULTED (R88): its first fetch waits for the stagger offset. A strand that a restart starts keeps the
STEPS that the restart set (R616). DEDUCED, log entries 25, 68. -/
def State.startStrand (s : State) (k index : Nat) (restart : Bool) : State :=
  if (s.strand k).active then s
  else
    let off := s.core.stagger
    let s1 := { s with ctl := { s.ctl with started := true, stepWdog := if s.running then s.ctl.stepWdog else s.core.ct } }
    let s2 := s1.setStrand k (fun t =>
      { t with phase := if off = 0 then .fetch else .waitTime, stopping := false, pc := index % 2 ^ 18, haltReason := 0, head := 0, wraps := 0,
               steps := if restart then t.steps else 0, loops := List.replicate 4 (0, false), startAt := if off = 0 then 0 else s.core.ct + off,
               tWdog := s.core.ct, haltNext := 0, entry := false, next := none, comp := {}, units := [], desc := 0, adds := [], sawPoison := false, fetchFailed := false })
    if s.jobStarts k restart then s2.on (fun c => c.jobStart.setFld Reg.jobState 0 3 1) else s2

/-- A strand halts or faults (R90, R91). -/
def State.stopStrand (s : State) (k reason : Nat) (fault : Bool) : State :=
  (s.setStrand k (fun t => { t with phase := if fault then .faulted else .halted, haltReason := reason, stopping := false, haltNext := 0, startAt := 0 })).on
    (fun c => c.raise 5 (if fault then 1 else 0))

/-- Cancel a strand's current descriptor as by ABORT (R85): status 0x21 for a transaction member, else 0x20; the strand then stops with a reason, 3
or 7. A strand between descriptors stops at once; one whose descriptor has completed in a publication (R97) is not cancelled and stops after it. DEDUCED, log entry 50. -/
def State.cancelStrand (s : State) (k reason : Nat) : State :=
  let t := s.strand k
  if !t.active then s
  else if t.phase = .fetch ∨ (t.phase = .waitTime ∧ t.startAt ≠ 0) then s.stopStrand k reason (reason == 7)
  else
    let s1 := if t.comp.tEnd.isSome then s else s.endDesc k (if t.txn?.isSome then 0x21 else 0x20)
    s1.setStrand k (fun u => { u with haltNext := reason, comp := { u.comp with cancelled := u.comp.cancelled || t.comp.tEnd.isNone } })

/-! ### Completion (R77, R83, R84) -/

/-- FLAGS of a completion record (R84). -/
def Comp.flags (c : Comp) : Nat := b2n c.late + 2 * b2n c.cancelled + 4 * b2n c.storeDropped + 8 * b2n c.startIgnored

/-- The 64 bytes of a completion record (R84, R772). -/
def Strand.record (t : Strand) (k ct : Nat) : List Byte :=
  let c := t.comp
  let tEnd := c.tEnd.getD ct
  leBytes 1 c.status ++ leBytes 1 (if t.fetchFailed then 0 else t.op) ++ leBytes 1 (if t.fetchFailed then 0 else t.f 2 0 8) ++ leBytes 1 k
    ++ leBytes 4 t.pc ++ leBytes 8 (t.tStart.getD tEnd) ++ leBytes 8 tEnd ++ leBytes 8 c.posNan ++ leBytes 8 c.posOver ++ leBytes 8 c.posDrop
    ++ leBytes 4 c.drops ++ leBytes 4 t.steps ++ leBytes 1 c.retries ++ leBytes 3 0 ++ leBytes 4 c.flags

/-- Write a strand's completion record to its ring (R83). The ring lies in one quarter's share: a record past it, or at or above TOP, is dropped (R90, R458). -/
def State.writeRecord (s : State) (k : Nat) : State :=
  let lg0 := s.core.fld (strandKey k 0x14) 0 5
  if lg0 = 0 then s
  else
    let lg := max 4 (min 16 lg0)
    let t := s.strand k
    let off := s.core.fld (strandKey k 0x10) 6 25 * 64
    let at_ := off % 2 ^ 29 + 64 * (t.head % 2 ^ lg)
    let s1 := s.on (fun c =>
      if at_ < 2 ^ 29 then c.store { q := s.quarter k, strand := some k, index := t.pc } (ergAddr (off / 2 ^ 29) at_) (t.record k c.ct)
      else c.unaddr (off / 2 ^ 29))
    s1.setStrand k (fun t => { t with head := (t.head + 1) % 2 ^ 32, wraps := if t.head ≥ 2 ^ lg then satAdd 16 t.wraps 1 else t.wraps })

/-- The FP32 additions a descriptor makes at its completion (R419): read, add and write, each together; one that has read a poisoned block writes poisoned (R497). -/
def Dx.applyAdds (x : Dx) : Dx :=
  x.adds.foldl (fun (y : Dx) p =>
    let (z, v) := y.num p.1 4
    z.write p.1 (leBytes 4 (convElem 1 1 { code := 0 } (add32 (decodeBits 1 v) (decodeBits 1 p.2))))) { x with adds := [] }

/-- Whether a descriptor makes its additions when it completes (R419): its work has been done, so it ends with a status below 0x20, or with 0x30 or 0x31 for
what it has read (R497), and it is not cancelled. -/
def Comp.adding (c : Comp) : Bool := !c.cancelled && (decide (c.status < 0x20) || c.status == 0x30 || c.status == 0x31)

/-- The completion of strand `k`'s member as its transaction sees it (R95, R96, R100). -/
def State.memberDone (s : State) (k id status : Nat) : State :=
  let s1 := s.on (fun c => c.setTxn id (fun t => { t with ends := t.ends ++ [c.ct] }))
  if status ≥ 0x20 then s1.markAborted id k else s1

/-- The consequences of a status for the step (R613): an abort of the boundary transaction, and resignation for 0x30 and 0x40. DEDUCED, log entry 69. -/
def State.jobPolicy (s : State) (k status : Nat) : State :=
  if s.core.inJob then
    s.onJob (fun j => { j with abortDue := j.abortDue || (s.core.jobStrand k && decide (status ≥ 0x20)),
                               resignDue := j.resignDue || status == 0x30 || status == 0x40 })
  else s

/-- What a descriptor's completion itself does to the machine: the additions of R419, and the change of context of a transaction member's RNG_ROUND (R443). -/
def State.completeWork (s : State) (k : Nat) : State :=
  let t := s.strand k
  if t.op = 0x80 ∧ t.txn?.isSome = true ∧ t.tStart.isSome = true ∧ t.comp.status < 0x20 ∧ t.comp.cancelled = false then s.withDx k (rngRound (s.dx k) t.steps)
  else if t.comp.adding then s.withDx k (s.dx k).applyAdds
  else s.setStrand k (fun t => { t with adds := [] })

/-- The completion's own work and its transaction bookkeeping (R95, R419, R443): the completion of TXN_PREPARE or TXN_COMMIT closes an aborted
transaction. -/
def State.completeTxn (s : State) (k : Nat) : State :=
  let s1 := s.completeWork k
  let t := s1.strand k
  let s2 := match t.txn? with | some id => s1.memberDone k id t.comp.status | none => s1
  if t.fetchFailed then s2
  else if t.op = 6 ∨ t.op = 7 then
    match s2.core.txn? (t.f 24 0 8) with
    | some x => if x.aborted then s2.on (fun c => c.closeTxn x.id) else s2
    | none => s2
  else s2

/-- The block interrupts that a descriptor raises by completing with a status, as page and bit: with 0x03 the DROP bits of SAMPLE (R299), of the embedding
descriptors (R340), the collectives (R593), ACT_STASH and ACT_FETCH (R431), with 0x60 REFUSED of LANE_RESTORE (R372), of a sparse descriptor OVERFULL
with 0x02 and DROP with dropped entries (R262). -/
def Strand.endBits (t : Strand) (st q : Nat) : List (Nat × Nat) :=
  if t.fetchFailed then []
  else if st = 0x03 ∧ t.op = 0x40 then [(qpage q 2, 0)]
  else if st = 0x03 ∧ 0x30 ≤ t.op ∧ t.op ≤ 0x33 then [(qpage q 3, 0)]
  else if st = 0x03 ∧ 0x60 ≤ t.op ∧ t.op ≤ 0x65 then [(qpage q 9, 3)]
  else if st = 0x03 ∧ 0x7E ≤ t.op ∧ t.op ≤ 0x7F then [(8, 0)]
  else if st = 0x60 ∧ t.op = 0x52 then [(qpage q 4, 4)]
  else if 0x18 ≤ t.op ∧ t.op ≤ 0x1A then (if st = 0x02 then [(qpage q 1, 0)] else []) ++ if t.comp.drops ≠ 0 then [(qpage q 1, 1)] else []
  else []

/-- Record, swaps, signal and interrupts of a completion, in this order (R77, R83, R75, R91); `t` is the strand as it completes. -/
def State.completeEffects (s : State) (k : Nat) (t : Strand) : State :=
  let st := t.comp.status
  let s := s.on (fun c => (t.endBits st (s.quarter k)).foldl (fun c b => c.raise b.1 b.2) c)
  let s4 := (s.writeRecord k).on (fun c => c.releaseUses k)
  let s5 := if t.f 1 5 1 = 1 ∧ t.fetchFailed = false then s4.descSwaps k else s4
  let s6 := if t.f 1 3 1 = 1 ∧ t.fetchFailed = false ∧ st < 0x20 then s5.addEvent (t.f 16 0 12) (t.f 16 12 20) else s5
  if st ≥ 0x20 then (s6.setStrand k (fun t => { t with lastErr := st })).on (fun c => c.raise 5 3)
  else if st ≠ 0 then s6.on (fun c => c.raise 5 4) else s6

/-- A strand with no current descriptor. -/
def Strand.cleared (t : Strand) (ct : Nat) : Strand :=
  { t with tWdog := ct, desc := 0, comp := {}, entry := false, units := [], tStart := none, sawPoison := false, fetchFailed := false, next := none }

/-- A writer that found the journal full waits: nothing of its command has happened, and JOURNAL_FULL shows why (R605, R612). -/
def State.withdrawn (old new : State) : State := if (new.core.reg 0x7010).testBit 7 then old.on (fun c => c.raise 7 7) else old

/-- Work that finds a channel, a row, the journal or a mirror queue held waits, and is tried again at the end of the next command (R480, R509, R605, R612). -/
def State.ifFree (s : State) (f : State → State) : State := let t := f s; if t.core.stall && !s.core.stall then s.withdrawn t else t

/-- The units have work now (R656). -/
def State.worked (s : State) (us : List Nat) : State :=
  { s with pwr := { s.pwr with ramp := { s.pwr.ramp with lastWork := us.foldl (fun m u => sput m u s.core.up) s.pwr.ramp.lastWork,
                                                         admitted := s.pwr.ramp.admitted.filter (fun u => !us.contains u) } } }

/-- Where a strand goes after its descriptor `t` (R77, R85, R90). The index after the last one, 0x3FFFF, is 0; a STOPPING strand whose descriptor is HALT, or ends at 0x20 or
higher under HALT_ON_ERR, halts for that reason, 1 or 4, and not for 2. DESIGN CHOICE, log entry 100. -/
def State.goOn (s : State) (k : Nat) (t : Strand) : State :=
  let next := t.next.getD ((t.pc + 1) % 2 ^ 18)
  let s8 := s.setStrand k (fun u => u.cleared s.core.ct)
  if t.haltNext ≠ 0 then s8.stopStrand k t.haltNext (t.haltNext == 7)
  else if t.comp.status ≥ 0x20 ∧ s8.core.fld (strandKey k 0) 3 1 = 1 then s8.stopStrand k 4 false
  else if t.stopping then (s8.setStrand k (fun t => { t with pc := next })).stopStrand k 2 false
  else s8.setStrand k (fun t => { t with pc := next, phase := .fetch })

/-- A descriptor completes (R77): its additions, its transaction, its record, swaps, signal, and where the strand goes. `policy` is false during a
restart, whose cancelled descriptors have no further consequence. -/
def State.complete (s : State) (k : Nat) (policy : Bool) : State :=
  if (s.strand k).phase ≠ .done then s
  else
    let s1 := s.completeTxn k
    let t := s1.strand k
    let s2 := ((s1.completeEffects k t).worked t.units).goOn k t
    if policy then s2.jobPolicy k t.comp.status else s2

end Sys2Proof.Machine
end

