-- ==== Sys2Proof/Machine/Irq.lean ====
section
/-!
DEFINITION. Interrupts (R685 to R687): page interrupts, routes, event watches and MSI-X messages.
-/
namespace Sys2Proof.Machine
open Sys2Proof

/-- Change the PCIe function's state. -/
def State.onHost (s : State) (f : HostSt → HostSt) : State := { s with host := f s.host }

/-- Whether a page interrupt is asserted. -/
def Core.pageIrq (c : Core) (p : Nat) : Bool := c.reg (p * 4096 + 0x10) &&& c.reg (p * 4096 + 0x14) != 0

/-- The vector a page routes to (R685). -/
def Core.routeOf (c : Core) (p : Nat) : Nat := c.fld (bankKey p Reg.hostIrqRoute) 0 6

/-- The vectors whose pending condition is 1 (R686). -/
def Core.conditions (c : Core) : List Nat :=
  let pages := (mappedPages.filter c.pageIrq).map c.routeOf
  let watches := ((upto 8).filter (fun n => (c.reg Reg.hostWatchStatus).testBit n)).map (fun n => c.fld (bankKey n Reg.hostWatchCfg) 16 6)
  (pages ++ watches).foldl insN []

/-- Word `w` of a vector's MSI-X table entry. -/
def msixKey (v w : Nat) : Nat := 0x2400 + 16 * v + 4 * w

/-- The word of the pending bit array that holds a vector's bit. -/
def pbaKey (v : Nat) : Nat := 0x2800 + 4 * (v / 32)

/-- Send a vector's message, or keep it pending while the vector or the function is masked, or the function may not master the bus (R684,
R686). Nothing is sent while MSI-X Enable is 0. DEDUCED, log entry 82. -/
def State.sendVector (s : State) (v : Nat) : State :=
  if !s.host.msixEn then s
  else if s.host.fmask || !s.host.bme || s.core.fld (msixKey v 3) 0 1 == 1 then s.on (fun c => c.setBit (pbaKey v) (v % 32) true)
  else s.on (fun c => { c with wire := c.wire ++ [{ dst := 0, wadi := 0, body := .msix v (c.reg (msixKey v 0) + c.reg (msixKey v 1) * 2 ^ 32) (c.reg (msixKey v 2)) }] })

/-- Messages kept pending are sent once unmasked. DEDUCED, log entry 82. -/
def State.deliverPending (s : State) : State :=
  (upto 64).foldl (fun (t : State) v =>
    if t.core.fld (pbaKey v) (v % 32) 1 = 1 ∧ t.host.msixEn ∧ !t.host.fmask ∧ t.host.bme ∧ t.core.fld (msixKey v 3) 0 1 = 0 then
      (t.on (fun c => c.setBit (pbaKey v) (v % 32) false)).sendVector v
    else t) s

/-- Evaluate the pending conditions: a rise from 0 to 1 sends the vector's message (R686). -/
def State.irqSettle (s : State) : State :=
  let now := s.core.conditions
  let s1 := (now.filter (fun v => !s.host.conds.contains v)).foldl State.sendVector s
  s1.onHost (fun h => { h with conds := now })

/-- HOST_IRQ_EOI: a vector whose condition is 1 is sent again (R686); `vecs` is the written word, `hi` the half. -/
def State.eoi (s : State) (hi : Bool) (vecs : Nat) : State :=
  (upto 32).foldl (fun (t : State) i =>
    let v := i + if hi then 32 else 0
    if vecs.testBit i ∧ t.core.conditions.contains v then t.sendVector v else t) s

/-- Event watch `n` fires (R687). -/
def watchFire (s : State) (n : Nat) : State :=
  let cfg := bankKey n Reg.hostWatchCfg
  if s.core.fld cfg 31 1 = 1 ∧ s.event (s.core.fld cfg 0 12) ≥ s.core.reg (bankKey n Reg.hostWatchThresh) then
    s.on (fun c => (c.setBit cfg 31 false).setBit Reg.hostWatchStatus n true)
  else s

/-- Set a bit of HOST_ERR, which raises ERR (R693, R694). -/
def Core.hostError (c : Core) (i : Nat) : Core := (c.setBit Reg.hostErr i true).raise 2 1

end Sys2Proof.Machine
end

