-- ==== Sys2Proof/Machine/Power.lean ====
section
/-!
DEFINITION. Power, droop and thermal control (R639 to R670): the cap and its sharing, the frequency request, frequency changes, the ramp limiter,
temperature, throttling and the throttle reasons.
-/
namespace Sys2Proof.Machine
open Sys2Proof

/-- Change the power state. -/
def State.onPwr (s : State) (f : Power → Power) : State := { s with pwr := f s.pwr }

/-! ### Throttle reasons (R667, R668) -/

/-- The reasons that are active: CAP, THERMAL, DROOP, RAMP, EXT in bits 0 to 4. -/
def Power.active (p : Power) : Nat :=
  b2n (p.pacing || p.short) + 2 * b2n (p.thermal || p.emergency || p.memHot) + 4 * b2n (!p.stretch.isEmpty)
    + 8 * b2n (!p.ramp.waiting.isEmpty) + 16 * b2n p.throttle

/-- Durations of the reasons up to now, in ns. -/
def State.reasonNs (s : State) : List Nat :=
  s.pwr.reasonNs.mapIdx (fun i n => if (s.core.reg Reg.pwrThrNow).testBit i then n + (s.core.up - s.pwr.reasonAt) else n)

/-- Change the power state and bring the active reasons and their durations up to date. -/
def State.powered (s : State) (f : Power → Power) : State :=
  let s1 := s.onPwr (fun p => { f p with reasonNs := s.reasonNs, reasonAt := s.core.up })
  s1.on (fun c => c.setFld Reg.pwrThrNow 0 5 s1.pwr.active)

/-! ### The cap (R642 to R647) -/

/-- PWR_CAP.CAP_W as it acts. -/
def Core.capW (c : Core) : Nat := max 500 (min 1650 (c.fld Reg.pwrCap 0 11))

/-- The cap in force (R646). -/
def State.cap (s : State) : Nat := if s.pwr.extCap then min s.core.capW (max 500 (s.core.fld Reg.pwrExt 0 11)) else s.core.capW

/-- PWR_ORDER as it acts: 0 LINK, 1 MEM, 2 COMPUTE. -/
def Core.order (c : Core) : List Nat :=
  let o := [c.fld Reg.pwrOrder 0 2, c.fld Reg.pwrOrder 2 2, c.fld Reg.pwrOrder 4 2]
  if o.any (fun d => d == 3) || o.eraseDups.length != 3 then [0, 1, 2] else o

/-- The allocation of R642: LINK, MEM and COMPUTE in W. -/
def Core.allocate (c : Core) (cap : Nat) (m : PeriodMeasure) : List Nat :=
  let demand : List Nat := [m.link, m.mem, m.compute]
  let floor := min (min 150 (c.fld Reg.pwrOrder 16 8)) m.link
  let start : List Nat × Int := ([floor, 0, 0], (cap : Int) - m.base - floor)
  (c.order.foldl (fun (p : List Nat × Int) d =>
    let extra := min (nth 0 demand d - nth 0 p.1 d) p.2.toNat
    (setNth p.1 d (nth 0 p.1 d + extra), p.2 - extra)) start).1

/-! ### The job frequency (R648 to R653) -/

/-- The highest step of the speed grade (R1, R4). -/
def State.gradeMax (s : State) : Nat := if field s.mgmt.fuses.part 16 8 = 12 then 24 else 32

/-- The highest step that may be requested (R648). -/
def State.freqLimit (s : State) : Nat := min (min 32 (s.core.fld Reg.pwrFreq 0 6)) s.gradeMax

/-- COMPUTE power predicted at a step by the thermal model and the fused curve: free. DESIGN CHOICE, log entry 76. -/
def predicted (draw step : Nat) : Nat := Config.analogue draw step

/-- The highest step up to `limit` whose predicted power is at most `w` (0 when none is). -/
def bestStep (draw limit w : Nat) : Nat := ((upto (limit + 1)).filter (fun f => decide (predicted draw f ≤ w))).foldl max 0

/-- The core voltage at a step, in mV: a point of the fused voltage-frequency curve, within the range of R735. DESIGN CHOICE, log entry 76. -/
def curvePoint (step : Nat) : Nat := 600 + Config.analogue (2 ^ 64) step % 301

/-- Set the VDD_CMP rails to a voltage (R650, R738). -/
def State.setVolts (s : State) (mv : Nat) : State :=
  let s1 := s.onPwr (fun p => { p with volts := [mv, mv, mv, mv] ++ p.volts.drop 4 })
  s1.on (fun c => { c with wire := c.wire ++ (upto 4).map (fun q => { dst := 0, wadi := 0, body := .avsWrite 0 q mv }) })

/-- Before a vote for a higher frequency, or this device's own decision, the core voltage is raised to its point (R650). DEDUCED, log entry 77. -/
def State.raiseVolts (s : State) (req : Nat) : State :=
  if req > s.core.fld Reg.pwrFreqNow 0 6 ∧ curvePoint req > nth 0 s.pwr.volts 0 then s.setVolts (curvePoint req) else s

/-- After a change completes, a voltage above the point of the decided frequency is lowered (R650). -/
def State.lowerVolts (s : State) : State :=
  let mv := curvePoint (s.core.fld Reg.pwrFreqNow 8 6)
  if nth 0 s.pwr.volts 0 > mv then s.setVolts mv else s

/-- A decided frequency takes effect at time `t` (R651, R652): a lower one whole, a higher one in steps from `t` on. DEDUCED, log entry 77. -/
def State.applyFreq (s : State) (f t : Nat) : State :=
  let job := s.core.fld Reg.pwrFreqNow 0 6
  let s1 := s.on (fun c => ((c.setFld Reg.pwrFreqNow 8 6 f).setBit Reg.pwrFreqNow 16 false))
  let s2 := if f = job then s1 else s1.on (fun c => c.raise 6 4)
  if f ≤ job then ((s2.on (fun c => c.setFld Reg.pwrFreqNow 0 6 f)).onPwr (fun p => { p with raise := none })).lowerVolts
  else
    let more := decide (job + 1 < f)
    let s3 := (s2.on (fun c => (c.setFld Reg.pwrFreqNow 0 6 (job + 1)).setBit Reg.pwrFreqNow 16 more)).onPwr
      (fun p => { p with raise := if more then some (f, t + 1000) else none })
    if more then s3 else s3.lowerVolts

/-- One 25 MHz step of a raise (R651). -/
def freqStep (s : State) : State :=
  match s.pwr.raise with
  | none => s
  | some (f, t) =>
    if s.core.ct < t then s
    else
      let job := s.core.fld Reg.pwrFreqNow 0 6 + 1
      let more := decide (job < f)
      let s1 := (s.on (fun c => (c.setFld Reg.pwrFreqNow 0 6 job).setBit Reg.pwrFreqNow 16 more)).onPwr
        (fun p => { p with raise := if more then some (f, t + 1000) else none })
      if more then s1 else s1.lowerVolts

/-- The highest steps that fitted 95% of the COMPUTE allocation in the last four periods, the one that ends now with allocation `alloc` among them, whatever TARGET was (R648). -/
def State.fits (s : State) (draw alloc : Nat) : List Nat :=
  let fs := s.pwr.fits ++ [bestStep draw s.gradeMax (alloc * 95 / 100)]
  fs.drop (fs.length - 4)

/-- The frequency request at the end of a period whose COMPUTE allocation was `alloc`, and its cause (R648, R653); the thermal loop's lowering of it stands, in cold start too (R664). -/
def State.request (s : State) (draw alloc : Nat) (paced : Bool) : Nat × Nat :=
  let target := min 32 (s.core.fld Reg.pwrFreq 0 6)
  let limit := s.freqLimit
  let job := s.core.fld Reg.pwrFreqNow 0 6
  if s.core.fld Reg.pwrFreq 8 1 = 1 then (limit, 5)
  else if s.core.fld Reg.pwrFreqNow 17 1 = 1 then (if s.pwr.thermal then (min 16 (s.core.fld Reg.pwrFreq 16 6), 3) else (16, 1))
  else
    let h := bestStep draw limit alloc
    let fs := s.fits draw alloc
    let sure := if fs.length ≥ 4 then fs.foldl min h else 0
    let r := if paced && decide (h < job) then h else if sure > job then sure else job
    let r1 := min r limit
    let r2 := if s.pwr.thermal then min r1 (s.core.fld Reg.pwrFreq 16 6) else r1
    let why := if s.pwr.thermal then 3 else if r2 < limit then (if s.pwr.extCap then 4 else 2)
      else if limit < target then 6 else 0
    (r2, why)

/-- A control period begins (R640, R642, R645, R648, R649, R666): the last period's measures give the new allocation and the frequency request. -/
def controlPeriod (s : State) (m : PeriodMeasure) : State :=
  if s.core.ct / 1000000 ≤ s.pwr.periodAt / 1000000 then s
  else
    let s0 := s.onPwr (fun p => { p with extCap := p.throttle, periodAt := s.core.ct })
    let (c1, _) := s0.core.fresh
    let draw := s0.core.free
    let s1 := { s0 with core := c1 }
    let old := nth 0 s.pwr.alloc 2
    let (req, why) := s1.request draw old m.paced
    let a := c1.allocate s1.cap m
    let pacing := decide (m.link > nth 0 a 0) || decide (m.mem > nth 0 a 1) || decide (m.compute > nth 0 a 2)
    let s2 := s1.on (fun c =>
      let c := (c.setFld Reg.pwrPower 0 11 m.pkg).setFld Reg.pwrPower 16 11 m.base
      let c := ((c.setFld Reg.pwrAlloc 0 10 (nth 0 a 0)).setFld Reg.pwrAlloc 10 10 (nth 0 a 1)).setFld Reg.pwrAlloc 20 10 (nth 0 a 2)
      let c := (c.setFld Reg.pwrFreq 16 6 req).setFld Reg.pwrFreq 24 3 why
      let c := if s.pwr.thermalMs + 1 ≥ 100 then c.setBit Reg.pwrFreqNow 17 false else c
      if (pacing || s.pwr.short) && !s.pwr.capNow then c.raise 6 0 else c)
    let s3 := s2.powered (fun p => { p with pacing := pacing, alloc := a, paced := m.paced, thermalMs := p.thermalMs + 1, fits := s1.fits draw old,
                                            capBefore := p.capNow, capNow := pacing || p.short })
    -- a device that runs no job applies its own request when no strand runs (R649); the cold start stays at 1,000 MHz (R39, R40)
    let own := if s3.core.fld Reg.pwrFreqNow 17 1 = 1 then 16 else req
    if !s3.core.inJob && !s3.running && own != s3.core.fld Reg.pwrFreqNow 8 6 then (s3.raiseVolts own).applyFreq own s3.core.ct else s3

/-- AVSBus answers (R639, R740): watts by rail of those that answered; the estimate is recalibrated, a rail whose regulator is lost counting its on-die
estimate and 10%. -/
def avsSample (s : State) (watts : List (Nat × Nat)) : State :=
  let lost := s.pwr.avsLost.filter (fun r => !watts.any (fun w => w.1 == r))
  let (c1, v) := s.core.fresh
  let rails := (upto 11).map (fun r => if lost.contains r then (v + r) % 2048 * 11 / 10 else match watts.find? (fun w => w.1 == r) with | some w => w.2 | none => nth 0 s.pwr.rails r)
  { s with core := c1 }.onPwr (fun p => { p with avsLost := lost, rails := rails, estimate := rails.foldl (· + ·) 15 })

/-- A regulator has left a command unanswered for 1 ms (R740). -/
def avsTimeout (s : State) (rail : Nat) : State := (s.onPwr (fun p => { p with avsLost := insN p.avsLost rail })).on (fun c => c.raise 3 1)

/-- The 1 µs power estimate (R639, R643, R647, R666): above 2,000 W, above 1,650 W for more than 20 µs, or above it within 80 µs after such a time, COMPUTE is
paced in the slice. An estimate above BASE and the sum of the allocations shows a domain above its own, which is paced for the rest of the period, as one above the throttle's cap.
DEDUCED, log entry 128. -/
def powerEstimate (s : State) (watts : Nat) : State :=
  let high := decide (watts > 1650)
  let since := s.pwr.overAt.getD s.core.up
  let long := high && decide (s.core.up ≥ since + 20000)
  let short := decide (watts > 2000) || long || (high && decide (s.core.up < s.pwr.under))
  let overNow := decide (s.pwr.periodAt ≠ 0) && decide (watts > s.core.fld Reg.pwrPower 16 11 + s.pwr.alloc.foldl (· + ·) 0) || s.pwr.extCap && decide (watts > s.cap)
  let s1 := if (short || overNow) && !s.pwr.capNow && !s.pwr.capBefore then s.on (fun c => c.raise 6 0) else s
  s1.powered (fun p => { p with capNow := p.capNow || short || overNow, pacing := p.pacing || overNow, estimate := watts, short := short, overAt := if high then some since else none,
                                 under := if p.overAt.isSome && !high then s.core.up + 80000 else p.under })

/-! ### Temperature (R663 to R665) -/

/-- PWR_THERM.THROTTLE_C as it acts. -/
def Core.throttleC (c : Core) : Nat := max 70 (min 100 (c.fld Reg.pwrTherm 0 8))

/-- Whether the thermal loop's next period of 1 ms has begun (R110, R664). -/
def State.thermalDue (s : State) : Bool := match s.pwr.thermalAt with | some t => decide (t + 1000000 ≤ s.core.up) | none => true

/-- The 1 ms thermal loop (R110, R664): Tj and the temperature of each DRAM stack in °C. -/
def thermalLoop (s : State) (tj : Nat) (temps : List Nat) : State :=
  if !s.thermalDue then s else
  let thr := s.core.throttleC
  let hot := decide (tj ≥ thr)
  let thermal := hot || (s.pwr.thermal && decide (tj + 3 ≥ thr))
  let emergency := decide (tj ≥ 110) || (s.pwr.emergency && decide (tj ≥ 105))
  let mem := temps.any (fun t => decide (t ≥ 95)) || (s.pwr.memHot && temps.any (fun t => decide (t ≥ 92)))
  let s1 := s.on (fun c =>
    let was := c.fld Reg.pwrTherm 8 8
    let c1 := (c.setFld Reg.pwrTherm 8 8 tj).setFld Reg.pwrTherm 16 8 (max tj (c.fld Reg.pwrTherm 16 8))
    let c2 := c1.setFld Reg.pwrTherm 24 8 (temps.foldl max 0)
    let c3 := if hot && decide (was < thr) then c2.raise 6 1 else c2
    let c4 := if tj ≥ 110 ∧ was < 110 then c3.raise 6 2 else c3
    if hot && c4.fld Reg.pwrFreq 8 1 == 0 then (c4.setFld Reg.pwrFreq 16 6 (c4.fld Reg.pwrFreq 16 6 - 1)).setFld Reg.pwrFreq 24 3 3 else c4)
  (s1.on (fun c => { c with memStop := emergency })).powered (fun p =>
    { p with
      thermal := thermal, emergency := emergency, memHot := mem, thermalAt := some s.core.up
      refresh := (upto temps.length).filter (fun i => decide (nth 0 temps i ≥ 85)) })

/-- A sensor reads 115 °C or more (R665): THERMTRIP_N, and the hold in reset. -/
def thermalTrip (s : State) (sensor temp : Nat) : State :=
  if temp < 115 then s
  else
    let s1 := s.on (fun c =>
      let c1 := ((c.setBit Reg.pwrTrip 0 true).setFld Reg.pwrTrip 1 7 sensor).setFld Reg.pwrTrip 8 8 temp
      let c2 := (c1.setBit Reg.pinState 0 true).setReg Reg.bootDetail sensor
      (c2.setFld Reg.bootStatus 0 4 15).setFld Reg.bootStatus 8 8 0x50)
    { s1 with mgmt := { s1.mgmt with held := true, bootDone := false } }

/-! ### Droop (R654, R655) and the external throttle (R666) -/

/-- PWR_DROOP.THRESH_MV as it acts. -/
def Core.droopMv (c : Core) : Nat := max 20 (min 120 (c.fld Reg.pwrDroop 0 7))

/-- A droop sensor of a quarter reads `mv` (R654): below the voltage set for the quarter's core rail by more than THRESH_MV its compute clock stretches. -/
def droopDetect (s : State) (q mv : Nat) : State :=
  if nth 0 s.pwr.volts q ≤ mv + s.core.droopMv then s
  else
    let s1 := if (sfind s.pwr.stretch q).isSome then s else s.on (fun c => c.inc Reg.pwrDroopEvents 1)
    s1.powered (fun p => { p with stretch := sput p.stretch q s.core.up })

/-- 32 periods of the compute clock in ns, at least (R649, R654). -/
def Core.periods32 (c : Core) : Nat := ceilDiv 32000 (600 + 25 * c.fld Reg.pwrFreqNow 0 6)

/-- 32 periods after the last sensor of a quarter has recovered; not before they can have passed since the last reading below the threshold. -/
def droopEnd (s : State) (q : Nat) : State :=
  match sfind s.pwr.stretch q with
  | some t => if s.core.up < t + s.core.periods32 then s else s.powered (fun p => { p with stretch := sdel p.stretch q })
  | none => s

/-- THROTTLE_N has been low for 1 µs: the cap falls, and COMPUTE is paced to it at once where the estimate lies above it (R646, R666). -/
def throttleAssert (s : State) : State :=
  if s.pwr.throttle then s
  else
    let s1 := (s.on (fun c => ((c.setBit Reg.pwrExt 16 true).setBit Reg.pinState 1 true).raise 6 3)).onPwr (fun p => { p with throttle := true, extCap := true })
    let overNow := decide (s1.pwr.estimate > s1.cap)
    (if overNow && !s1.pwr.capNow && !s1.pwr.capBefore then s1.on (fun c => c.raise 6 0) else s1).powered
      (fun p => { p with pacing := p.pacing || overNow, capNow := p.capNow || overNow })

/-- THROTTLE_N has been high for 1 µs: the cap returns at the next control period. -/
def throttleRelease (s : State) : State :=
  if !s.pwr.throttle then s
  else ((s.on (fun c => (c.setBit Reg.pwrExt 16 false).setBit Reg.pinState 1 false))).powered (fun p => { p with throttle := false })

/-! ### The ramp limiter (R656 to R661) -/

/-- Units of the ramp limiter, in the order of R658. -/
def unitArray (q : Nat) : Nat := q * 256
/-- The SME. -/
def unitSme (q : Nat) : Nat := q * 256 + 1
/-- A lane processor. -/
def unitLane (q p : Nat) : Nat := q * 256 + 2 + p
/-- The neighbour sampler. -/
def unitSampler (q : Nat) : Nat := q * 256 + 130
/-- The gather engine. -/
def unitGather (q : Nat) : Nat := q * 256 + 131
/-- The DMA engine. -/
def unitDma (q : Nat) : Nat := q * 256 + 132

/-- PWR_RAMP.BUDGET as it acts, in A/µs. -/
def Core.rampBudget (c : Core) : Nat := max 50 (min 2000 (c.fld Reg.pwrRamp 0 12))

/-- A unit's charge at the job frequency, in A / 14,000 (R657). -/
def Core.charge (c : Core) (u : Nat) : Nat :=
  let tenths := match u % 256 with | 0 => 1600 | 1 => 240 | 130 => 80 | 131 => 120 | 132 => 60 | _ => 6
  tenths * (600 + 25 * c.fld Reg.pwrFreqNow 0 6)

/-- The ramp bucket's level now at a budget (R656). -/
def State.rampAt (s : State) (b : Nat) : Nat := min (b * 14000) (s.pwr.ramp.level + (s.core.up - s.pwr.ramp.since) * b * 14)

/-- The ramp bucket's level now. -/
def State.rampLevel (s : State) : Nat := s.rampAt s.core.rampBudget

/-- The bucket refills at another budget from now on; `old` is PWR_RAMP before. -/
def State.rebudget (s : State) (old : Nat) : State :=
  s.onPwr (fun p => { p with ramp := { p.ramp with level := s.rampAt (max 50 (min 2000 (field old 0 12))), since := s.core.up } })

/-- Whether a unit has work that goes on: a descriptor that ran on it has not completed yet, or a lane processor holds a group (R656). -/
def State.busyUnit (s : State) (u : Nat) : Bool :=
  s.ctl.strands.any (fun t => t.phase == .done && t.units.contains u) || s.core.lanes.any (fun r => r.resident.any (fun g => unitLane r.quarter g.proc == u))

/-- Whether a unit is idle: no work for IDLE_US (R656). -/
def State.idleUnit (s : State) (u : Nat) : Bool :=
  let ns := max 1 (s.core.fld Reg.pwrRamp 16 4) * 1000
  !s.busyUnit u && match sfind s.pwr.ramp.lastWork u with
  | none => true
  | some t => decide (s.core.up ≥ t + ns)

/-- An array that is admitted enables its first eighth (R659). -/
def State.openColumns (s : State) (u : Nat) : State :=
  if u % 256 = 0 then s.onPwr (fun p => { p with columns := sput p.columns (u / 256) (max 1 (sget (0, 0) p.columns (u / 256)).1, s.core.up) }) else s

/-- Take a unit's charge (R656). DEDUCED, log entry 78. -/
def State.takeCharge (s : State) (u : Nat) : State :=
  (s.onPwr (fun p => { p with ramp := { p.ramp with level := s.rampLevel - s.core.charge u, since := s.core.up, admitted := insN p.ramp.admitted u } })).openColumns u

/-- Whether the bucket holds a unit's charge; a charge above the capacity takes a full bucket. -/
def State.rampHolds (s : State) (u : Nat) : Bool := decide (s.rampLevel ≥ min (s.core.charge u) (s.core.rampBudget * 14000))

/-- Ask for the start of a unit for strand `k`, or for the messages of a claim above 63: true when it may start now; an idle unit pays its charge or waits its turn (R656, R658). -/
def State.askUnit (s : State) (u k : Nat) : State × Bool :=
  if !s.idleUnit u || s.pwr.ramp.admitted.contains u then (s, true)
  else if s.pwr.ramp.waiting.any (fun r => r.unit == u) then
    (s.onPwr (fun p => { p with ramp := { p.ramp with waiting := p.ramp.waiting.map (fun r => if r.unit = u then { r with claims := insN r.claims k } else r) } }), false)
  else if s.pwr.ramp.waiting.isEmpty && s.rampHolds u then (s.takeCharge u, true)
  else
    let le (a b : RampReq) : Bool := decide (a.since < b.since) || (a.since == b.since && decide (a.unit ≤ b.unit))
    (s.powered (fun p => { p with ramp := { p.ramp with waiting := insBy le { since := s.core.up, unit := u, claims := [k] } p.ramp.waiting } }), false)

/-- Ask for several units; each pays or waits. DEDUCED, log entry 78. -/
def State.askUnits (s : State) (us : List Nat) (k : Nat) : State × Bool :=
  us.foldl (fun (p : State × Bool) u => let (t, ok) := p.1.askUnit u k; (t, p.2 && ok)) (s, true)

/-- Whether a message is for the sampler, and not for the gather engine. -/
def toSampler : Body → Bool
  | .sampleRequest _ => true
  | .sampleAnswer _ => true
  | _ => false

/-- What claims the start of a message's unit, beside the strands 0 to 63: 64 for the sampler's messages, 65 for the gather engine's. -/
def claimOf (b : Body) : Nat := if toSampler b then 64 else 65

/-- Whether strand `k`, or the messages of a claim above 63, still wait to start: a strand's descriptor has neither ended nor been cancelled (R661). -/
def State.claims (s : State) (k : Nat) : Bool :=
  if 64 ≤ k then s.core.inbox.any (fun m => claimOf m.body == k) else (s.strand k).phase == .ready || (s.strand k).phase == .busy

/-- Waiting starts that no one waits for any more leave the ramp limiter (R661). -/
def State.dropStarts (s : State) : State :=
  let live (r : RampReq) : Bool := r.claims.any s.claims
  if s.pwr.ramp.waiting.all live then s else s.powered (fun p => { p with ramp := { p.ramp with waiting := p.ramp.waiting.filter live } })

/-- The first waiting start is admitted once the bucket holds its charge. -/
def rampAdmit (s : State) : State :=
  match s.pwr.ramp.waiting with
  | [] => s
  | r :: rest =>
    if s.rampHolds r.unit then (s.takeCharge r.unit).powered (fun p => { p with ramp := { p.ramp with waiting := rest } }) else s

/-- One eighth of an array's columns is enabled, or disabled when it is idle, 500 ns after the one before (R659). -/
def columnEnable (s : State) (q : Nat) : State :=
  let (n, t) := sget (0, 0) s.pwr.columns q
  if s.core.up < t + 500 then s
  else if s.idleUnit (unitArray q) && !s.pwr.ramp.admitted.contains (unitArray q) then
    if n = 0 then s else s.onPwr (fun p => { p with columns := sset (0, 0) p.columns q (if n = 1 then (0, 0) else (n - 1, s.core.up)) })
  else if 0 < n ∧ n < 8 then s.onPwr (fun p => { p with columns := sput p.columns q (n + 1, s.core.up) })
  else s

end Sys2Proof.Machine
end

