-- ==== Sys2Proof/Machine/Time.lean ====
section
/-!
DEFINITION. Cluster time (R44 to R56, R61, R62, R750): time messages, roots and parents, slewing, and the passing of time.
-/
namespace Sys2Proof.Machine
open Sys2Proof

/-- CT_CFG.ROLE; 3 acts as 0. -/
def Core.role (c : Core) : Nat := if c.fld Reg.ctCfg 0 2 = 3 then 0 else c.fld Reg.ctCfg 0 2

/-- CT_STATE.IS_ROOT. -/
def Core.isRoot (c : Core) : Bool := c.fld Reg.ctState 2 1 == 1

/-- Set CT_STATE.SYNC with the interrupts of R62. -/
def Core.setSync (c : Core) (v : Nat) : Core :=
  let old := c.sync
  let c1 := c.setFld Reg.ctState 0 2 v
  let c2 := if old = 2 ∧ v ≠ 2 then c1.raise 4 0 else c1
  if old ≠ 3 ∧ v = 3 then c2.raise 4 1 else c2

/-- Set CT_STATE.IS_ROOT with the interrupt of R62. -/
def Core.setRoot (c : Core) (b : Bool) : Core := if c.isRoot = b then c else (c.setBit Reg.ctState 2 b).raise 4 2

/-- Change the time distribution. -/
def State.onSync (s : State) (f : Sync → Sync) : State := { s with sync := f s.sync }

/-- Act as root (R46, R54): cluster time goes on without a step. DEDUCED, log entry 15. -/
def State.becomeRoot (s : State) : State :=
  (s.on (fun c => (((c.setRoot true).setSync 2).setFld Reg.ctState 16 8 0))).onSync (fun y => { y with following := false, slew := 0, rootSeen := true, freqErr := 0, freqAcc := 0, parentSeen := none })

/-- The ports that still carry time messages of a LOCKED neighbour whose hop count is known: a message within 20 µs (R47, R52). -/
def State.carriers (s : State) : List (Nat × TimeMsg) :=
  (s.sync.heard.filter (fun e => s.core.trained e.1 && decide (s.core.up ≤ e.2.2 + 20000) && e.2.1.sync == 2 && decide (e.2.1.hops < 255))).map
    (fun e => (e.1, e.2.1))

/-- The parent that R47 chooses, if there is one. -/
def State.bestParent (s : State) : Option Nat :=
  if s.core.fld Reg.ctCfg 3 1 = 1 then
    (s.carriers.foldl (fun (b : Option (Nat × Nat)) e =>
      match b with
      | none => some (e.1, e.2.hops)
      | some x => if e.2.hops < x.2 then some (e.1, e.2.hops) else b) none).map (·.1)
  else some (s.core.fld Reg.ctCfg 4 5)

/-- Follow a parent port, or none (R47). -/
def State.follow (s : State) (p : Option Nat) : State :=
  match p with
  | none => s.onSync (fun y => { y with following := false, good := 0, slew := 0 })
  | some q =>
    if s.sync.following && s.core.fld Reg.ctState 4 5 == q then s
    else (s.on (fun c => c.setFld Reg.ctState 4 5 q)).onSync (fun y => { y with following := true, good := 0, parentAt := s.core.up, parentSeen := none })

/-- A root without a reference runs free on its own clock: what a reference asked for ends (R46). -/
def State.freeRun (s : State) : State :=
  if s.core.isRoot && s.core.fld Reg.ctCfg 2 1 == 0 then s.onSync (fun y => { y with slew := 0, freqErr := 0, freqAcc := 0 }) else s

/-- Stop acting as root and become a follower (R55). -/
def State.becomeFollower (s : State) : State :=
  let s1 := (s.on (fun c => ((c.setRoot false).setSync 0).setFld Reg.ctState 16 8 0xFF)).onSync (fun y => { y with freqErr := 0, freqAcc := 0 })
  s1.follow s1.bestParent

/-- A write of CT_CFG gave the device a role or a reference (R45, R46, R55). DESIGN CHOICE, log entry 16. -/
def State.roleWritten (s : State) (old : Nat) : State :=
  let new := s.core.role
  let s1 := if new ≠ old then s.onSync (fun y => { y with rootAt := s.core.up }) else s
  let s2 := if new = 1 ∧ old ≠ 1 then s1.becomeRoot else if new ≠ old ∧ new ≠ 1 ∧ s.core.isRoot then s1.becomeFollower else s1
  s2.freeRun

/-- Whether root (role, node) `a` ranks before `b` (R55). -/
def ranksBefore (a b : Nat × Nat) : Bool := decide (a.1 < b.1) || (a.1 == b.1 && decide (a.2 < b.2))

/-- The root a device follows, with its role: itself when it acts as root, else the one its parent's last message names. -/
def State.rootSeen (s : State) : Nat × Nat :=
  if s.core.isRoot then (s.core.node, s.core.role)
  else match sfind s.sync.heard (s.core.fld Reg.ctState 4 5) with
    | some e => if s.sync.following then (e.1.root, e.1.rootRole) else (0xFFFF, 0)
    | none => (0xFFFF, 0)

/-- A trained port sends its time message on wadi 1, once per microsecond (R46, R552): to its neighbour, in one flit, once a credit and a place in the replay buffer let it leave at
once (R531, R534), from a node that has an identifier (R541). DESIGN CHOICE, log entry 61. -/
def timeSend (s : State) (p : Nat) : State :=
  let c := s.core
  let x := c.port p
  let ready := sget 0 x.credits 2 != 0 && decide (x.replay.length < 2048) && !x.entries.any (fun e => e.msg.wadi == 1 && e.unsent != 0)
  if !c.trained p || !ready || c.node == 0xFFFF || x.timeSent != 0 && decide (c.up < x.timeSent + 1000) then s
  else
    let (root, role) := s.rootSeen
    let m : TimeMsg := { time := c.ct, sync := c.sync, hops := c.fld Reg.ctState 16 8, root := root, rootRole := role }
    s.on (fun c =>
      let (d, v) := c.fresh
      (d.setPort p (fun x => { x with timeSent := c.up })).enqueue p { dst := c.fld (portKey p Reg.seifPeer) 0 16, wadi := 1, body := .timeMessage m } 0 1 (32 + 64 * (v % 2)) none)

/-- Cluster time is brought to `v` in a step (R50, R56). It never decreases (R44): it stands still until an earlier time has caught up. DEDUCED, log entry 13. -/
def State.setTime (s : State) (v : Nat) : State :=
  if s.core.ct ≤ v then (s.on (fun c => { c with ct := max c.ct (min v (2 ^ 64 - 1)) })).onSync (fun y => { y with hold := 0, slew := 0 })
  else s.onSync (fun y => { y with hold := s.core.ct - v, slew := 0 })

/-- The correction that a parent's message asks for (R50): one step to the parent's time before any strand has been started, else slewing. `offset`
is own minus parent time in ps. The step happens once since reset. DEDUCED, log entries 13, 14; DESIGN CHOICE, log entry 98. -/
def State.correct (s : State) (offset : Int) : State :=
  if s.sync.hold ≠ 0 then s
  else if s.core.sync = 1 ∧ s.ctl.started = false ∧ s.sync.stepped = false ∧ offset.natAbs > 10000000 then
    (s.setTime ((s.core.ct : Int) - offset / 1000).toNat).onSync (fun y => { y with stepped := true })
  else s.onSync (fun y => { y with slew := - (offset.tdiv 1000) })

/-- A follower takes its parent's frequency from successive messages (R52): while its own clock counted `parentTicks` ns, its parent's time went on by what its own cluster time did less
the change of the offset. The difference is made good evenly from here on, in HOLDOVER too; an interval whose clocks differ by more than 0.1% measures nothing. DEDUCED, log entry
14. -/
def State.followFreq (s : State) (offset : Int) : State :=
  let n := s.sync.parentTicks
  let s1 := match s.sync.parentSeen with
    | some (o, t) =>
      let err : Int := ((s.core.ct : Int) - t - n) * 1000 - (offset - o)
      if n ≠ 0 ∧ err.natAbs ≤ n then s.onSync (fun y => { y with freqErr := (err * 1000000).tdiv n, freqSpan := 1000000000 }) else s
    | none => s
  s1.onSync (fun y => { y with parentSeen := some (offset, s.core.ct), parentTicks := 0 })

/-- A time message arrives on a port, with the offset measured against its sender in ps, own minus sender's (R47, R50, R51). A parent that is no longer
LOCKED stays the parent while R47 finds no other. A LOCKED follower stays LOCKED whatever its offset. CT_OFFSET holds the offset modulo 2^32, and the 1 ms of R54 starts anew at a message
of the current parent that is LOCKED. DEDUCED, log entry 15; DESIGN CHOICE, log entries 98, 117. -/
def timeReceive (s : State) (p : Nat) (m : TimeMsg) (offset : Int) : State :=
  if !s.core.trained p then s
  else
    let s1 := s.onSync (fun y => { y with heard := sput y.heard p (m, s.core.up) })
    if s1.core.isRoot || m.hops == 0xFF then s1
    else
      let s2 := match s1.bestParent with | some q => s1.follow (some q) | none => s1
      if !s2.sync.following || s2.core.fld Reg.ctState 4 5 != p then s2
      else
        let s3 := (s2.on (fun c =>
          let c1 := (c.setReg Reg.ctOffset (ofSigned 32 offset)).setFld Reg.ctState 16 8 (min 0xFF (m.hops + 1))
          if c1.sync = 0 ∨ c1.sync = 3 then c1.setSync 1 else c1)).onSync
            (fun y => { y with parentAt := s.core.up, rootAt := if m.sync = 2 then s.core.up else y.rootAt,
                               rootSeen := y.rootSeen || m.sync == 2,
                               good := if offset.natAbs ≤ 1000 then y.good + 1 else 0 })
        let s4 := if s3.core.sync = 1 ∧ s3.sync.good ≥ 16 ∧ m.sync = 2 then s3.on (fun c => c.setSync 2) else s3
        (s4.followFreq offset).correct offset

/-- The parent is lost (R52): no message for 20 µs, or its port is down. The follower enters HOLDOVER, goes on at its last corrected frequency and chooses a new parent. CT_STATE.HOPS and
PARENT keep their last values meanwhile. DESIGN CHOICE, log entry 117. -/
def parentLoss (s : State) : State :=
  let p := s.core.fld Reg.ctState 4 5
  if s.core.isRoot || !s.sync.following || !(decide (s.core.up ≥ s.sync.parentAt + 20000) || !s.core.trained p) then s
  else
    let s1 := (s.on (fun c => c.setSync 3)).onSync (fun y => { y with following := false, good := 0, slew := 0, heard := sdel y.heard p })
    if s1.core.fld Reg.ctCfg 3 1 = 1 then s1.follow s1.bestParent else s1

/-- A port has finished training: while no root has been heard of since reset, R54 counts from here (R55). -/
def State.trainedTime (s : State) : State := if s.sync.rootSeen then s else s.onSync (fun y => { y with rootAt := s.core.up })

/-- Whether a port trains (R551): R54 does not apply before the last one has finished while no root has been heard of (R55). -/
def Core.anyTraining (c : Core) : Bool := (upto 32).any (fun p => c.portState p == 1)

/-- No root's message for 1 ms: the best backup becomes root (R54, R55). `others` are the priorities and nodes of the other backups it hears. -/
def rootLoss (s : State) (others : List (Nat × Nat)) : State :=
  let me := (s.core.fld Reg.ctCfg 12 4, s.core.node)
  if s.core.isRoot || !s.sync.rootSeen && s.core.anyTraining || s.core.role != 2 || decide (s.core.up < s.sync.rootAt + 1000000) || others.any (fun o => ranksBefore o me) then s
  else s.becomeRoot

/-- A root has heard of a root that ranks before it, on port `p` (R55). -/
def rootYield (s : State) (p : Nat) : State :=
  match sfind s.sync.heard p with
  | none => s
  | some e =>
    if s.core.isRoot && e.1.rootRole != 0 && e.1.hops != 0xFF && ranksBefore (e.1.rootRole, e.1.root) (s.core.role, s.core.node) then
      (s.becomeFollower).on (fun c => c.raise 4 5)
    else s

/-- REF_OK falls (R62, R750). -/
def Core.refFalls (c : Core) : Core :=
  if c.fld Reg.ctState 3 1 = 0 then c
  else
    let c1 := c.setBit Reg.ctState 3 false
    if c1.isRoot && c1.fld Reg.ctCfg 2 1 == 1 then c1.raise 4 4 else c1

/-- Load an armed cluster time (R56). DEDUCED, log entry 13. -/
def State.loadTime (s : State) : State :=
  match s.sync.setArmed with
  | none => s
  | some v =>
    if s.core.isRoot && !s.ctl.started then (s.setTime v).onSync (fun y => { y with setArmed := none })
    else s.onSync (fun y => { y with setArmed := none })

/-- The frequency of a disciplined root follows TREF_CLK (R46): `cycles` periods of 100 ns passed while its own clock counted `refTicks` ns; the difference is
made good evenly from here on. An interval whose clocks differ by more than 0.1% measures nothing. DEDUCED, log entry 14. -/
def State.disciplineFreq (s : State) (cycles : Nat) : State :=
  let err : Int := (cycles * 100 : Nat) - (s.sync.refTicks : Int)
  if s.core.isRoot && s.core.fld Reg.ctCfg 2 1 == 1 && decide (err.natAbs * 1000 ≤ s.sync.refTicks) then
    s.onSync (fun y => { y with freqErr := err, freqSpan := max 1 y.refTicks, freqAcc := 0 })
  else s

/-- A TREF_PPS rising edge, `cycles` TREF_CLK cycles after the one before; `clk` tells that TREF_CLK counts within its limits (R46, R56, R750). Half a second
from two multiples is steered up. DESIGN CHOICE, log entry 98. -/
def ppsEdge (s : State) (cycles : Nat) (clk : Bool) : State :=
  let ok := clk && decide (9999990 ≤ cycles) && decide (cycles ≤ 10000010)
  let s0 := if ok then s.disciplineFreq cycles else s
  let s1 := (s0.on (fun c => (c.setBit Reg.pinState 3 true).setBit Reg.pinState 2 clk)).onSync
    (fun y => { y with ppsGood := if ok then y.ppsGood + 1 else 0, ppsBad := if ok then 0 else y.ppsBad + 1, refTicks := 0 })
  let s2 := s1.on (fun c =>
    if !clk || decide (s1.sync.ppsBad ≥ 2) then c.refFalls
    else if s1.sync.ppsGood ≥ 2 then c.setBit Reg.ctState 3 true else c)
  if s2.core.isRoot && s2.core.fld Reg.ctCfg 2 1 == 1 then
    if s2.sync.setArmed.isSome then s2.loadTime
    else
      let near := (s2.core.ct + 500000000) / 1000000000 * 1000000000
      s2.onSync (fun y => { y with slew := (near : Int) - s2.core.ct })
  else s2

/-- TREF_CLK has been absent for 10 µs (R750). -/
def refClkLoss (s : State) : State := (s.on (fun c => (c.setBit Reg.pinState 2 false).refFalls)).onSync (fun y => { y with ppsGood := 0 })

/-- Two TREF_PPS edges in a row have not arrived (R750). -/
def ppsLoss (s : State) : State := (s.on (fun c => (c.setBit Reg.pinState 3 false).refFalls)).onSync (fun y => { y with ppsGood := 0, ppsBad := 2 })

/-- CT_SET_HI was written (R56): on a root with no strand started, the load is armed for the next TREF_PPS edge, or made at once. -/
def State.armTimeLoad (s : State) : State :=
  if s.core.isRoot && !s.ctl.started then
    let s1 := s.onSync (fun y => { y with setArmed := some (s.core.reg Reg.ctSetLo + s.core.reg Reg.ctSetHi * 2 ^ 32) })
    if s1.core.fld Reg.ctCfg 2 1 = 1 then s1 else s1.loadTime
  else s

/-- What one nanosecond of the device's own clock adds where the frequency follows TREF_CLK or a parent: 1, and 0 or 2 where the difference is due (R46). -/
def Sync.freqTick (y : Sync) : Int × Int :=
  if y.freqErr = 0 then (0, y.freqAcc)
  else
    let acc := y.freqAcc + y.freqErr
    if acc ≥ y.freqSpan then (1, acc - y.freqSpan) else if acc ≤ - (y.freqSpan : Int) then (-1, acc + y.freqSpan) else (0, acc)

/-- One nanosecond of the device's clock passes (R44, R46, R50). Cluster time counts 1, and 0 or 2 where a frequency difference or an offset is made good, at 1,000
ppm in ACQUIRE and 50 ppm otherwise; it stands still while an earlier time catches up, and at the end of its 64 bits. Timers count with it (R111). DEDUCED,
log entries 13, 14. -/
def State.tick (s : State) : State :=
  let every := if s.core.sync = 1 then 1000 else 20000
  let f := s.sync.freqTick
  let due := decide (s.sync.slewTick + 1 ≥ every) && f.1 == 0
  let adj : Nat := if s.sync.hold ≠ 0 then 0 else if due ∧ s.sync.slew > 0 ∨ f.1 = 1 then 2 else if due ∧ s.sync.slew < 0 ∨ f.1 = -1 then 0 else 1
  let slew := if !due then s.sync.slew else if s.sync.slew > 0 then s.sync.slew - 1 else if s.sync.slew < 0 then s.sync.slew + 1 else 0
  { s with core := { s.core with ct := if s.core.ct + adj < 2 ^ 64 then s.core.ct + adj else s.core.ct,
                                 up := s.core.up + if s.sync.hold ≠ 0 then 1 else adj },
           sync := { s.sync with slew := slew, slewTick := if due then 0 else s.sync.slewTick + 1, hold := s.sync.hold - 1, freqAcc := f.2,
                                 refTicks := s.sync.refTicks + 1, parentTicks := s.sync.parentTicks + 1 } }

end Sys2Proof.Machine
end

