-- ==== Sys2Proof/Machine/Train.lean ====
section
/-!
DEFINITION. Stash transfers (R423 to R431) and the random-number descriptors (R447 to R450).
-/
namespace Sys2Proof.Machine
open Sys2Proof

/-! ### Stash areas -/

/-- A 64-bit address held in a LO and HI register pair, LO aligned to 4 KiB; the HI register may hold other fields above `w` bits. -/
def Core.areaBase (c : Core) (lo hi w : Nat) : Nat := c.reg lo / 4096 * 4096 + field (c.reg hi) 0 w * 2 ^ 32

/-- Bytes of a local area of a given size that lie in the job's own device memory (R34, R425). -/
def Core.areaLimit (c : Core) (base size : Nat) : Nat :=
  match place base with
  | .dram => min size (dramEnd - base)
  | .erg q off => min size (c.top q - off)
  | _ => 0

/-- Size of the stash area of a target (R424, R425). -/
def Core.stashSize (c : Core) (target : Nat) : Nat :=
  match target with
  | 1 => if c.fld Reg.trnTwinSpare 16 1 = 1 then c.fld Reg.trnTwinSpare 0 16 * 2 ^ 24 else 0
  | 2 => c.reg Reg.trnHostSize * 2 ^ 20
  | _ => c.areaLimit (c.areaBase Reg.trnStashLo Reg.trnStashHi 16) (c.fld Reg.trnStashHi 16 16 * 2 ^ 24)

/-- TARGET; 3 acts as 0 (R423). -/
def Dx.stashTarget (x : Dx) : Nat := if x.f 24 0 2 = 3 then 0 else x.f 24 0 2

/-- LENGTH, LOCAL and OFFSET on their 128-byte alignment (R423). -/
def Dx.stashArgs (x : Dx) : Nat × Nat × Nat := (x.f 28 0 32 / 128 * 128, x.f 32 0 48 / 128 * 128, x.f 40 0 48 / 128 * 128)

/-- Bytes that move, and the effects of those beyond the area's end (R425, R431). -/
def Dx.stashDrop (x : Dx) (len off size : Nat) : Dx × Nat :=
  let n := min len (size - off)
  if n = len then (x, n)
  else
    let units := ceilDiv (len - n) 128
    ((x.dropMany units (off + n)).core (fun c => c.inc Reg.trnDrop units), n)

/-- Count moved bytes (R430). -/
def Dx.moved (x : Dx) (n : Nat) : Dx := if n = 0 then x else x.core (fun c => c.inc64 Reg.trnMovedLo n)

/-- The numbers of the poisoned 64 B pieces of a transfer whose pieces are given. -/
def poisonedPieces (base : Nat) (ps : List (Nat × List Byte × Bool)) : List Nat :=
  (ps.filter (fun p => p.2.2)).map (fun p => (p.1 - base) / 64)

/-- Write the bytes of a transfer at an address, its poisoned 64 B pieces poisoned (R428, R498). -/
def Dx.writeCarried (x : Dx) (a : Nat) (bs : List Byte) (poison : List Nat) : Dx :=
  x.writePieces 0 0 ((blockPieces a bs.length).map (fun r => (r.1, (bs.drop (r.1 - a)).take r.2, poison.contains ((r.1 - a) / 64))))

/-- A refused transfer with the host while Bus Master Enable is 0 (R684). -/
def Dx.noMaster (x : Dx) : Dx := (x.st 0x20).core (fun c => (c.setBit Reg.hostErr 1 true).raise 2 1)

/-- ACT_STASH (R423 to R429). `bme` and `mps` are Bus Master Enable and Max_Payload_Size. Answers whether it is complete. DEDUCED, log entry 51. -/
def actStash (x : Dx) (bme : Bool) (mps : Nat) : Dx × Bool :=
  let t := x.stashTarget
  let (len, loc, off) := x.stashArgs
  if t = 2 ∧ !bme then (x.noMaster, true)
  else if t = 1 ∧ x.c.pair = 3 then (x.st 0x50, true)
  else
    let (y, n) := x.stashDrop len off (x.c.stashSize t)
    if n = 0 then (y, true)
    else
      let (y, ps) := y.readPieces loc n
      match t with
      | 1 =>
        let y := y.send y.c.twin 14 (.stashRequest (.write (y.acc.strand.getD 0) off ((ps.map (fun p => p.2.1)).flatten) (poisonedPieces loc ps)))
        (y.core (fun c => { c with stash := c.stash ++ [{ strand := y.acc.strand.getD 0, fetch := false, target := 1, left := n }] }), false)
      | 2 =>
        let m := max 128 (min mps 512)
        let bs := (ps.map (fun p => p.2.1)).flatten
        let bad := poisonedPieces loc ps
        let bus := y.c.reg Reg.trnHostLo / 4096 * 4096 + y.c.reg Reg.trnHostHi * 2 ^ 32 + off
        -- a poisoned block travels in TLPs of its own
        let tlps := (upto (ceilDiv n m)).map (fun i => (i * m, min m (n - i * m)))
        let parts := (tlps.map (fun p =>
          if (upto (ceilDiv p.2 64)).any (fun j => bad.contains (p.1 / 64 + j)) then
            (upto (ceilDiv p.2 64)).map (fun j => (p.1 + 64 * j, min 64 (p.2 - 64 * j), bad.contains (p.1 / 64 + j)))
          else [(p.1, p.2, false)])).flatten
        let y := parts.foldl (fun y p => y.send 0 0 (.pcieWrite ((bus + p.1) % 2 ^ 64) ((bs.drop p.1).take p.2.1) p.2.2)) y
        (y.moved n, true)
      | _ =>
        let base := y.c.areaBase Reg.trnStashLo Reg.trnStashHi 16 + off
        ((y.writePieces 0 0 (ps.map (fun p => (base + (p.1 - loc), p.2)))).moved n, true)

/-- Bytes of one host read (R427, R684). -/
def hostReadBytes (mrrs : Nat) : Nat := max 128 (min mrrs 512)

/-- Issue host reads of a fetch while fewer than 512 are outstanding (R684). -/
def Dx.issueReads (x : Dx) (mrrs n count : Nat) (r : StashRun) : Dx × StashRun :=
  let m := hostReadBytes mrrs
  let off := x.stashArgs.2.2
  let bus := x.c.reg Reg.trnHostLo / 4096 * 4096 + x.c.reg Reg.trnHostHi * 2 ^ 32 + off
  (upto count).foldl (fun (p : Dx × StashRun) _ =>
    if p.2.next ≥ n then p
    else
      let l := min m (n - p.2.next)
      (p.1.send 0 0 (.pcieRead ((bus + p.2.next) % 2 ^ 64) l r.strand p.2.next), { p.2 with next := p.2.next + l })) (x, r)

/-- ACT_FETCH (R423 to R429). DEDUCED, log entry 51. -/
def actFetch (x : Dx) (bme : Bool) (mrrs : Nat) : Dx × Bool :=
  let t := x.stashTarget
  let (len, loc, off) := x.stashArgs
  if t = 2 ∧ !bme then (x.noMaster, true)
  else if t = 1 ∧ x.c.pair = 3 then (x.st 0x50, true)
  else
    let (y, n) := x.stashDrop len off (x.c.stashSize t)
    if n = 0 then (y, true)
    else
      let run : StashRun := { strand := y.acc.strand.getD 0, fetch := true, target := t, left := n }
      match t with
      | 1 =>
        let y := y.send y.c.twin 14 (.stashRequest (.read run.strand off n))
        (y.core (fun c => { c with stash := c.stash ++ [run] }), false)
      | 2 =>
        let (y, r) := y.issueReads mrrs n 512 run
        (y.core (fun c => { c with stash := c.stash ++ [r] }), false)
      | _ =>
        let base := y.c.areaBase Reg.trnStashLo Reg.trnStashHi 16 + off
        let (y, ps) := y.readPieces base n
        ((y.writePieces 0 0 (ps.map (fun p => (loc + (p.1 - base), p.2)))).moved n, true)

/-- The running transfer of a strand. -/
def Core.stash? (c : Core) (strand : Nat) : Option StashRun := c.stash.find? (fun r => r.strand == strand)

/-- Take `n` bytes off a transfer; its end removes it. -/
def Dx.stashStep (x : Dx) (r : StashRun) (n : Nat) : Dx × Bool :=
  let left := r.left - n
  if left = 0 then (x.core (fun c => { c with stash := c.stash.filter (fun t => t.strand != r.strand) }), true)
  else (x.core (fun c => { c with stash := c.stash.map (fun t => if t.strand == r.strand then { r with left := left } else t) }), false)

/-- STASH_ANSWER (R426): the twin's acknowledgement, or its data. -/
def stashAnswer (x : Dx) (a : StashAns) : Dx × Bool :=
  match x.c.stash? (x.acc.strand.getD 64) with
  | none => (x, false)
  | some r =>
    match a with
    | .ack _ n => if r.fetch then (x, false) else (x.moved (min n r.left)).stashStep r n
    | .data _ off bs poison =>
      if !r.fetch || r.target != 1 then (x, false)
      else
        let y := if poison.isEmpty then x else x.st 0x31
        ((y.writeCarried (x.stashArgs.2.1 + off) bs poison).moved bs.length).stashStep r bs.length

/-- HOST_READ_COMPLETION (R427): data, or poisoned blocks when it carries poison or an error. -/
def hostReadDone (x : Dx) (mrrs off : Nat) (bs : List Byte) (bad : Bool) : Dx × Bool :=
  match x.c.stash? (x.acc.strand.getD 64) with
  | none => (x, false)
  | some r =>
    if r.target ≠ 2 then (x, false)
    else
      let n := min x.stashArgs.1 (x.c.stashSize 2 - x.stashArgs.2.2)
      let a := x.stashArgs.2.1 + off
      let y := if bad then (x.st 0x31).core (fun c => c.raise 8 2) else x
      let y := (y.writeCarried a bs (if bad then upto (ceilDiv bs.length 64) else [])).moved bs.length
      let (y, r) := y.issueReads mrrs n 1 r
      y.stashStep r bs.length

/-- TWIN_STASH_TRANSFER (R426): the twin serves its partner's transfer in its own spare area. -/
def twinStash (x : Dx) (r : StashReq) : Dx :=
  let base := x.c.areaBase Reg.trnSpareLo Reg.trnSpareHi 16
  let size := x.c.areaLimit base (x.c.fld Reg.trnSpareHi 16 16 * 2 ^ 24)
  match r with
  | .write strand off bs poison =>
    let n := min bs.length (size - off)
    (x.writeCarried (base + off) (bs.take n) poison).send x.c.twin 14 (.stashAnswer (.ack strand bs.length))
  | .read strand off len =>
    let n := min len (size - off)
    let (y, ps) := x.readPieces (base + off) n
    y.send x.c.twin 14 (.stashAnswer (.data strand 0 ((ps.map (fun p => p.2.1)).flatten ++ leBytes (len - n) 0) (poisonedPieces (base + off) ps)))

/-- SPARE_ANNOUNCE (R430, R431): the size is kept, and valid while the pair is formed. DEDUCED, log entry 73. -/
def spareAnnounce (c : Core) (units : Nat) : Core :=
  let v := units % 65536 + if c.pair = 2 ∨ c.pair = 5 then 65536 else 0
  let c1 := { c.setReg Reg.trnTwinSpare v with job := { c.job with spareKnown := true } }
  if c.reg Reg.trnTwinSpare = v then c1 else c1.raise 8 1

/-! ### Random-number descriptors -/

/-- RNG_DERIVE (R448). -/
def rngDerive (x : Dx) (steps : Nat) : Dx := x.write (x.f 32 0 48 / 8 * 8) (leBytes 8 (x.mixKey steps))

/-- Element `i` of RNG_FILL before conversion (R449). -/
def rngElem (x : Dx) (i : Nat) : Fp :=
  let d := pk (x.f 40 0 64) (counter (x.f 56 0 16) (x.f 58 0 48 + i))
  let a := decodeBits 1 (x.f 48 0 32)
  let b := decodeBits 1 (x.f 52 0 32)
  if x.f 24 0 2 = 1 then
    let h : Int := ((field d 0 16 + field d 16 16 + field d 32 16 + field d 48 16 : Nat) : Int) - 131070
    let z := mul32 (mul32 (Fp.ofInt h) (.fin false 1 (-16))) (decodeBits 1 0x3FDDB3D7)
    add32 a (mul32 b z)
  else
    let u : Fp := .fin false (field d 40 24) (-24)
    add32 a (mul32 u (sub32 b a))

/-- RNG_FILL (R449). -/
def rngFill (x : Dx) : Dx :=
  let fcb := x.f 26 0 8
  let code := field fcb 3 3
  let d : Draws := { code := if code = 4 ∨ code = 5 then 0 else code, infEn := bit fcb 6 }
  x.outRow (field fcb 0 3) 1 d 0 (x.f 28 0 24) (x.f 32 0 48 / 32 * 32) 0 0 (rngElem x)

/-- Seed every lane and drain lane of a quarter (R446). -/
def seedQuarter (m : SMap Nat) (q key : Nat) : SMap Nat :=
  (upto 134).foldl (fun m u => (upto 32).foldl (fun m l => let k := laneKey q u l; setLane m k (kd key 0xFFFA k % 2 ^ 32)) m) m

/-- RNG_LANE_SEED (R450): it holds dispatch and first code-5 draws from its start, and seeds once no thread group is resident. -/
def rngLaneSeed (x : Dx) : Dx × Bool :=
  let q := x.acc.q
  let k := x.acc.strand.getD 64
  if x.c.residentGroups q = 0 then
    ({ x with lfsr := seedQuarter x.lfsr q (x.f 40 0 64), c := { x.c with laneSeed := x.c.laneSeed.filter (fun h => h.2 != k) } }, true)
  else (if x.c.laneSeed.any (fun h => h.2 == k) then x else x.core (fun c => { c with laneSeed := c.laneSeed ++ [(q, k)] }), false)

end Sys2Proof.Machine
end

