-- ==== Sys2Proof/Machine/RegFile.lean ====
section
/-!
DEFINITION. Reads and writes of register space (R12 to R14, R105 to R109, R677, R759 to R768): the page header, registers behind a selector, computed values,
latched high halves, and the effects that a write has beside its value.
-/
namespace Sys2Proof.Machine
open Sys2Proof

/-! ### Places -/

/-- The INT_STATUS bits that a block defines, those of Q0 alone included. -/
def blockInts (b : Nat) : Nat :=
  match b with
  | 0x00 => 0x3 | 0x01 => 0x7 | 0x02 => 0x7 | 0x03 => 0x3 | 0x04 => 0x3F | 0x05 => 0x3F | 0x06 => 0x1F | 0x07 => 0x1FF | 0x08 => 0x7
  | 0x10 => 0x7 | 0x11 => 0x1F | 0x12 => 0x7 | 0x13 => 0x3F | 0x14 => 0x1F | 0x15 => 0x7 | 0x16 => 0x1F | 0x17 => 0x7F | 0x18 => 0x3F | 0x19 => 0xF
  | _ => 0

/-- The INT_STATUS bits of a page: RETIRE and REPAIR_FAIL of the ECC block exist in Q0 only (R518). -/
def intBits (page : Nat) : Nat :=
  match pageBlock page with
  | some (b, q) => blockInts b &&& (if b = 0x17 ∧ q ≠ 0 then 0x37 else 0xFFFFFFFF)
  | none => 0

/-- The key of the register that an access to an offset reaches: its instance behind a selector (R486, R517, R555, R637, R693), or itself. -/
def Core.regKey (c : Core) (off : Nat) : Nat :=
  let o := off % 4096
  match pageBlock (off / 4096) with
  | some (0x16, q) => if 0x64 ≤ o ∧ o ≤ 0xA0 then bankKey (c.fld (Reg.memChSel q) 0 6) off else off
  | some (0x17, q) => if 0x54 ≤ o ∧ o ≤ 0x70 then bankKey (min 64 (c.fld (Reg.eccSel q) 0 7)) off else off
  | some (0x18, q) => if 0x64 ≤ o then bankKey (c.fld (Reg.seifPortSel q) 0 3) off else off
  | some (0x02, _) =>
    if o = 0x54 then bankKey (c.fld Reg.hostIrqSel 0 14) off
    else if o = 0x64 ∨ o = 0x68 then bankKey (c.fld Reg.hostWatchSel 0 3) off else off
  | some (0x07, _) => if o = 0x7C ∨ o = 0x80 then bankKey (c.fld Reg.twinRangeSel 0 6) off else off
  | _ => off

/-- Host page offsets that hold the MSI-X table, the pending bits and the report window (R693). -/
def isHostTable (off : Nat) : Bool :=
  decide (0x2400 ≤ off) && decide (off < 0x2808) || decide (0x2C00 ≤ off) && decide (off < 0x3000)

/-- Whether an offset names a register (R761): in the header, or one its block's chapter defines. -/
def regDefined (off : Nat) : Bool :=
  (pageBlock (off / 4096)).isSome && (decide (off % 4096 < 0x30) || (strandReg? off).isSome || isHostTable off || (regDef? off).isSome)

/-! ### Reading -/

/-- The level a GPIO is driven to, if it is driven (R747). DEDUCED, log entry 92. -/
def State.gpioDrive (s : State) (i : Nat) : Option Bool :=
  let c := s.core
  if !s.live then none
  else match c.fld Reg.pinGpioFunc (2 * i) 2 with
    | 0 => if c.fld Reg.pinGpioDir i 1 = 1 then some (c.fld Reg.pinGpioOut i 1 == 1) else none
    | 1 => some true
    | 2 => some s.mgmt.pulseEnd.isSome
    | _ => some (c.jobState == 3 || c.jobState == 4 || c.pair == 3)

/-- The value of a header register (R762). -/
def State.readHeader (s : State) (page b q o : Nat) : Nat :=
  let c := s.core
  match o with
  | 0x08 | 0x18 => 0
  | 0x0C =>
    let ready : Bool := if b ≤ 2 ∨ b = 6 then decide (c.fld Reg.bootStatus 0 4 ≥ 3) && decide (c.fld Reg.bootStatus 0 4 ≤ 11) else c.fld Reg.bootStatus 0 4 == 11
    b2n (ready && !s.mgmt.held) + 2 * b2n (s.mgmt.locks.contains page) + 4 * b2n (hasRwl b q) + 8 * b2n (hasRws b) + 16 * b2n (isStepBlock b)
      + 32 * b2n (isJobBlock b)
  | 0x1C => b2n (s.mgmt.locks.contains page)
  | 0x20 => let v := c.reg (page * 4096 + 0x20); (v &&& 0x3F23) + 16 * b2n (v % 4 != 0)
  | _ => if o < 0x30 then c.reg (page * 4096 + o) else 0

/-- The value of a strand register (R90). -/
def State.readStrand (s : State) (k r : Nat) : Nat :=
  let t := s.strand k
  match r with
  | 0x00 => s.core.reg (strandKey k 0) &&& 0x38
  | 0x08 => t.state + t.lastErr * 256 + t.haltReason * 65536
  | 0x0C => t.pc
  | 0x14 => (s.core.reg (strandKey k 0x14) &&& 0x1F) + t.wraps * 65536
  | 0x18 => t.head
  | 0x1C => t.steps
  | _ => s.core.reg (strandKey k r)

/-- Duration of throttle reason `i` in µs (R668). -/
def State.reasonUs (s : State) (i : Nat) : Nat := nth 0 s.reasonNs i / 1000

/-- A block register whose value is computed from the state; none where the word stands in the register file. DEDUCED, log entry 75. -/
def State.computed (s : State) (off key : Nat) : Option Nat :=
  let c := s.core
  let o := off % 4096
  if off = Reg.ctNowLo then some (c.ct % 2 ^ 32)
  else if off = Reg.cpEventValue then some (s.event (c.fld Reg.cpEventSel 0 12))
  else if off = Reg.hostId then some (s.mgmt.fuses.vendor + 0x9648 * 65536)
  else if off = Reg.secState then
    some ((c.reg off &&& 0x7F0018) + min 3 s.mgmt.fuses.lifecycle + s.mgmt.fuses.svnMin * 256)
  else if off = Reg.secKeys then some (s.mgmt.fuses.programmed.toNat + s.mgmt.fuses.revoked.toNat * 256)
  else if off = Reg.secPart then some s.mgmt.fuses.part
  else if off = Reg.secSerialLo then some (s.mgmt.fuses.serial % 2 ^ 32)
  else if off = Reg.secSerialHi then some (s.mgmt.fuses.serial / 2 ^ 32)
  else if off = Reg.twinState then some ((c.reg off &&& 0xF) + c.queued * 65536)
  else if off = Reg.twinJrnlUsed then some (ceilDiv c.journal 65536)
  else if off = Reg.twinFill then some (match c.job.fill with | some f => (f.acked + f.got) / 1024 % 2 ^ 23 | none => 0)
  else if off = Reg.pinGpioIn then some ((upto 8).foldl (fun a i => a + 2 ^ i * b2n (s.gpioDrive i == some true)) 0)
  else if off = Reg.pinLaserPwr then
    let i := c.fld off 0 3
    some (c.fld off 0 6 + 65536 * (if (c.reg Reg.pinLaser).testBit i then Config.analogue (off + c.up / 10 ^ 6) (c.fld off 0 6) % 65536 else 0x8000))
  else match (upto 5).find? (fun i => off == Reg.pwrThrCapLo + 8 * i) with
    | some i => some (s.reasonUs i % 2 ^ 32)
    | none =>
      match pageBlock (off / 4096) with
      | some (0x14, q) => if o = 0x58 then some (c.residentGroups q) else none
      | some (0x15, q) =>
        if o = 0x48 then
          let l := nth {} c.layouts q
          some (c.top q / 2 ^ 20 + l.cache * 65536 + 2 ^ 31 * b2n (c.layoutDue.contains q))
        else if o = 0x4C then some (c.pinned q / 65536 % 65536 + c.fld key 16 16 * 65536)
        else none
      | some (0x16, q) => if o = 0x4C ∧ q = 0 then some (b2n c.ilvBusy) else none
      | some (0x17, q) =>
        let u := min 64 (c.fld (Reg.eccSel q) 0 7)
        if o = 0x70 then some (if u = 64 then 0 else c.spares (q * 64 + u))
        else if o = 0x74 then some ((c.merge.filter (fun e => e.quarter == q)).length + c.fld key 16 16 * 65536)
        else none
      | some (0x18, q) =>
        if o = 0x70 then
          let p := 4 * c.fld (Reg.seifPortSel q) 0 3 + q
          let k := c.fld key 0 4 * 2 + c.fld key 4 1
          some (c.fld key 0 5 + sget 256 (c.port p).allot k * 65536)
        else none
      | some (0x19, q) =>
        if o = 0x50 then some (c.fld key 0 16 + collOlder c q % 65536 * 65536)
        else if o = 0x54 then some (collOpenCount c q)
        else none
      | _ => none

/-- The value behind an offset, without the effects of a read. A _HI register reads what its reader's last read of the _LO register latched (R767):
0 when nothing is latched. DEDUCED, log entry 81. -/
def State.peek (s : State) (reader off : Nat) : Nat :=
  match pageBlock (off / 4096) with
  | none => 0
  | some (b, q) =>
    let o := off % 4096
    if o < 0x40 then s.readHeader (off / 4096) b q o
    else match strandReg? off with
      | some (k, r) => s.readStrand k r
      | none =>
        if isHostTable off then s.core.reg off
        else match regDef? off with
          | none => 0
          | some d =>
            let key := s.core.regKey off
            if d.hi then sget 0 s.core.latch (reader * 2 ^ 44 + key)
            else match s.computed off key with
              | some v => v % 2 ^ 32
              | none => s.core.reg key

/-- The high half behind a _HI register now. -/
def State.highHalf (s : State) (off : Nat) : Nat :=
  if off = Reg.ctNowHi then s.core.ct / 2 ^ 32 % 2 ^ 32
  else match (upto 5).find? (fun i => off == Reg.pwrThrCapHi + 8 * i) with
    | some i => s.reasonUs i / 2 ^ 32 % 2 ^ 32
    | none => s.core.reg (s.core.regKey off)

/-- A read of a register word: its value, and the latch that a _LO register fills for its reader (R767). DEDUCED, log entry 81. -/
def State.readWord (s : State) (reader off : Nat) : State × Nat :=
  let v := s.peek reader off
  match regDef? (off + 4) with
  | some d =>
    if d.hi && (regDef? off).isSome then
      (s.on (fun c => { c with latch := sset 0 c.latch (reader * 2 ^ 44 + c.regKey (off + 4)) (s.highHalf (off + 4)) }), v)
    else (s, v)
  | none => (s, v)

/-! ### Writing -/

/-- CLR_COUNTS of a page (R763): saturating and 64-bit counts, held latches and ERR_COUNT, at one clock. -/
def State.clrCounts (s : State) (page : Nat) : State :=
  match pageBlock page with
  | none => s
  | some (b, q) =>
    let ds := (blockRegs b).filter (fun d => d.cnt != 0 && (!d.q0 || q == 0))
    let inPage (key : Nat) : Bool := key % 2 ^ 26 / 4096 == page && decide (key < 2 ^ 41)
    -- every instance behind a selector that holds a value
    let keys := (s.core.regs.map (·.1)).filter inPage
    let s1 := s.on (fun c =>
      let c1 := keys.foldl (fun (d : Core) key =>
        match ds.find? (fun r => r.off == key % 4096) with
        | some r => d.setReg key (d.reg key &&& (0xFFFFFFFF - r.cnt))
        | none => d) c
      { c1.setReg (page * 4096 + 0x2C) 0 with latch := c1.latch.filter (fun e => !inPage (e.1 % 2 ^ 44)) })
    let s2 := if page = 6 then s1.onPwr (fun p => { p with reasonNs := List.replicate 5 0, reasonAt := s1.core.up }) else s1
    if page = 5 then { s2 with ctl := { s2.ctl with strands := s2.ctl.strands.map (fun t => { t with wraps := 0 }) } } else s2

/-- A write of SHADOW_CTRL (R108): DISARM first, then ARM_TIME and ARM_DESC, then SWAP_NOW. -/
def State.shadowWrite (s : State) (page v : Nat) : State :=
  let k := page * 4096 + 0x20
  let s1 := s.on (fun c => let c1 := c.setFld k 8 6 (field v 8 6); if bit v 5 then c1.setBit k 5 false else c1)
  let s2 := if bit v 3 then s1.disarm page else s1
  let s3 := if bit v 1 then s2.on (fun c => c.setBit k 1 true) else s2
  let s4 :=
    if bit v 0 then
      let t := s3.core.reg (page * 4096 + 0x24) + s3.core.reg (page * 4096 + 0x28) * 2 ^ 32
      if t < s3.core.ct then (s3.fireSwap page).on (fun c => (c.setBit k 5 true).lateEvent)
      else { s3.on (fun c => c.setBit k 0 true) with ctl := { s3.ctl with armTime := sput s3.ctl.armTime page t } }
    else s3
  if bit v 2 then s4.on (fun c => c.swapPage page) else s4

/-- A write of a header register (R762). DEDUCED, log entry 80. -/
def State.writeHeader (s : State) (page o v : Nat) : State :=
  let k := page * 4096 + o
  match o with
  | 0x08 => if bit v 0 then s.clrCounts page else s
  | 0x10 => s.on (fun c => c.setReg k (c.reg k &&& (0xFFFFFFFF - v)))
  | 0x14 => s.on (fun c => c.setReg k (v &&& intBits page))
  | 0x18 => s.on (fun c => c.setReg (page * 4096 + 0x10) (c.reg (page * 4096 + 0x10) ||| (v &&& intBits page)))
  | 0x1C => if bit v 0 then { s with mgmt := { s.mgmt with locks := insN s.mgmt.locks page } } else s
  | 0x20 => s.shadowWrite page v
  | 0x24 | 0x28 => s.on (fun c => c.setReg k v)
  | _ => s

/-- A write of a strand register (R85, R88, R90): the bits of one write of CP_STRAND_CTRL act against the strand's state before it. -/
def State.writeStrand (s : State) (k r v : Nat) : State :=
  match r with
  | 0x00 =>
    let busy := (s.strand k).active
    let s1 := s.on (fun c => let c1 := c.setFld (strandKey k 0) 3 1 (field v 3 1); if busy then c1 else c1.setFld (strandKey k 0) 4 2 (field v 4 2))
    if !busy then (if bit v 0 then s1.startStrand k (s1.core.fld (strandKey k 4) 0 18) false else s1)
    else if bit v 2 then s1.cancelStrand k 3
    else if bit v 1 then s1.setStrand k (fun t => { t with stopping := true })
    else s1
  | 0x04 => s.on (fun c => c.setReg (strandKey k 4) (field v 0 18))
  | 0x10 => s.on (fun c => c.setReg (strandKey k 0x10) (v &&& 0x7FFFFFC0))
  | 0x14 => s.on (fun c => c.setReg (strandKey k 0x14) (field v 0 5))
  | _ => s

/-- A write into the MSI-X table; unmasking sends what is pending (R686, R693). -/
def State.writeTable (s : State) (off v : Nat) : State :=
  if off < 0x2800 then
    let w := off % 16
    (s.on (fun c => c.setReg off (if w = 12 then v % 2 else if w = 0 then v / 4 * 4 else v))).deliverPending
  else s

/-- The fields of a block register take a write by their access types (R12, R14). -/
def State.writeFields (s : State) (page off : Nat) (d : RegDef) (v : Nat) : State :=
  let key := s.core.regKey off
  let rw := d.rw ||| (if s.mgmt.locks.contains page then 0 else d.rwl)
  s.on (fun c =>
    let old := c.reg key
    let new := ((old &&& (0xFFFFFFFF - rw)) ||| (v &&& rw)) &&& (0xFFFFFFFF - (v &&& d.w1c))
    let c1 := c.setReg key new
    if d.rws = 0 then c1
    else if v &&& d.rws = resetWord key &&& d.rws then { c1 with regs := sdel c1.regs (shadowKey off) }
    else { c1 with regs := sput c1.regs (shadowKey off) (v &&& d.rws) })

/-- The announcement of this device's spare area to the twin (R431). -/
def Core.announceSpare (c : Core) : Core :=
  { c with out := c.out ++ [{ dst := c.twin, wadi := 14, body := .spareAnnounce (c.fld Reg.trnSpareHi 16 16) }] }

/-- The effect of a write beside the value of its fields, on a device page; `old` is the word before it. -/
def State.devEffect (s : State) (off v old : Nat) : State :=
  if off = Reg.ctCfg then s.roleWritten (if old % 4 = 3 then 0 else old % 4)
  else if off = Reg.ctSetHi then s.armTimeLoad
  else if off = Reg.pwrRamp then s.rebudget old
  else if off = Reg.cpEventValue then s.setEvent (s.core.fld Reg.cpEventSel 0 12) v
  else if off = Reg.cpEventAdd then s.addEvent (s.core.fld Reg.cpEventSel 0 12) v
  else if off = Reg.cpTxnStage then s.on (fun c => { c with layoutDue := upto 4 })
  else if off = Reg.trnSpareLo ∨ off = Reg.trnSpareHi then s.on Core.announceSpare
  else if off = Reg.hostIrqEoiLo then s.eoi false v
  else if off = Reg.hostIrqEoiHi then s.eoi true v
  else if off = Reg.hostReset then
    let s1 := s.on (fun c => c.setReg off 0)
    if bit v 0 ∧ field v 8 8 = 0x5A then { s1 with mgmt := { s1.mgmt with warmDue := true } } else s1
  else if off = Reg.hostAttestCtrl then
    if bit v 0 ∧ s.core.fld off 1 1 = 0 then
      { s.on (fun c => c.setBit off 1 true) with mgmt := { s.mgmt with attestAt := some s.core.up } }
    else s
  else if off = Reg.secOwnerProg then
    if bit v 5 ∧ s.mgmt.ownerAt.isNone then { s with mgmt := { s.mgmt with ownerAt := some s.core.up } } else s
  else if off = Reg.twinCtrl then
    s.onJob (fun j => { j with formDue := j.formDue || bit v 0, detach := j.detach || bit v 1, attachDue := j.attachDue || bit v 2,
                               resignDue := j.resignDue || bit v 3 })
  else if off = Reg.jobCfg ∨ off = Reg.jobLeader then s
  else s

/-- The MC writes the EMB_BAL or EMB_MIG_MAX that it reads from Q0 to the other quarters (R339). DEDUCED, log entry 43. -/
def copyBalance (c : Core) (o : Nat) : Core := [1, 2, 3].foldl (fun (d : Core) q => d.setReg (qpage q 3 * 4096 + o) (c.reg (qpage 0 3 * 4096 + o))) c

/-- The effect of a write beside the value of its fields, on a quarter's page. -/
def State.quarterEffect (s : State) (b q o v old : Nat) : State :=
  if b = 0x13 ∧ q = 0 ∧ (o = 0x64 ∨ o = 0x68) then s.on (fun c => copyBalance c o)
  else if b = 0x15 ∧ o = 0x40 ∨ b = 0x13 ∧ o = 0x50 then s.on (fun c => { c with layoutDue := insN c.layoutDue q })
  else if b = 0x16 ∧ o = 0x6C then (if bit v 0 then s.on (fun c => retrainReq c q) else s)
  else if b = 0x16 ∧ o = 0x80 then
    let s1 := if bit v 0 then s.on (fun c => tgStart c q) else s
    let s2 := if bit v 1 then s1.on (fun c => tgAll c q) else s1
    if bit v 2 then s2.on (fun c => tgStop c q) else s2
  else if b = 0x19 ∧ o = 0x40 then
    -- RESERVE takes effect when no collective is open (R593)
    s.on (fun c => if c.coll.runs.any (fun r => r.quarter == q) && (sfind c.coll.lanes q).isNone then { c with coll := { c.coll with lanes := sput c.coll.lanes q (field old 0 6) } } else c)
  else if b = 0x17 ∧ o = 0x44 then (if field v 16 16 ≠ field old 16 16 then s.on (fun c => c.restartLeak q) else s)
  else if b = 0x18 ∧ o = 0x50 then s.on (fun c => c.applySpares old)
  else if b = 0x18 ∧ o = 0x64 then
    let p := 4 * s.core.fld (Reg.seifPortSel q) 0 3 + q
    let s1 := s.on (fun c => c.enablePort p (bit old 0))
    if bit v 1 then s1.on (fun c => c.retrainPort p) else s1
  else s

/-- A write of one register word that is accepted (R12, R766): undefined offsets drop it (R761). -/
def State.writeWord (s : State) (off v0 : Nat) : State :=
  let v := v0 % 2 ^ 32
  let page := off / 4096
  match pageBlock page with
  | none => s
  | some (b, q) =>
    let o := off % 4096
    if o < 0x40 then s.writeHeader page o v
    else match strandReg? off with
      | some (k, r) => s.writeStrand k r v
      | none =>
        if isHostTable off then s.writeTable off v
        else match regDef? off with
          | none => s
          | some d =>
            if d.q0 && q != 0 then s
            else if b = 0x18 ∧ o = 0x70 then s.on (fun c => seifCredit c q v)
            else
              let old := s.core.reg (s.core.regKey off)
              let s1 := s.writeFields page off d v
              if page < 9 then s1.devEffect off v old else s1.quarterEffect b q o v old

/-! ### Writers -/

/-- Whether STORE_IMM may write an offset (R81, R765): on a Step page, the block registers, SHADOW_CTRL and the shadow times. -/
def stepMayWrite (off : Nat) : Bool :=
  match pageBlock (off / 4096) with
  | none => false
  | some (b, _) =>
    let o := off % 4096
    isStepBlock b && regDefined off && (decide (0x40 ≤ o) || o == 0x20 || o == 0x24 || o == 0x28)

/-- Count a dropped write to a mapped page in its ERR_COUNT (R762). -/
def Core.dropWrite (c : Core) (page : Nat) : Core := if (pageBlock page).isSome then c.incFld (page * 4096 + 0x2C) 0 16 1 else c

/-- A host write of a BAR 0 word (R677, R699): before READY only the boot, security and host pages take writes. A write that does not cover the
word, or one with EP set, is dropped. DEDUCED, log entry 80. -/
def State.hostWrite (s : State) (off v enables : Nat) : State :=
  if !s.live && !(off / 4096 ≤ 2 && s.awake) then s
  else if enables % 16 ≠ 15 then s.on (fun c => (c.hostError 0).dropWrite (off / 4096))
  else s.writeWord (off % 2 ^ 26 / 4 * 4) v

/-- A host read of a BAR 0 word (R677, R699). -/
def State.hostRead (s : State) (off : Nat) : State × Nat :=
  if !s.live && !(off / 4096 ≤ 2 && s.awake) then (s, 0) else s.readWord 0 (off % 2 ^ 26 / 4 * 4)

end Sys2Proof.Machine
end

