-- ==== Sys2Proof/Machine/Sparse.lean ====
section
/-!
DEFINITION. Sparse operands (R219 to R262): storage forms, SPMM, MATMUL_S28, SP_CONVERT, and the MC's threshold and margin policies.
-/
namespace Sys2Proof.Machine
open Sys2Proof

/-- An operand record (R226). -/
structure OpRec where
  form : Nat
  fmt : Nat
  count : Nat
  a0 : Nat
  a1 : Nat
  a2 : Nat
deriving DecidableEq, Repr

/-- Read the operand record at an Erg offset (R226, R227). -/
def opRec (x : Dx) (off : Nat) : OpRec :=
  let a := x.erg (off / 32 * 32)
  let b := x.at a 1
  let form := field b 0 3
  { form := if form ≥ 5 then 0 else form, fmt := (let f := field b 3 3; if f = 0 ∨ f = 2 ∨ f = 7 then 3 else f),
    count := x.at (a + 4) 4, a0 := x.at (a + 8) 6, a1 := x.at (a + 16) 6, a2 := x.at (a + 24) 6 }

/-- What a row of a sparse operand holds: occupied elements by column with their values, dropped positions, and whether the row meets a misuse
case (R222, R225). -/
structure SpRow where
  els : List (Nat × Fp) := []
  drops : List Nat := []
  misuse : Bool := false
deriving DecidableEq, Repr

/-- Positions of set bits below `n`. -/
def bitsSet (n v : Nat) : List Nat := (upto n).filter (fun i => v.testBit i)

/-- A strictly ascending list. -/
def ascending : List Nat → Bool
  | a :: b :: t => decide (a < b) && ascending (b :: t)
  | _ => true

/-- Row `m` of an operand with `n` elements a row (R221 to R225). DESIGN CHOICE, log entry 35. -/
def spRow (x : Dx) (r : OpRec) (n m : Nat) : SpRow :=
  let sz := elemBytes r.fmt
  let val (a : Nat) : Fp := decodeBits r.fmt (x.at a sz)
  match r.form with
  | 1 =>
    let parts := (upto (ceilDiv n 512)).map (fun b =>
      let a := r.a0 + (m * ceilDiv n 512 + b) * hStride sz
      let gs := bitsSet 16 (x.at a 2)
      let ws := gs.mapIdx (fun i g => (g, x.at (a + 4 + 4 * i) 4))
      let ks := (ws.map (fun gw => (bitsSet 32 gw.2).map (fun j => 512 * b + 32 * gw.1 + j))).flatten
      let els := ks.mapIdx (fun i k => (k, val (a + 4 + 4 * gs.length + i * sz)))
      (els.filter (fun e => decide (e.1 < n)), ws.any (fun gw => gw.2 == 0)))
    { els := (parts.map (·.1)).flatten, misuse := parts.any (·.2) }
  | 2 =>
    let g64 := ceilDiv n 64
    let parts := (upto g64).map (fun g =>
      let bits := x.at (r.a0 + 8 * (m * g64 + g)) 8
      let off := x.at (r.a1 + 4 * (m * g64 + g)) 4
      ((bitsSet 64 bits).mapIdx (fun j b => (64 * g + b, off + j))).filter (fun p => decide (p.1 < n)))
    let all := parts.flatten
    { els := (all.filter (fun p => decide (p.2 < r.count))).map (fun p => (p.1, val (r.a2 + p.2 * sz))),
      drops := (all.filter (fun p => decide (r.count ≤ p.2))).map (fun p => m * n + p.1) }
  | 3 =>
    let lo := x.at (r.a0 + 4 * m) 4
    let hi := x.at (r.a0 + 4 * m + 4) 4
    let es := (upto (hi - lo)).map (fun i => let e := lo + i; (e, x.at (r.a1 + 4 * e) 4 % 2 ^ 24))
    let good := es.filter (fun p => decide (p.1 < r.count) && decide (p.2 < n))
    { els := good.map (fun p => (p.2, if r.a2 = 0 then fp1 else val (r.a2 + p.1 * sz))),
      drops := (es.filter (fun p => !(decide (p.1 < r.count) && decide (p.2 < n)))).map (·.1),
      misuse := !ascending ((es.filter (fun p => decide (p.1 < r.count))).map (·.2)) }
  | 4 => { els := (upto n).map (fun k => (k, decodeBits 1 (Config.freeValue (x.c.free + m * n + k)))) }
  | _ => { els := (upto n).map (fun k => (k, val (r.a0 + m * r.count + k * sz))) }

/-- The parts of a form H record that are read: summary, group bitmaps, and the values of elements below `n` (R221). -/
def hParts (x : Dx) (r : OpRec) (n m b : Nat) : List (Nat × Nat) :=
  let sz := elemBytes r.fmt
  let a := r.a0 + (m * ceilDiv n 512 + b) * hStride sz
  let gs := bitsSet 16 (x.at a 2)
  let ones := gs.mapIdx (fun i g => ((bitsSet 32 (x.at (a + 4 + 4 * i) 4)).filter (fun j => decide (512 * b + 32 * g + j < n))).length)
  [(a, 2), (a + 4, 4 * gs.length), (a + 4 + 4 * gs.length, ones.foldl (· + ·) 0 * sz)]

/-- The ranges that reading rows `m0` to `m1 - 1` of an operand touches. -/
def spRegions (x : Dx) (r : OpRec) (n m0 m1 : Nat) : List (Nat × Nat) :=
  let sz := elemBytes r.fmt
  match r.form with
  | 1 => ((upto (m1 - m0)).map (fun i => ((upto (ceilDiv n 512)).map (hParts x r n (m0 + i))).flatten)).flatten
  | 2 => [(r.a0 + 8 * m0 * ceilDiv n 64, 8 * (m1 - m0) * ceilDiv n 64), (r.a1 + 4 * m0 * ceilDiv n 64, 4 * (m1 - m0) * ceilDiv n 64)]
    ++ (upto ((m1 - m0) * ceilDiv n 64)).map (fun i =>
      let g := m0 * ceilDiv n 64 + i
      let off := x.at (r.a1 + 4 * g) 4
      let cnt := ((bitsSet 64 (x.at (r.a0 + 8 * g) 8)).filter (fun j => decide (64 * (g % ceilDiv n 64) + j < n))).length
      (r.a2 + off * sz, (min (off + cnt) r.count - off) * sz))
  | 3 =>
    let lo := x.at (r.a0 + 4 * m0) 4
    let hi := min (x.at (r.a0 + 4 * m1) 4) r.count
    [(r.a0 + 4 * m0, 4 * (m1 - m0 + 1)), (r.a1 + 4 * lo, 4 * (hi - lo))] ++ (if r.a2 = 0 then [] else [(r.a2 + lo * sz, (hi - lo) * sz)])
  | 4 => []
  | _ => (upto (m1 - m0)).map (fun i => (r.a0 + (m0 + i) * r.count, n * sz))

/-- Entries an operand names in a segment (R233). -/
def entriesNamed (x : Dx) (r : OpRec) (n m0 m1 : Nat) : Nat :=
  match r.form with
  | 3 => x.at (r.a0 + 4 * m1) 4 - x.at (r.a0 + 4 * m0) 4
  | _ => ((upto (m1 - m0)).map (fun i => let s := spRow x r n (m0 + i); s.els.length + s.drops.length)).foldl (· + ·) 0

/-- The B row list (R231): rows present, and dropped entry numbers; none when every row is present. A list that is not ascending names the same rows as a sorted
one. DESIGN CHOICE, log entry 101. -/
def bRows (x : Dx) (off k : Nat) : Option (List Nat × List Nat) :=
  if off = 0 then none
  else
    let a := x.erg off
    let es := (upto (x.at a 4)).map (fun i => (i, x.at (a + 4 + 4 * i) 4 % 2 ^ 24))
    some ((es.filter (fun p => decide (p.2 < k))).map (·.2), (es.filter (fun p => decide (k ≤ p.2))).map (·.1))

/-- Overwrite the outputs a product would write with bytes nothing constrains, on the rows that `bad` names (R37, R222, R225). DESIGN CHOICE, log entry 31. -/
def scrambleRows (x : Dx) (e : Epi) (rows n : Nat) (bad : Nat → Bool) : Dx :=
  let act := if (e.act = 10 ∨ e.act = 11) ∧ ¬ n ≤ 512 then 0 else e.act
  let y := (upto rows).foldl (fun y m =>
    if !bad m then y
    else if e.bitmap then y.scramble (e.cAddr + m * ceilDiv n 512 * hStride (elemBytes e.fmt)) (ceilDiv n 512 * hStride (elemBytes e.fmt))
    else y.scramble (e.cAddr + m * e.cPitch n) (rowBytes e.fmt n)) x
  if e.keep ≠ 0 ∧ (keepsBits act || keepsValues act) then
    (upto rows).foldl (fun y m => if bad m then y.scramble (e.keep + 64 + m * keepPitch act n) (keepPitch act n) else y) y
  else y

/-- The slots of reduction index `k` in N block `nt` of the WS stationary layout, and their exponents for B8 (R157, R158): what a read of B's row touches. -/
def bSlab (o : Operand) (kt n nt k : Nat) : List (Nat × Nat) :=
  let s := statSlot o.p 512 512 kt (512 * nt) k
  let w := min 512 (n - 512 * nt)
  (o.base + s * o.sigma, w * o.sigma) :: (if o.fmt = 7 then [(o.base + o.plane + s, w)] else [])

/-- The SME reads B's row slab through its row cache of 1,024 slabs, replaced least recently used (R239). -/
def readSlab (x : Dx) (o : Operand) (kt n nt k : Nat) : Dx :=
  let q := x.acc.q
  let held := sget [] x.c.rowCache q
  let a := o.base + statSlot o.p 512 512 kt (512 * nt) k * o.sigma
  let y := if held.contains a then x else x.touchAll (bSlab o kt n nt k)
  y.core (fun c => { c with rowCache := sput c.rowCache q ((a :: held.filter (· != a)).take 1024) })

/-- What SPMM reads of B (R231, R239): on the array path the slots of the rows that are present, or the whole layout without a list; on the SME path the row slab of
each match, by N block, segment, row and index. The row cache holds nothing from another descriptor. DESIGN CHOICE, log entry 104. -/
def readB (x : Dx) (o : Operand) (kt n : Nat) (bl : Option (List Nat)) (arr sme : List Nat) (matched : Nat → List Nat) (rowsOf : Nat → List Nat) : Dx :=
  let nbs := upto (ceilDiv n 512)
  let x1 := if arr.isEmpty then x else match bl with
    | none => x.touch o.base o.size
    | some l => nbs.foldl (fun y nt => (distinct l).foldl (fun y k => y.touchAll (bSlab o kt n nt k)) y) x
  if sme.isEmpty then x1
  else
    -- the SME row path reads single sectors on the narrow path (R471)
    let x2 := { x1 with c := { x1.c with rowCache := sdel x1.c.rowCache x.acc.q }, acc := { x1.acc with narrow := true } }
    let x3 := nbs.foldl (fun y nt => sme.foldl (fun y s => (rowsOf s).foldl (fun y i => (matched i).foldl (fun y k => readSlab y o kt n nt k) y) y) y) x2
    { x3 with acc := { x3.acc with narrow := x1.acc.narrow } }

/-- The expander's writes on the array path (R235): for each N block, segment and K tile the segment's WS streamed block, `val` the elements of A, into the two
halves of the work area in turn. DESIGN CHOICE, log entry 104. -/
def expandWork (x : Dx) (work fmt p kt n : Nat) (arr : List Nat) (size : Nat → Nat) (val : Nat → Nat → Fp) : Dx :=
  let sz := elemBytes fmt
  let half := 2559 * 512 * p * sz
  let blocks := ((upto (ceilDiv n 512)).map (fun _ => (arr.map (fun s => (upto kt).map (fun t => (s, t)))).flatten)).flatten
  (blocks.mapIdx (fun i b => (i, b))).foldl (fun (y : Dx) e =>
    let (s, t) := e.2
    let cell (w j : Nat) : Nat :=
      let sl := j / p
      if sl ≤ w ∧ w - sl < size s then convElem fmt fmt Rnd.nearest (val (2048 * s + (w - sl)) (t * 512 * p + j)) else 0
    y.write (work + e.1 % 2 * half) ((upto (size s + 511)).map (fun w => ((upto (512 * p)).map (fun j => leBytes sz (cell w j))).flatten)).flatten) x

/-- SPMM (R229 to R241). DESIGN CHOICE, log entry 35; DEDUCED, log entry 38. -/
def spmm (x0 : Dx) (prev : Nat) (fails : List CheckFail) (slabs : List SlabFail) : Dx :=
  let q := x0.acc.q
  let m := x0.f 28 0 24
  let n := x0.f 32 0 24
  let k := x0.f 36 0 24
  if m = 0 ∨ n = 0 ∨ k = 0 then x0
  else
    let x1 := match x0.extAt with | some a => x0.touch a 64 | none => x0
    let e := x1.epi
    let x2 := x1.touch (x1.erg (x1.f 40 0 31 / 32 * 32)) 32
    let r := opRec x2 (x2.f 40 0 31)
    let fb := opFmt (x2.f 25 3 3)
    let p := rateP r.fmt fb
    let fp32 := r.fmt = 1 ∨ fb = 1
    let order := (let o := x2.f 24 4 2; if o = 3 then 0 else o)
    let grp := x2.f 24 6 2
    let path := x2.f 24 0 2
    let kt := ceilDiv k (512 * p)
    let ob : Operand := { base := x2.erg (x2.f 44 0 31), fmt := fb, p := p, slots := ceilDiv n 512 * kt * 512 * 512, slot := statSlot p 512 512 kt }
    let listOff := x2.ext 56 0 31
    let x3 := if listOff = 0 then x2 else x2.touch (x2.erg listOff) (4 + 4 * x2.at (x2.erg listOff) 4)
    let bl := bRows x3 listOff k
    let segs := ceilDiv m 2048
    let x5 := (upto segs).foldl (fun y s => y.touchAll (spRegions y r k (2048 * s) (min m (2048 * s + 2048)))) x3
    let rows : List SpRow := (upto m).map (spRow x5 r k)
    let rowOf (i : Nat) : SpRow := nth {} rows i
    let present (i : Nat) : Bool := match bl with | none => true | some l => l.1.contains i
    let matchesOf (i : Nat) : List Nat := ((rowOf i).els.filter (fun t => present t.1)).map (·.1)
    -- path of each segment (R233)
    let thresh := x5.c.fld (Reg.smeDensityThresh q) 0 8
    let named (s : Nat) : Nat := entriesNamed x5 r k (2048 * s) (min m (2048 * s + 2048))
    let size (s : Nat) : Nat := min 2048 (m - 2048 * s)
    let forced : Bool := r.form == 0 || r.form == 4 || decide fp32 || x5.c.fld (Reg.smeFault q) 0 1 == 1
    let isSme (s : Nat) : Bool :=
      !forced && (path == 2 || ((path == 0 || path == 3) && decide (named s * 256 < thresh * size s * k)))
    let smeSegs := (upto segs).filter isSme
    let arrSegs := (upto segs).filter (fun s => !isSme s)
    if !arrSegs.isEmpty && x5.c.fld (Reg.arrayFault q) 0 1 == 1 then x5.st 0x40
    else
      let work := x5.erg (x5.ext 52 0 31 / 128 * 128)
      let x5 := expandWork (readB x5 ob kt n (bl.map (·.1)) arrSegs smeSegs matchesOf (fun s => (upto (size s)).map (· + 2048 * s))) work r.fmt p kt n arrSegs size
        (fun i j => match (rowOf i).els.find? (fun t => t.1 == j) with | some t => t.2 | none => Fp.zero)
      let terms (i j : Nat) : List Term :=
        ((rowOf i).els.filter (fun t => present t.1)).map (fun t => { idx := t.1, a := t.2, b := ob.val x5 j t.1 : Term })
      let units := unitsOf 0 m n 512 512 1
      let pr : Prod := { rows := m, n := n, order := order, grp := grp, fp32 := fp32, os := false, quad := false, p := p, k := k,
                         shape := { tiles := evenTiles kt (512 * p), top := k }, terms := terms, units := units, sme := isSme,
                         rowFn := decide (n ≤ 512),
                         reads := [ob.region, (x2.erg (x2.f 40 0 31 / 32 * 32), 32)] ++ (if listOff = 0 then [] else [(x2.erg listOff, 4 + 4 * x2.at (x2.erg listOff) 4)]) ++ (if arrSegs.isEmpty then [] else [(work, 2 * 2559 * 512 * p * elemBytes r.fmt)]) ++ ((upto segs).map (fun s => spRegions x5 r k (2048 * s) (min m (2048 * s + 2048)))).flatten }
      -- dropped entries (R241)
      let aDrops := (rows.map (·.drops)).flatten
      let bDrops := match bl with | none => [] | some l => l.2
      let least (l : List Nat) : Nat := l.foldl min (2 ^ 64 - 1)
      let nd := aDrops.length + bDrops.length
      let x6 := (x5.dropMany nd (if aDrops.isEmpty then 2 ^ 63 + least bDrops else least aDrops)).core
        (fun c => if nd = 0 then c else c.inc (Reg.smeDrop q) nd)
      -- counters (R261)
      let nb := ceilDiv n 512
      let matched := (smeSegs.map (fun s => (upto (size s)).foldl (fun t i =>
        t + (matchesOf (2048 * s + i)).length) 0)).foldl (· + ·) 0
      let passes := (if fp32 then 6 else 1) * orderFactor order grp fp32
      let cost (u : Unit) : Nat × Nat := if isSme u.seg then (0, 0) else (passes * kt * max (size u.seg) 512, size u.seg * u.colList.length * k)
      let (x7, busy) := if smeSegs.isEmpty then (x6, 0) else x6.fresh
      let near := fun s => decide (named s * 256 * 2 ≥ thresh * size s * k) && decide (named s * 256 ≤ 2 * thresh * size s * k)
      let bump (mp : SMap Nat) (l : List Nat) : SMap Nat := if l.isEmpty then mp else sput mp q (sget 0 mp q + l.length)
      let x8 := x7.core (fun c =>
        let c := (c.incFld (Reg.smeSegments q) 0 16 arrSegs.length).incFld (Reg.smeSegments q) 16 16 smeSegs.length
        let c := (c.inc64 (Reg.smeBusyLo q) busy).inc64 (Reg.smeMatchLo q) (matched * nb)
        { c with policy := { c.policy with segArray := bump c.policy.segArray (arrSegs.filter near), segSme := bump c.policy.segSme (smeSegs.filter near) } })
      -- SME checks (R240)
      let hit := slabs.filter (fun f => decide (f.row < m) && decide (f.block < nb) && isSme (f.row / 2048) && decide (f.runs ≠ 0))
      let x9 := hit.foldl (fun (y : Dx) f =>
        if y.comp.status ≥ 0x40 then y
        else
          let runs := min f.runs 3
          let y := y.core (fun c => (c.incFld (Reg.smeFault q) 16 16 (min runs 2)).raise (qpage q 1) 2)
          let y := { y with comp := { y.comp with retries := max y.comp.retries (min runs 2) } }
          if runs ≥ 3 then (y.core (fun c => (c.setBit (Reg.smeFault q) 0 true).raise (qpage q 1) 3)).st 0x40 else y.st 0x10) x8
      let dead := hit.find? (fun f => decide (f.runs ≥ 3))
      let pr := { pr with fill := if arrSegs.isEmpty then 0 else fillClocks prev 0, cost := cost }
      let pr := match dead with
        | some f => { pr with units := units.takeWhile (fun u => !(u.block == f.block && u.seg == f.row / 2048)) }
        | none => pr
      let y := drain x9 pr e (fails.filter (fun f => match units[f.unit]? with | some u => !isSme u.seg | none => false))
      let y := if rows.any (·.misuse) then
          (if r.form = 3 then scrambleRows y e m n (fun _ => true)
           else scrambleRows y e m n (fun i => (upto m).any (fun j => j / 2048 == i / 2048 && (rowOf j).misuse)))
        else if r.form = 4 then scrambleRows y e m n (fun _ => true) else y
      y

/-- The expanded value of a form S28 operand at reduction index `k` of column `n` (R242, R244). -/
def s28Val (x : Dx) (r : OpRec) (kt n k : Nat) : Fp :=
  let fmt := if r.fmt = 1 then 3 else r.fmt
  let sz := elemBytes fmt
  let o := k / 8
  let line := (n / 512 * kt + o / 512) * 512 + o % 512
  let a := r.a0 + line * 1024 * sz + (n % 512) * 2 * sz
  let md := x.at (r.a1 + line * 512 + n % 512) 1
  if k % 8 = field md 0 3 then decodeBits fmt (x.at a sz)
  else if k % 8 = field md 3 3 then decodeBits fmt (x.at (a + sz) sz)
  else Fp.zero

/-- MATMUL_S28 (R243 to R246). -/
def matmulS28 (x0 : Dx) (prev : Nat) (fails : List CheckFail) : Dx :=
  let m := x0.f 28 0 24
  let n := x0.f 32 0 24
  let k := x0.f 36 0 24
  if m = 0 ∨ n = 0 ∨ k = 0 then x0
  else
    let x1 := match x0.extAt with | some a => x0.touch a 64 | none => x0
    let e := x1.epi
    let x2 := x1.touch (x1.erg (x1.f 44 0 31 / 32 * 32)) 32
    let r := opRec x2 (x2.f 44 0 31)
    let fb := if r.fmt = 1 then 3 else r.fmt
    let fa := opFmt (x2.f 25 0 3)
    let p := rateP fa fb
    let fp32 := fa = 1
    let order := (let o := x2.f 24 4 2; if o = 3 then 0 else o)
    let grp := x2.f 25 6 2
    let kt := ceilDiv k 4096
    let lines := ceilDiv n 512 * kt * 512
    let oa : Operand := { base := x2.erg (x2.f 40 0 31), fmt := fa, p := 8, slots := kt * (m + 511) * 512, slot := streamSlot 8 512 1 m }
    let bReg := [(r.a0, lines * 1024 * elemBytes fb), (r.a1, lines * 512)]
    let x3 := (x2.touch oa.base oa.size).touchAll bReg
    let terms (i j : Nat) : List Term := (upto k).map (fun t => { idx := t, a := oa.val x3 i t, b := s28Val x3 r kt j t : Term })
    let pr : Prod := { rows := m, n := n, order := order, grp := grp, fp32 := fp32, os := false, quad := false, p := p, k := k,
                       shape := { tiles := evenTiles (ceilDiv k (512 * p)) (512 * p), top := k }, terms := terms,
                       units := unitsOf 0 m n 512 512 1, rowFn := decide (n ≤ 512), reads := oa.region :: (x2.erg (x2.f 44 0 31 / 32 * 32), 32) :: bReg }
    let cc := if p = 2 then 1 else 2
    let passes := (if fp32 then 6 else 1) * orderFactor order grp fp32
    let cost (u : Unit) : Nat × Nat := (passes * kt * max (cc * min 2048 (m - 2048 * u.seg)) 512, u.rows.length * u.colList.length * k)
    drain x3 { pr with fill := fillClocks prev 0, cost := cost } e fails

/-- SP_CONVERT (R247 to R250). DEDUCED, log entry 36. -/
def spConvert (x0 : Dx) : Dx :=
  let rows := x0.f 28 0 24
  let cols := x0.f 32 0 24
  let dOff := x0.erg (x0.f 44 0 31 / 32 * 32)
  let x1 := (x0.touch (x0.erg (x0.f 40 0 31 / 32 * 32)) 32).touch dOff 32
  let r := opRec x1 (x1.f 40 0 31)
  let d := opRec x1 (x1.f 44 0 31)
  let form := if d.form = 3 then 1 else d.form
  let fcb := x1.f 26 0 8
  let fmt0 := field fcb 0 3
  let fmt := match form with
    | 0 => fmt0
    | 4 => if 3 ≤ fmt0 ∧ fmt0 ≤ 6 then fmt0 else 3
    | _ => if fmt0 = 0 ∨ fmt0 = 2 ∨ fmt0 = 7 then 3 else fmt0
  let sz := elemBytes fmt
  let x2 := x1.touchAll (spRegions x1 r cols 0 rows)
  let srcs := (upto rows).map (spRow x2 r cols)
  let drops := (srcs.map (·.drops)).flatten
  let x3 := x2.dropMany drops.length (drops.foldl min (2 ^ 64 - 1))
  let x3 := if r.form = 4 then { x3 with c := { x3.c with free := x3.c.free + rows * cols } } else x3
  let v (i j : Nat) : Fp := match (nth {} srcs i).els.find? (fun t => t.1 == j) with | some t => t.2 | none => Fp.zero
  let (x4, dr) := x3.draws fcb (fun _ => 131) (groupsOf fmt rows cols) ((upto (rows * cols)).map (fun i => (i / cols * padCols fmt cols + i % cols) / 4))
  let x5 := (upto rows).foldl (fun y i => (upto cols).foldl (fun y j => if (v i j).special then y.flagNaN (i * cols + j) else y) y) x4
  let conv (i j : Nat) : Nat := drainElem fmt r.fmt (dr.rnd (i * cols + j)) (v i j)
  let y : Dx := match form with
    | 0 => (upto rows).foldl (fun (y : Dx) i => y.write (d.a0 + i * d.count) (outBytes fmt r.fmt dr (i * padCols fmt cols) cols 0 cols (v i))) x5
    | 1 => (upto rows).foldl (fun y i => (upto (ceilDiv cols 512)).foldl (fun (y : Dx) b =>
        y.write (d.a0 + (i * ceilDiv cols 512 + b) * hStride sz)
          (hRecord sz ((upto (min 512 (cols - 512 * b))).map (fun j => conv i (512 * b + j))))) y) x5
    | 2 =>
      let g64 := ceilDiv cols 64
      let (y, total) := (upto (rows * g64)).foldl (fun (p : Dx × Nat) g =>
        let i := g / g64
        let js := (upto (min 64 (cols - 64 * (g % g64)))).filter (fun j => conv i (64 * (g % g64) + j) ≠ 0)
        let y := (p.1.write (d.a0 + 8 * g) (leBytes 8 (js.foldl (fun s j => s + 2 ^ j) 0))).write (d.a1 + 4 * g) (leBytes 4 p.2)
        ((js.mapIdx (fun t j => (t, j))).foldl (fun (y : Dx) (tj : Nat × Nat) =>
          let e := 64 * (g % g64) + tj.2
          if p.2 + tj.1 < d.count then y.write (d.a2 + (p.2 + tj.1) * sz) (leBytes sz (conv i e))
          else (y.drop (i * cols + e))) y, p.2 + js.length)) (x5, 0)
      y.write (dOff + 4) (leBytes 4 (min total d.count))
    | _ =>
      -- form S28 (R242, R250): source row r is column r of B
      let kt := ceilDiv cols 4096
      let oct (n o : Nat) : List Nat := (upto 8).filter (fun j => decide (n < rows) && decide (8 * o + j < cols) && conv n (8 * o + j) != 0)
      let slots (n o : Nat) : List (Nat × Nat) :=
        let kept := (oct n o).take 2
        let fill := ((upto 8).filter (fun j => !kept.contains j)).take (2 - kept.length)
        (sortBy (fun a b => decide (a ≤ b)) (kept ++ fill)).map (fun j => (j, if kept.contains j then conv n (8 * o + j) else 0))
      let extra := ((upto rows).map (fun n => ((upto (ceilDiv cols 8)).map (fun o => ((oct n o).drop 2).map (fun j => n * cols + 8 * o + j))).flatten)).flatten
      let y := if extra.isEmpty then x5
        else { x5 with comp := { x5.comp with posOver := extra.foldl min (2 ^ 64 - 1), status := max x5.comp.status 0x02 } }
      (upto (ceilDiv rows 512 * kt * 512)).foldl (fun (y : Dx) l =>
        let nt := l / (kt * 512)
        let o := l % (kt * 512)
        let ss : List (List (Nat × Nat)) := (upto 512).map (fun j => slots (nt * 512 + j) o)
        (y.write (d.a0 + l * 1024 * sz) ((ss.map (fun (s : List (Nat × Nat)) => (s.map (fun t => leBytes sz t.2)).flatten)).flatten)).write (d.a1 + l * 512)
          ((ss.map (fun (s : List (Nat × Nat)) => leBytes 1 ((nth (0, 0) s 0).1 + 8 * (nth (0, 0) s 1).1))).flatten)) y
  let y := if srcs.any (·.misuse) then
      (match form with
      | 0 => (upto rows).foldl (fun y i => y.scramble (d.a0 + i * d.count) (rowBytes fmt cols)) y
      | 1 => y.scramble d.a0 (rows * ceilDiv cols 512 * hStride sz)
      | 2 => ((y.scramble d.a0 (8 * rows * ceilDiv cols 64)).scramble d.a1 (4 * rows * ceilDiv cols 64)).scramble d.a2 (d.count * sz)
      | _ => (y.scramble d.a0 (ceilDiv rows 512 * ceilDiv cols 4096 * 512 * 1024 * sz)).scramble d.a1 (ceilDiv rows 512 * ceilDiv cols 4096 * 512 * 512))
    else y
  let nd := y.comp.drops
  y.core (fun c => if nd = 0 then c else c.inc (Reg.smeDrop y.acc.q) nd)

/-- THRESH_TUNE (R39, R251, R261), every 4 steps from the cold start on: the MC sets the threshold that takes effect at the next step boundary, if both
paths ran 16 segments near it and HOLD is clear. DEDUCED, log entry 37. -/
def threshTune (c : Core) (q : Nat) (r : PathCompare) : Core :=
  let p := c.policy
  let th := c.fld (Reg.smeDensityThresh q) 0 8
  let d := max 1 (th / 8)
  let new := match r with
    | .smeSlower => max 1 (th - d)
    | .smeFaster => min 255 (th + d)
    | .same => th
  let ok := decide (16 ≤ sget 0 p.segArray q) && decide (16 ≤ sget 0 p.segSme q) && c.fld (Reg.smeDensityThresh q) 8 1 == 0
  if p.steps < sget 0 p.tuned q + 4 then c
  else
    { c with policy := { p with tuned := sput p.tuned q p.steps, segArray := sdel p.segArray q, segSme := sdel p.segSme q,
                                thresh := if ok then sput p.thresh q new else p.thresh } }

/-- The margin after an evaluation of 64 audits that had a margin `m`, a target, `off` predicted-off elements and `mis` misses (R260). -/
def nextMargin (m target off mis : Nat) : Nat :=
  if off ≠ 0 ∧ mis * 65536 > target * off then min 65535 (m + 4096)
  else if off ≠ 0 ∧ mis * 4 * 65536 < target * off ∧ m > 16384 then m - 1024 else m

/-- MARGIN_ADAPT (R260): the MC evaluates the next 64 audits of the device; a margin that it raises or lowers, from the one to come, takes effect at the next step boundary.
DEDUCED, log entry 37. -/
def marginAdapt (c : Core) : Core :=
  let p := c.policy
  if p.auditLog.length < 64 then c
  else
    let batch := p.auditLog.take 64
    let m := p.margin.getD (max 1 (c.fld (Reg.predMargin 0) 0 16))
    let new := nextMargin m (c.fld (Reg.predTarget 0) 0 16) (batch.foldl (fun t b => t + b.1) 0) (batch.foldl (fun t b => t + b.2) 0)
    { c with policy := { p with auditLog := p.auditLog.drop 64, margin := if new = m then p.margin else some new } }

/-- What the sparse policies change at a step boundary, where they are not held (R41, R43, R251, R260). -/
def Core.policyBoundary (c : Core) : Core :=
  let c1 := c.policy.thresh.foldl (fun c t =>
    if c.fld (Reg.smeDensityThresh t.1) 8 1 = 1 then c else c.setFld (Reg.smeDensityThresh t.1) 0 8 t.2) c
  let c2 := match c1.policy.margin with
    | none => c1
    | some m => (upto 4).foldl (fun c q =>
        if c.fld (Reg.predMargin q) 16 1 = 1 ∨ c.fld (Reg.predMargin q) 0 16 = m then c else (c.setFld (Reg.predMargin q) 0 16 m).raise (qpage q 1) 4) c1
  { c2 with policy := { c2.policy with steps := c2.policy.steps + 1, thresh := [], margin := none,
                                        adapted := c2.policy.adapted || decide (64 ≤ c2.policy.audits) } }

end Sys2Proof.Machine
end

