-- ==== Sys2Proof/Machine/Txn.lean ====
section
/-!
DEFINITION. Transactions (R92 to R104): local and global commit, votes and decisions, what a device of a pair sends before it votes (R607, R608), and
publication.
-/
namespace Sys2Proof.Machine
open Sys2Proof

/-! ### The job's group and the pair -/

/-- Whether the pair is formed: it stays formed while a hand-back fill runs (R635). -/
def Core.formed (c : Core) : Bool := c.pair == 2 || c.pair == 5

/-- The job group record's address in quarter 0 (R637). DEDUCED, log entry 74. -/
def Core.groupAddr (c : Core) : Nat := ergAddr 0 (c.fld Reg.jobGroup 0 31)

/-- GROUP of the job group record (R558). -/
def Core.jobGroup (c : Core) : Nat := c.numAt none c.groupAddr 2

/-- The nodes of the job group record (R558). DEDUCED, log entry 74. -/
def Core.jobNodes (c : Core) : List Nat :=
  (upto (min (c.numAt none (c.groupAddr + 4) 4) 65536)).map (fun i => c.numAt none (c.groupAddr + 16 + 2 * i) 2)

/-- A use of the job group record reads it (R490). -/
def Core.seeJob (c : Core) : Core := (c.touch { q := 0, src := 5 } c.groupAddr (16 + 2 * c.jobNodes.length)).1

/-- JOB_LEADER (R602). -/
def Core.leader (c : Core) : Nat := c.fld Reg.jobLeader 0 16

/-- Whether this device acts as the leader, itself or for the node it has adopted. -/
def Core.isLeader (c : Core) : Bool := c.isMe c.leader

/-- Queue a message of this device. -/
def Core.post (c : Core) (dst wadi : Nat) (b : Body) : Core := { c with out := c.out ++ [{ dst := dst, wadi := wadi, body := b }] }

/-- Send a message to each node of a list but this one; a strand of an adopted node sends as that node (R627). -/
def Core.postAll (c : Core) (ns : List Nat) (b : Body) (src : Option Nat := none) : Core :=
  { c with out := c.out ++ (ns.filter (fun n => n != c.node)).map (fun n => { dst := n, wadi := 0, body := b, src := src }) }

/-- Send a message to every node of the job group but this one. -/
def Core.postJob (c : Core) (b : Body) : Core := let d := c.seeJob; d.postAll d.jobNodes b

/-- The SRC of what the leader sends: its own node, or the adopted one that leads (R627). -/
def Core.leaderSrc (c : Core) : Option Nat := if c.leader = c.node then none else some c.leader

/-! ### When a commit may go on -/

/-- Whether enough members have completed. DEDUCED, log entry 18. -/
def Txn.met (t : Txn) (w : Waiter) : Bool := decide (t.ends.length ≥ w.needed)

/-- The first clock edge after the last of the members completed, or, when MEMBERS is 0, after the header waits ended (R96); an edge follows within
1 ns. DEDUCED, log entries 17, 18. -/
def Txn.edge (t : Txn) (w : Waiter) : Nat := (if w.needed = 0 then w.readyAt else nth 0 t.ends (w.needed - 1)) + 1

/-- Whether a transaction is the re-shard transaction and must wait for reductions of older epochs (R596, R597). -/
def Core.deferred (c : Core) (id : Nat) : Bool :=
  let r := c.reg Reg.jobReshard
  bit r 8 && field r 0 8 == id && c.coll.runs.any (fun k => isReduction k.op && epochOlder k.epoch (field r 16 16))

/-- The blocks of a boundary transaction's staged bytes that lie in a mirrored range (R607). -/
def Core.stagedMirrored (c : Core) (t : Txn) : List Nat :=
  ((t.stage.map (fun p => p.1 / 64)).foldl insN []).filter (fun b => c.inMirrored (b * 64))

/-- Whether a staged block publishes poisoned. -/
def Core.stagedPoison (c : Core) (t : Txn) (b : Nat) : Bool :=
  t.stagePoison.contains b || (c.poison.contains b && !(upto 64).all (fun i => (sfind t.stage (b * 64 + i)).isSome))

/-- Send the staged mirrored blocks of the boundary transaction to the twin, once (R607). -/
def Core.sendStaged (c : Core) (id : Nat) : Core :=
  match c.txn? id with
  | none => c
  | some t =>
    if t.stageDone || !c.mirroring || !c.isBoundary id then c
    else
      let bs := c.stagedMirrored t
      let c1 := bs.foldl (fun (d : Core) b =>
        let whole := (upto 64).all (fun i => (sfind t.stage (b * 64 + i)).isSome)
        let d := if whole then d else (d.readBlock b).1
        d.post c.twin 14 (.mirrorBlock { addr := b * 64, bytes := d.bytesAt (some id) (b * 64) 64, poison := d.stagedPoison t b, kind := 1 })) c
      (c1.inc64 Reg.twinMirrorLo (64 * bs.length)).setTxn id (fun t => { t with stageDone := true, stageSent := bs })

/-- Whether the twin has acknowledged what a COMMIT on the boundary transaction needs: every mirrored block and every staged one (R27, R608). -/
def Core.mirrorReady (c : Core) (id : Nat) : Bool :=
  match c.txn? id with
  | none => true
  | some t => !c.isBoundary id || !c.mirroring ||
    (c.mirrorQ.isEmpty && t.stageSent.isEmpty && t.stageDone)

/-- Timed-event entries in use (R59): decided commits, frequency changes, the retrain windows that the next boundary starts, one for each stack (R481), and
collectives that hold one while they wait for their start time. Offset strand starts take none (R662). DEDUCED, log entry 102. -/
def State.entries (s : State) : Nat :=
  (s.core.txns.filter (fun t => t.decision.isSome)).length + s.ctl.freqDue.length + ((s.core.retrainDue.map (· / 32)).foldl insN []).length
    + (s.ctl.strands.filter (fun t => t.phase == .waitTime && t.entry)).length

/-- Whether every timed-event entry is in use (R59). -/
def State.noEntry (s : State) : Bool := decide (s.entries ≥ 256)

/-- Change the waiter of a node in a transaction. -/
def Core.setWaiter (c : Core) (id : Nat) (w : Waiter) (f : Waiter → Waiter) : Core :=
  c.setTxn id (fun t => { t with waiters := t.waiters.map (fun v => if v = w then f v else v) })

/-- The decided frequency of requests and COLD flags (R649). DEDUCED, log entry 77. -/
def decidedFreq (rs : List (Nat × Bool)) : Nat :=
  if rs.any (fun r => r.2) then 16 else match rs with | [] => 16 | r :: l => l.foldl (fun a x => min a x.1) r.1

/-- This device's frequency request and COLD flag (R648, R649). -/
def Core.freqVote (c : Core) : Nat × Bool := (c.fld Reg.pwrFreq 16 6, c.fld Reg.pwrFreqNow 17 1 == 1)

/-! ### Aborts -/

/-- An aborted transaction's waiting descriptors complete with 0x21; with none left it closes (R102). -/
def State.discardTxn (s : State) (id : Nat) : State :=
  match s.core.txn? id with
  | none => s
  | some t =>
    let s1 := s.markAborted id
    let live := t.waiters.filter (fun w => decide (w.strand < 64))
    let s2 := live.foldl (fun (u : State) w => u.endDesc w.strand 0x21) s1
    if live.isEmpty ∧ !t.waiters.isEmpty then s2.on (fun c => c.closeTxn id) else s2

/-- Votes of a transaction that have arrived. -/
def State.votesOf (s : State) (group id : Nat) : List (Vote × Nat) := s.ctl.votes.filter (fun v => v.1.group == group && v.1.txn == id)

/-- Send a decision to the nodes it concerns and to the twin (R101): first to a FORMED twin, which must acknowledge it (R615). `src` is the adopted node that sends it (R627). -/
def State.announce (s : State) (d : Decision) (nodes : List Nat) (src : Option Nat) : State :=
  let c := s.core
  let twin := c.twin != 0xFFFF && c.pair != 3
  let others := nodes.filter (fun n => !(twin && n == c.twin))
  let s1 := { s with ctl := { s.ctl with votes := s.ctl.votes.filter (fun v => !(v.1.group == d.group && v.1.txn == d.txn)) } }
  let s2 := if twin then s1.on (fun c => { c with out := c.out ++ [{ dst := c.twin, wadi := 0, body := .decisionToTwin d, src := src }] }) else s1
  if c.formed then s2.onJob (fun j => { j with held := j.held ++ [{ dec := d, nodes := others, src := src }] })
  else s2.on (fun c => c.postAll others (.decision d) src)

/-- The boundary transaction of a running job aborts: what is open of it here is discarded, STEP_ABORT is set (R638) and JOB_STATE.ABORTS counts (R637). -/
def State.abortBoundary (s : State) (id : Nat) : State :=
  (if (s.core.txn? id).isSome then s.discardTxn id else s.on (fun c => c.raise 7 2)).on (fun c => c.incFld Reg.jobState 8 8 1)

/-- The coordinator decides to abort (R101, R104, R614, R616): the decision of a boundary transaction carries a new restart number, goes to the whole
job group, and restarts this device. -/
def State.decideAbort (s : State) (group id : Nat) (src : Option Nat) : State :=
  let voters := (s.votesOf group id).map (fun v => v.1.node)
  if s.core.isBoundary id && s.core.inJob then
    let n := s.core.job.number + 1
    let s1 := (s.abortBoundary id).on Core.seeJob
    (s1.announce { group := group, txn := id, commit := false, time := 0, restart := n } ((voters ++ s1.core.jobNodes).foldl insN []) src).onJob
      (fun j => { j with restartDue := some n })
  else (s.discardTxn id).announce { group := group, txn := id, commit := false, time := 0 } (voters.foldl insN []) src

/-- An aborted boundary transaction of a running job is told to the leader at once, or decided by it (R614). -/
def State.tellAbort (s : State) (id : Nat) : State :=
  match s.core.txn? id with
  | none => s
  | some t =>
    if !t.aborted || t.abortSent || t.decision.isSome || !s.core.isBoundary id || !s.core.inJob || s.core.job.phase != .none then s
    else
      let g := s.core.jobGroup
      let s1 := (s.on Core.seeJob).on (fun c => c.setTxn id (fun t => { t with abortSent := true, waiters := t.waiters.map (fun w => { w with voted := w.voted || w.kind == .participant }) }))
      if s.core.isLeader then s1.decideAbort g id s.core.leaderSrc
      else s1.on (fun c => c.post c.leader 0 (.vote { group := g, txn := id, node := c.node, commit := false }))

/-! ### Commits -/

/-- A local commit goes on once its members have completed (R96, R597, R59). A PUB_TIME equal to the members' edge counts as the later of the two. DEDUCED, log entry 19;
DESIGN CHOICE, log entry 118. -/
def State.localCommit (s : State) (id : Nat) (t : Txn) (w : Waiter) : State :=
  if t.aborted || !t.met w || s.core.deferred id || !s.core.mirrorReady id || s.noEntry then s
  else
    let edge := t.edge w
    let late := decide (w.pubTime ≠ 0) && decide (w.pubTime ≥ edge) && decide (w.pubTime < s.core.ct)
    let s1 := (if s.core.isBoundary id then s.raiseVolts s.core.freqVote.1 else s).on (fun c => c.setTxn id (fun t => { t with decision := some (true, max (max w.pubTime edge) c.ct), freq := if c.isBoundary id then some (decidedFreq [c.freqVote]) else none }))
    if late then s1.on Core.lateEvent else s1

/-- A coordinator decides once its members and votes are there (R101, R597, R608, R614, R649). With no member and no vote t_last is 0. DEDUCED, log entry 21;
DESIGN CHOICE, log entry 99. -/
def State.coordinate (s : State) (id : Nat) (t : Txn) (w : Waiter) : State :=
  let votes := s.votesOf w.group id
  let allCommit := votes.all (fun v => v.1.commit)
  let src := if w.node = s.core.node then none else some w.node
  if s.core.isBoundary id && s.core.inJob && (t.aborted || !allCommit) then s.decideAbort w.group id src
  else if !t.met w || decide (votes.length < w.voters) then s
  else if t.aborted || !allCommit then s.decideAbort w.group id src
  else if s.core.deferred id || !s.core.mirrorReady id || s.noEntry then s
  else
    let last := votes.foldl (fun a v => max a v.2) (if w.needed = 0 then 0 else nth 0 t.ends (w.needed - 1))
    let lead := max 1 (s.core.fld Reg.cpCommitLead 0 16) * 1000
    let time := max w.pubTime (last + lead)
    let freq := if s.core.isBoundary id then some (decidedFreq (s.core.freqVote :: votes.map (fun v => (v.1.freq, v.1.cold)))) else none
    let s1 := (if s.core.isBoundary id then s.raiseVolts s.core.freqVote.1 else s).on (fun c => c.setTxn id (fun t => { t with decision := some (true, max time c.ct), freq := freq }))
    s1.announce { group := w.group, txn := id, commit := true, time := time, freq := freq.getD 0 } ((votes.map (fun v => v.1.node)).foldl insN []) src

/-- A participant votes once its members have completed (R100, R597, R608, R614, R649, R650). -/
def State.participate (s : State) (id : Nat) (t : Txn) (w : Waiter) : State :=
  if w.voted then s
  else
    let vote (commit : Bool) (u : State) : State :=
      let (f, cold) := u.core.freqVote
      let b := commit && u.core.isBoundary id
      u.on (fun c => { c.setWaiter id w (fun v => { v with voted := true }) with
        out := c.out ++ [{ dst := w.coord, wadi := 0, strand := some w.strand, src := if w.node = c.node then none else some w.node,
                           body := .vote { group := w.group, txn := id, node := w.node, commit := commit, freq := if b then f else 0, cold := b && cold } }] })
    if !t.met w then s
    else if t.aborted then vote false s
    else if s.core.deferred id || !s.core.mirrorReady id then s
    else vote true (if s.core.isBoundary id then s.raiseVolts s.core.freqVote.1 else s)

/-- What a transaction that waits for its decision can do now. -/
def State.settleTxn (s : State) (id : Nat) : State :=
  let s0 := s.tellAbort id
  match s0.core.txn? id with
  | none => s0
  | some t0 =>
    let s1 := if t0.waiters.any (fun w => t0.met w) && !t0.aborted && t0.decision.isNone then s0.on (fun c => c.sendStaged id) else s0
    t0.waiters.foldl (fun (u : State) w =>
      match u.core.txn? id with
      | none => u
      | some t =>
        if t.decision.isSome then u
        else match w.kind with
          | .localCommit => u.localCommit id t w
          | .coordinator => u.coordinate id t w
          | .participant => u.participate id t w) s1

/-- Every transaction in turn. -/
def State.settleTxns (s : State) : State := (s.core.txns.map (fun t => t.id)).foldl State.settleTxn s

/-! ### Publication (R97 to R99) -/

/-- Staged bytes as runs within 64 B blocks, ascending. -/
def stageRuns (m : List Host.Cell) : List (Nat × List Byte) :=
  (m.foldl (fun (p : List (Nat × List Byte)) e =>
    match p with
    | (a, bs) :: l => if e.1 = a + bs.length ∧ e.1 % 64 ≠ 0 then (a, bs ++ [e.2]) :: l else (e.1, [e.2]) :: p
    | [] => [(e.1, [e.2])]) []).reverse

/-- Staged bytes take their home locations (R97); each line then takes the hints of the members' writes in their order (R470). Blocks that the twin holds
staged are not mirrored again (R605). -/
def Core.publishBytes (c : Core) (t : Txn) : Core :=
  let rs := stageRuns t.stage
  let d := (rs.zip ((rs.drop 1).map (fun r => r.1 / 128) ++ [2 ^ 64])).foldl (fun (d : Core) r =>
    let d1 := d.storeWith { q := homeQuarter d r.1.1, poison := t.stagePoison.contains (r.1.1 / 64) } false r.1.1 r.1.2
    if r.1.1 / 128 = r.2 then d1
    else (sget [] t.stageHint (r.1.1 / 128)).foldl (fun (d : Core) h => d.hintLine (r.1.1 / 128) (h / 256) (h % 256)) d1) c
  if t.stageDone then { d with mirrorQ := c.mirrorQ, mirrorNext := c.mirrorNext } else d

/-- The pair's step at a boundary publication (R603, R635): a mirror fill that has ended on both sides forms the pair, after which a hand-back
fill starts with its first block due; a hand-back fill that has ended lets the leader hand back. -/
def Core.pairBoundary (c : Core) : Core :=
  match c.job.fill with
  | none => c
  | some f =>
    if !((f.sentEnd || !f.sends) && (f.gotEnd || !f.receives)) then c
    else if f.kind = 2 then
      let c1 := c.setPair 2
      if c.job.attaching || c.adopted? == some c.twin then
        { c1.setPair 5 with job := { c1.job with fill := some { kind := 3, sends := !c.job.attaching, receives := c.job.attaching, due := !c.job.attaching } } }
      else { c1 with job := { c1.job with fill := none } }
    else { c.setPair 2 with job := { c.job with fill := none, attaching := false, handBackDone := true } }

/-- The tables and step tags in use: of lookup-log records, windows and contributions. -/
def Emb.tags (e : Emb) : List (Nat × Nat) :=
  (e.llog.map (fun l => (l.table, l.tag)) ++ e.windows.map (fun w => (w.table, w.tag)) ++ (e.contribs ++ e.heldIn).map (fun k => (k.table, k.tag))).eraseDups

/-- What the publication of the boundary transaction does beside its staged effects (R610, R632, R651, R747 and the policies of R41). -/
def State.boundaryEffects (s : State) (t : Txn) (time : Nat) : State :=
  let s1 := s.on (fun c =>
    let c2 := { c with journal := 0, emb := { c.emb with openTags := c.emb.tags } }
    let c3 := c2.setReg Reg.jobStep (c2.reg Reg.jobStep + 1)
    let c4 := (c3.setFld Reg.jobEpoch 16 16 (c3.fld Reg.jobEpoch 0 16)).setFld Reg.jobState 8 8 0
    let c5 := c4.policyBoundary.maintBoundary.pairBoundary
    if c5.job.detach then { c5 with job := { c5.job with detach := false, resignDue := true } } else c5)
  let s1 := s1.withDev (windowBoundary (s1.dev ((embQuarter s1.core).getD 0) none))
  { s1 with mgmt := { s1.mgmt with pulseEnd := some (s1.core.up + 1000) },
            ctl := { s1.ctl with freqDue := match t.freq with | some f => s1.ctl.freqDue ++ [(time, f)] | none => s1.ctl.freqDue } }

/-- The re-shard transaction's publication (R598). -/
def Core.publishEpoch (c : Core) (id : Nat) : Core :=
  let r := c.reg Reg.jobReshard
  if bit r 8 ∧ field r 0 8 = id then (c.setFld Reg.jobEpoch 0 16 (field r 16 16)).setBit Reg.jobReshard 8 false else c

/-- A transaction whose decision is to commit publishes (R97): staged bytes, staged registers, notices, the re-shard epoch, the boundary's own
effects; its waiting descriptors complete with 0x00 at this time, and it closes. The re-shard transaction publishes only when no reduction of an older epoch is
open (R597). The watchdogs of the waiting strands start anew (R86). -/
def State.publish (s : State) (id : Nat) : State :=
  match s.core.txn? id with
  | none => s
  | some t =>
    match t.decision with
    | some (true, time) =>
      if s.core.deferred id then s else
      let s1 := s.on (fun c => c.publishBytes t)
      let s2 := t.stageRegs.foldl (fun (u : State) r => u.writeWord r.1 r.2) s1
      let s3 := s2.withDev (publishNotices (s2.dev ((embQuarter s2.core).getD 0) none) (s2.core.emb.boundaries + b2n (s2.core.isBoundary id)) t.notices t.adopted)
      let s4 := s3.on (fun c => c.publishEpoch id)
      let s5 := if s4.core.isBoundary id then s4.boundaryEffects t time else s4
      let s6 := s5.on (fun c => c.setReg Reg.twinJrnlPeak (max (c.reg Reg.twinJrnlPeak) (ceilDiv s4.core.journal 65536)))
      let s7 := t.waiters.foldl (fun (u : State) w =>
        if w.strand < 64 then u.setStrand w.strand (fun d => { d with phase := .done, tWdog := u.core.ct, comp := { d.comp with tEnd := some u.core.ct } }) else u) s6
      s7.on (fun c => c.closeTxn id)
    | _ => s

/-! ### Messages -/

/-- A vote arrives at its coordinator (R101, R614): a node's later vote replaces its earlier one. An ABORT vote for the undecided boundary transaction of
a running job makes the leader decide at once. A vote that no waiting TXN_COMMIT counts is kept for the next one of its group and identifier. DESIGN CHOICE, log entry 118. -/
def txnVote (s : State) (v : Vote) : State :=
  if v.handBack then s.onJob (fun j => { j with handBackAsk := some (v.node, v.txn) })
  else if !v.commit && s.core.isBoundary v.txn && s.core.isLeader && s.core.inJob then
    match s.core.txn? v.txn with
    | some t => if t.decision.isSome || s.core.job.phase != .none then s else s.decideAbort v.group v.txn s.core.leaderSrc
    | none => if s.core.job.phase != .none then s else s.decideAbort v.group v.txn s.core.leaderSrc
  else
    let old := s.ctl.votes.filter (fun x => !(x.1.group == v.group && x.1.txn == v.txn && x.1.node == v.node))
    { s with ctl := { s.ctl with votes := old ++ [(v, s.core.ct)] } }

/-- Whether a transaction waits for the decision of a group as a participant (R100, R102). -/
def Txn.awaits (t : Txn) (group : Nat) : Bool := t.waiters.any (fun w => w.kind == .participant && w.group == group)

end Sys2Proof.Machine
end

