-- ==== Sys2Proof/Machine/Timed.lean ====
section
/-!
DEFINITION. Timed events (R57 to R60): publications, shadow swaps, frequency changes and descriptor starts, each at its time and in the order of R60; decisions, and what takes an entry for them (R59).
-/
namespace Sys2Proof.Machine
open Sys2Proof

/-! ### What each kind of event does -/

/-- START_TIME as the descriptor waits for it (R71, R662). -/
def State.startTime (s : State) (t : Strand) : Nat := t.f 8 0 64 + if s.core.fld Reg.pwrStagger 24 1 = 1 then s.core.stagger else 0

/-- The header's wait for time has ended: its timeout starts, and it waits for its event, if it has one (R73, R76). -/
def State.afterTime (s : State) (k : Nat) : State :=
  s.setStrand k (fun t => { t with tOut := s.core.ct, phase := if t.f 1 2 1 = 1 ∧ t.f 4 12 20 ≠ 0 then .waitEvent else .ready })

/-- The time that a strand awaits has come (R76, R662). A collective that has no timed-event entry waits on for one (R59). -/
def State.waitOver (s : State) (k : Nat) : State :=
  let t := s.strand k
  if t.phase ≠ .waitTime then s
  else if t.startAt ≠ 0 then
    if s.core.ct < t.startAt then s else s.setStrand k (fun t => { t with phase := .fetch, startAt := 0, tWdog := s.core.ct })
  else if s.core.ct < s.startTime t || t.needsEntry then s
  else (s.setStrand k (fun t => { t with entry := false, tWdog := t.tWdog + (s.core.ct - t.tOut) })).afterTime k

/-- The armed time swap of a page fires, if its latched time has come (R106). -/
def State.swapDue (s : State) (page : Nat) : State :=
  match sfind s.ctl.armTime page with
  | some t => if t ≤ s.core.ct then s.fireSwap page else s
  | none => s

/-- A frequency change that is due takes effect (R651). -/
def State.freqNow (s : State) : State :=
  match s.ctl.freqDue.find? (fun e => decide (e.1 ≤ s.core.ct)) with
  | some e => { s with ctl := { s.ctl with freqDue := s.ctl.freqDue.filter (fun x => x != e) } }.applyFreq e.2 e.1
  | none => s

/-! ### The order of events -/

/-- The number of the first rising edge of the compute clock at or after a time (R57); the job frequency is 600 MHz and 25 MHz for each step (R649). Times of one edge take
effect in the order of R60. DEDUCED, log entry 23. -/
def State.edge (s : State) (t : Nat) : Nat := ceilDiv (t * (24 + s.core.fld Reg.pwrFreqNow 0 6)) 40

/-- Timed events that are due, as (edge, order of R60, key). A re-shard transaction is not due while a reduction of an older epoch is open (R597), nor a collective that has no
timed-event entry (R59). DEDUCED, log entry 23. -/
def State.dueEvents (s : State) : List (Nat × Nat × Nat) :=
  let pubs := s.core.txns.filterMap (fun t => match t.decision with | some (true, time) => if s.core.deferred t.id then none else some (time, 0, t.id) | _ => none)
  let swaps := s.ctl.armTime.map (fun e => (e.2, 1, e.1))
  let freqs := s.ctl.freqDue.map (fun e => (e.1, 2, 0))
  let starts := ((upto 64).filter (fun k => (s.strand k).phase == .waitTime && !(s.strand k).needsEntry)).map (fun k =>
    let t := s.strand k
    (if t.startAt ≠ 0 then t.startAt else s.startTime t, 3, k))
  ((pubs ++ swaps ++ freqs ++ starts).filter (fun e => decide (e.1 ≤ s.core.ct))).map (fun e => (s.edge e.1, e.2))

/-- Whether an event (edge, order of R60, key) comes before another one or is it. -/
def eventLe (a b : Nat × Nat × Nat) : Bool :=
  decide (a.1 < b.1) || (a.1 == b.1 && (decide (a.2.1 < b.2.1) || (a.2.1 == b.2.1 && decide (a.2.2 ≤ b.2.2))))

/-- The first event that is due. -/
def State.firstDue (s : State) : Option (Nat × Nat × Nat) := (sortBy eventLe s.dueEvents).head?

/-- An event takes effect. -/
def State.fireEvent (s : State) (e : Nat × Nat × Nat) : State :=
  match e with
  | (_, 0, id) => s.publish id
  | (_, 1, page) => s.swapDue page
  | (_, 2, _) => s.freqNow
  | (_, _, k) => s.waitOver k

/-- The events that are due before `e` take effect, at most `n` of them (R60). -/
def State.catchUp (s : State) (e : Nat × Nat × Nat) : Nat → State
  | 0 => s
  | n + 1 => match s.firstDue with
    | some f => if eventLe e f then s else (s.fireEvent f).catchUp e n
    | none => s

/-- Every event that is due before `e` takes effect: one device holds at most 256 transactions, 256 pages, 256 frequency changes and 64 strand starts. -/
def State.before (s : State) (e : Nat × Nat × Nat) : State := s.catchUp e 1024

/-! ### Decisions (R59, R101 to R104) -/

/-- A decision to commit at a participant (R102, R103): at its time, or, when that has passed, at once, after the events that R60 puts first. A transaction that has been
marked aborted is discarded (R95). With every timed-event entry in use it waits for one (R59). A decision of the group, identifier and time that was taken last is that one sent again
(R623). DESIGN CHOICE, log entry 122. -/
def State.takeCommit (s : State) (d : Decision) : State :=
  match s.core.txn? d.txn with
  | none => s
  | some t =>
    if t.decision.isSome || !t.awaits d.group || s.core.job.decided.contains ((d.group, d.txn), d.time) then s
    else if t.aborted then s.discardTxn d.txn
    else
      let decided (u : State) : State := (u.on (fun c => c.setTxn d.txn (fun t => { t with decision := some (true, d.time), freq := if c.isBoundary d.txn then some d.freq else none }))).onJob
        (fun j => { j with decided := j.decided.filter (fun e => e.1 != (d.group, d.txn)) ++ [((d.group, d.txn), d.time)] })
      if d.time < s.core.ct then ((decided (s.before (s.edge s.core.ct, 0, d.txn))).on Core.lateEvent).publish d.txn
      else if s.noEntry then { s with ctl := { s.ctl with decWait := s.ctl.decWait ++ [d] } }
      else decided s

/-- A decision takes effect at a participant (R102, R103, R104, R616): it concerns the transaction that this device prepared for the decision's group. -/
def State.takeDecision (s : State) (d : Decision) : State :=
  if d.commit then s.takeCommit d
  else if s.core.isBoundary d.txn && s.core.inJob then (s.abortBoundary d.txn).onJob (fun j => { j with restartDue := some d.restart })
  else match s.core.txn? d.txn with
    | some t => if t.awaits d.group then s.discardTxn d.txn else s
    | none => s

/-- A collective that waits for a timed-event entry takes one that is free (R59). One whose start time has passed meanwhile starts late, at once (R58); its timeout runs from that
time (R76). DESIGN CHOICE, log entry 119. -/
def State.takeEntry (s : State) (k : Nat) : State :=
  let t := s.strand k
  if t.phase ≠ .waitTime || !t.needsEntry || s.noEntry then s
  else
    let s1 := s.setStrand k (fun t => { t with entry := true })
    if s.startTime t < s.core.ct then
      ((s1.on Core.lateEvent).setStrand k (fun t => { t with comp := { t.comp with late := true } })).waitOver k |>.setStrand k (fun u => { u with tOut := s.startTime t })
    else s1

/-- What waited for a timed-event entry takes one when it frees (R59): decisions in the order of their arrival, then collectives in ascending strand number. DESIGN CHOICE, log
entry 119. -/
def State.settleEntries (s : State) : State :=
  (upto 64).foldl State.takeEntry (s.ctl.decWait.foldl State.takeCommit { s with ctl := { s.ctl with decWait := [] } })

/-- A decision arrives from `src` (R101, R615): a coordinator's twin keeps it and acknowledges it. -/
def txnDecision (s : State) (src : Nat) (d : Decision) (toTwin : Bool) : State :=
  let s1 := if toTwin then
      (s.onJob (fun j => { j with kept := j.kept.filter (fun k => !(k.1 == src && k.2.group == d.group && k.2.txn == d.txn)) ++ [(src, d)] })).on
        (fun c => c.post src 0 (.decisionAck d.group d.txn))
    else s
  s1.takeDecision d

/-- The twin's acknowledgement of a decision lets it go to the other voters (R615). -/
def decisionAck (s : State) (group txn : Nat) : State :=
  match s.core.job.held.find? (fun h => h.dec.group == group && h.dec.txn == txn) with
  | none => s
  | some h => (s.onJob (fun j => { j with held := j.held.filter (fun x => x != h) })).on (fun c => c.postAll h.nodes (.decision h.dec) h.src)

/-! ### Starts and swaps that act at once -/

/-- Whether the header of strand `k`'s descriptor names a start time that has passed (R58). -/
def State.startsLate (s : State) (k : Nat) : Bool := (s.strand k).f 1 1 1 == 1 && decide (s.startTime (s.strand k) < s.core.ct)

/-- Whether a write of SHADOW_CTRL swaps the page at once (R58, R106). -/
def State.swapsNow (s : State) (page v : Nat) : Bool :=
  bit v 2 || bit v 0 && decide (s.core.reg (page * 4096 + 0x24) + s.core.reg (page * 4096 + 0x28) * 2 ^ 32 < s.core.ct)

/-- Before a register write that swaps a page at once, the events that R60 puts first take effect. -/
def State.beforeSwap (s : State) (off v : Nat) : State :=
  if off % 4096 = 0x20 ∧ (pageBlock (off / 4096)).isSome = true ∧ s.swapsNow (off / 4096) v = true then s.before (s.edge s.core.ct, 1, off / 4096) else s

/-- A host write of a BAR 0 word (R677), after what R60 puts before a swap that it makes. -/
def State.hostRegister (s : State) (off v enables : Nat) : State :=
  (if s.live ∧ enables % 16 = 15 then s.beforeSwap (off % 2 ^ 26 / 4 * 4) (v % 2 ^ 32) else s).hostWrite off v enables

/-! ### Commands -/

/-- TXN_PUBLISH (R97, R60): the first publication that is due takes effect, after what comes before it. -/
def txnPublish (s : State) : State :=
  match (sortBy eventLe (s.dueEvents.filter (fun e => e.2.1 == 0))).head? with
  | some e => (s.before e).publish e.2.2
  | none => s

/-- SHADOW_SWAP (R106, R60): the armed time swap of a page fires, after what comes before it. -/
def shadowSwap (s : State) (page : Nat) : State :=
  match sfind s.ctl.armTime page with
  | some t => if t ≤ s.core.ct then (s.before (s.edge t, 1, page)).swapDue page else s
  | none => s

/-- The time at which a strand in WAIT_TIME starts. -/
def State.wakeTime (s : State) (k : Nat) : Nat := if (s.strand k).startAt ≠ 0 then (s.strand k).startAt else s.startTime (s.strand k)

/-- WAIT_TIME_END (R76, R60, R662): the awaited time has come; what comes before it takes effect first. -/
def waitTimeEnd (s : State) (k : Nat) : State :=
  if !s.live || (s.strand k).phase ≠ .waitTime || (s.strand k).needsEntry || decide (s.core.ct < s.wakeTime k) then s
  else (s.before (s.edge (s.wakeTime k), 3, k)).waitOver k

/-- TIMED_EVENT (R57, R60): the first event that is due takes effect. DEDUCED, log entry 23. -/
def timedEvent (s : State) : State :=
  if !s.awake then s
  else match s.firstDue with
    | none => s
    | some e => s.fireEvent e

end Sys2Proof.Machine
end

