-- ==== Sys2Proof/Machine/Job.lean ====
section
/-!
DEFINITION. The job and the twin (R595 to R638): mirroring, aborts and restarts, loss and takeover, forming, fills and hand-back.
-/
namespace Sys2Proof.Machine
open Sys2Proof

/-! ### The mirror (R604 to R608) -/

/-- Send a block of this device to the twin, read as any other (R490, R511). -/
def Core.sendBlock (c : Core) (b kind : Nat) : Core :=
  let (c1, bs, p) := c.readBlock b
  c1.post c1.twin 14 (.mirrorBlock { addr := b * 64, bytes := bs, poison := p, kind := kind })

/-- The twin link sends every block that has a place in its queue as it stands (R605), as soon as its channel serves it (R480); blocks of the mirror area go to a replacement (R633). -/
def Core.sendMirror (c : Core) : Core :=
  let placed := (upto 4).foldl (fun l q => l ++ ((c.mirrorQ.filter (fun m => m.quarter == q)).take 8192).map (·.num)) []
  let now (m : MirrorEnt) : Bool := !m.sent && (c.mirrorQ.length ≤ 8192 || placed.contains m.num) && !c.readWaits (m.block * 64) 64
  let due := c.mirrorQ.filter now
  let c1 := due.foldl (fun (d : Core) m => d.sendBlock m.block (if c.inMirrorArea (m.block * 64) then 4 else 0)) c
  { c1.inc64 Reg.twinMirrorLo (64 * due.length) with mirrorQ := c1.mirrorQ.map (fun m => if now m then { m with sent := true } else m) }

/-- First block of the range that a fill sends (R633). -/
def Core.fillBase (c : Core) (f : Fill) : Nat := if f.kind = 3 then c.mirrorD / 64 else 0

/-- Send the next block of a running fill: one sweep in ascending address, each block after the acknowledgement of the one before. DEDUCED, log entry 72. -/
def Core.sendFill (c : Core) : Core :=
  match c.job.fill with
  | none => c
  | some f =>
    if !f.sends || decide (f.acked ≥ c.mirrorD / 64) then c
    else
      let b := c.fillBase f + f.acked
      let waits := c.readWaits (b * 64) 64
      let c1 : Core := { c with job := { c.job with fill := some { f with due := waits } } }
      if waits then c1 else c1.sendBlock b f.kind

/-- Start a fill from its first block (R633, R634). -/
def Core.startFill (c : Core) (kind : Nat) (sends receives : Bool) : Core :=
  Core.sendFill { c with job := { c.job with fill := some { kind := kind, sends := sends, receives := receives } } }

/-- Write an arriving block; every such block is journaled and none is mirrored again (R606, R609, R633). DEDUCED, log entries 72, 73. -/
def Core.takeBlock (c : Core) (m : MirrorMsg) (a : Nat) : Core :=
  let c1 := c.journalBlock (a / 64)
  let c2 := c1.storeWith { q := homeQuarter c1 a, poison := m.poison } false a m.bytes
  { c2 with mirrorQ := c.mirrorQ, mirrorNext := c.mirrorNext }

/-- A block arrives from the twin (R606, R607, R633): kind 0 is a mirror write, 1 is staged for the boundary transaction, 2 and 3 are fills, 4 a write to
the sender's mirror area. -/
def mirrorBlock (s : State) (m : MirrorMsg) : State :=
  let c := s.core
  let d := c.mirrorD
  let a := m.addr / 64 * 64
  let low := decide (a < d)
  let ok := if m.kind < 3 then low else !low && decide (a < 2 * d)
  if !ok then s
  else
    let ack (u : State) : State := u.on (fun c => c.post c.twin 14 (.mirrorAck a m.kind))
    if m.kind = 1 then
      let id := c.fld Reg.jobCfg 0 8
      let (c1, st) := (c.openTxn id).stageBytes { q := homeQuarter c (a + d), poison := m.poison } id (a + d) m.bytes
      let s1 := { s with core := c1 }
      ack (if st = 0 then s1 else s1.markAborted id)
    else
      -- a replacement learns from the first hand-back block that its pair is formed (R635)
      let c0 := if m.kind = 3 ∧ c.job.attaching ∧ c.pair = 4 then
          { (c.raise 7 4).setPair 5 with job := { c.job with fill := some { kind := 3, sends := false, receives := true } } }
        else c
      let c1 := c0.takeBlock m (if m.kind < 3 then a + d else a - d)
      let c2 := match c1.job.fill with
        | some f => if f.kind = m.kind ∧ f.receives then { c1 with job := { c1.job with fill := some { f with got := f.got + 1 } } } else c1
        | none => c1
      ack { s with core := c2 }

/-- The twin acknowledges a block (R606, R608). -/
def mirrorAck (s : State) (addr kind : Nat) : State :=
  let b := addr / 64
  if kind = 1 then s.on (fun c => c.setTxn (c.fld Reg.jobCfg 0 8) (fun t => { t with stageSent := delN t.stageSent b }))
  else if kind = 2 ∨ kind = 3 then
    s.on (fun c => match c.job.fill with
      | some f =>
        if f.kind = kind ∧ f.sends ∧ b = c.fillBase f + f.acked then Core.sendFill { c with job := { c.job with fill := some { f with acked := f.acked + 1 } } } else c
      | none => c)
  else s.on (fun c =>
    match c.mirrorQ.find? (fun m => m.sent && m.block == b) with
    | some m => { c with mirrorQ := c.mirrorQ.filter (fun x => x.num != m.num) }
    | none => c)

/-- The twin asks for a block that it found uncorrectable in its mirror area (R613). -/
def mirrorResend (s : State) (addr : Nat) : State := s.on (fun c => if decide (addr < c.mirrorD) && c.mirroring then c.mirrorBlock (addr / 64) else c)

/-! ### Faults that end a step (R613) -/

/-- Channels in state FAILED, and arrays, SMEs and lane processors declared FAULTY. -/
def Core.faults (c : Core) : Nat :=
  (c.regs.filter (fun e =>
    let off := e.1 % 2 ^ 26
    match pageBlock (off / 4096) with
    | some (0x16, q) => e.1 < 2 ^ 41 && off == Reg.memChState q && e.2 % 8 == 4
    | some (0x10, q) => off == Reg.arrayFault q && bit e.2 0
    | some (0x11, q) => off == Reg.smeFault q && bit e.2 0
    | some (0x14, q) => off == Reg.laneFault q && bit e.2 0
    | _ => false)).length

/-- What the command's uncorrectable words and faults lead to (R613): resignation for a mirrored range or a fault of the device, a re-send for the mirror
area. DEDUCED, log entry 69. -/
def State.stepFaults (s : State) (faults : Nat) : State :=
  if !s.core.inJob then s
  else
    let ue := s.core.ueFound
    let resign := decide (s.core.faults > faults) || ue.any s.core.inMirrored
    let s1 := (ue.filter s.core.inMirrorArea).foldl (fun (u : State) a => u.on (fun c => c.post c.twin 14 (.mirrorResend (a / 64 * 64 - c.mirrorD)))) s
    if resign then s1.onJob (fun j => { j with resignDue := true, abortDue := true }) else s1

/-- Mark the boundary transaction aborted; it opens when no member has been fetched yet (R613). DEDUCED, log entry 22. -/
def State.abortStep (s : State) : State :=
  let s1 := s.onJob (fun j => { j with abortDue := false })
  if !s1.core.inJob || s1.core.job.phase != .none then s1
  else
    let id := s1.core.fld Reg.jobCfg 0 8
    (s1.on (fun c => c.openTxn id)).markAborted id

/-! ### Stopping strands -/

/-- Cancel every strand that is not IDLE as by ABORT, with HALT_REASON 3; the statuses have no further consequence (R616, R618, R622). -/
def State.cancelAll (s : State) : State :=
  (upto 64).foldl (fun (u : State) k => if (u.strand k).active then (u.cancelStrand k 3).complete k false else u) s

/-- The device enters STOPPED (R618). -/
def jobStop (s : State) : State :=
  if s.core.jobState = 3 then s
  else (s.cancelAll.on (fun c => (c.setFld Reg.jobState 0 3 4).raise 7 6)).onJob
    (fun j => { j with phase := .none, collecting := false, startAt := none, translations := [], restartDue := none, abortDue := false })

/-- The leader sends STOP to every node (R618, R636). -/
def State.stopAll (s : State) : State := jobStop (s.on (fun c => c.postJob .jobStop))

/-- The device resigns (R622). Without a FORMED twin that ends the job: a leader sends STOP, and another device asks the leader, which refuses for want of a FORMED pair and
sends STOP (R624, R636). DESIGN CHOICE, log entry 123. -/
def State.resignNow (s : State) : State :=
  let s1 := s.onJob (fun j => { j with resignDue := false, abortDue := false, restartDue := none, startAt := none, phase := .none })
  if s1.core.jobState = 3 then s1
  else
    let alone := !s1.core.formed && s1.core.inJob
    let s2 := if alone then s1.on (fun c => (if c.isLeader then c.postJob .jobStop else c.post c.leader 0 (.failoverReq c.twin c.node false)).flushOut) else s1
    (s2.on (fun c => c.post c.twin 0 .resign)).cancelAll.on (fun c => c.setFld Reg.jobState 0 3 3)

/-! ### Restart (R616 to R618) -/

/-- Step tags opened after the boundary lose their lookup-log records, windows and contributions; parked collective packets and the verdicts of the step go
(R616). DEDUCED, log entry 44. -/
def Core.discardStep (c : Core) : Core :=
  let old (t g : Nat) : Bool := c.emb.openTags.contains (t, g)
  { collDiscard c with
           emb := { c.emb.keepContribs (fun k => old k.table k.tag) with
             llog := c.emb.llog.filter (fun l => old l.table l.tag), windows := c.emb.windows.filter (fun w => old w.table w.tag),
             heldIn := c.emb.heldIn.filter (fun k => old k.table k.tag), verdicts := [] } }

/-- Roll the journal back in reverse order of appending (R611). -/
def Core.rollback (c : Core) : Core :=
  let base := c.journalRange.1
  let n := c.journal / 128
  let d := (upto n).foldl (fun (d : Core) i =>
    let a := base + 128 * (n - 1 - i)
    let (d, st) := d.touch { q := homeQuarter d a, src := 5 } a 128
    let w := d.numAt none a 8
    d.storeWith { q := homeQuarter d (w / 64 * 64), poison := bit w 0 || decide (st ≠ 0) } false (w / 64 * 64) (d.bytesAt none (a + 64) 64)) c
  { d with journal := 0 }

/-- Step 1 of a restart (R616): strands are cancelled. -/
def State.restart (s : State) (number : Nat) : State :=
  let s0 := s.onJob (fun j => { j with restartDue := none, abortDue := false })
  if s0.core.jobState = 3 ∨ s0.core.jobState = 4 then s0
  else
    let s1 := s0.onJob (fun j => { j with number := number, phase := .publishing, startAt := none, readyFrom := [],
                                          collecting := s0.core.isLeader, msgAt := s0.core.up })
    -- what a descriptor has found of its device stands (R613)
    let unsound := s0.core.inJob && s0.ctl.strands.any (fun t => t.active && (t.comp.status == 0x30 || t.comp.status == 0x40))
    let s2 := s1.cancelAll.on (fun c => (c.setFld Reg.jobState 0 3 2).incFld Reg.jobState 16 16 1)
    s2.onJob (fun j => { j with abortDue := false, restartDue := none, resignDue := j.resignDue || unsound })

/-- Steps 2 and 3 (R616): once every transaction with a commit decision has published, the others are discarded with the votes that came for them, and what belongs to the step is
dropped. -/
def State.restartDrop (s : State) : State :=
  if s.core.job.phase != .publishing || s.core.txns.any (fun t => t.decision.isSome) then s
  else
    let s1 := (s.core.txns.map (fun t => t.id)).foldl (fun (u : State) id => (u.markAborted id).on (fun c => c.closeTxn id)) s
    let s2 := { s1 with ctl := { s1.ctl with votes := [] } }
    (s2.on Core.discardStep).onJob (fun j => { j with phase := .draining, abortDue := false, restartDue := none })

/-- A READY of the current restart reaches the leader (R617): once every node of the job group has sent one, START follows. -/
def restartReady (s : State) (node number : Nat) : State :=
  let j := s.core.job
  if !s.core.isLeader || !j.collecting || number ≠ j.number then s
  else
    let s1 := (s.onJob (fun j => { j with readyFrom := insN j.readyFrom node, readyAt := s.core.ct })).on Core.seeJob
    let nodes := s1.core.jobNodes
    if nodes.all (fun n => s1.core.job.readyFrom.contains n) then
      let t := s1.core.ct + max 1 (s1.core.fld Reg.cpCommitLead 0 16) * 1000
      (s1.on (fun c => c.postAll nodes (.restartStart number t))).onJob (fun j => { j with collecting := false, startAt := some t })
    else s1

/-- READY to the leader, or counted by this device as leader. -/
def State.sendReady (s : State) (node : Nat) : State :=
  let n := s.core.job.number
  if s.core.isLeader then restartReady s node n else s.on (fun c => c.post c.leader 0 (.restartReady node n))

/-- Steps 4 to 6 of a restart once everything has drained (R616). -/
def State.restartReadyNow (s : State) : State :=
  if s.core.job.phase != .draining || !s.core.mirrorQ.isEmpty then s
  else
    let s1 := s.on (fun c =>
      let c1 := c.rollback
      c1.setFld Reg.jobEpoch 0 16 (c1.fld Reg.jobEpoch 16 16))
    let img := ergAddr 0 (s1.core.fld Reg.jobRestartImg 0 31)
    let s1 := s1.on (fun c => (c.touch { q := 0, src := 5 } img 16384).1)
    let s2 := (upto 4096).foldl (fun (u : State) i => u.setEvent i (s1.core.numAt none (img + 4 * i) 4)) s1
    let step := s2.core.reg Reg.jobStep
    let fresh (t : Strand) : Strand := { t with rkey := 0, rstream := 0, rpos := 0, loops := List.replicate 4 (0, false), steps := step }
    let s3 := { s2 with ctl := { s2.ctl with strands := s2.ctl.strands.map fresh } }
    let s4 := (s3.onJob (fun j => { j with phase := .ready })).sendReady s3.core.node
    match s4.core.adopted? with
    | some l => s4.sendReady l
    | none => s4

/-- A START message sets the restart's time (R616, R617); one that has passed is a late event (R58). -/
def restartStart (s : State) (number time : Nat) : State :=
  if number = s.core.job.number ∧ s.core.job.phase = .ready then
    let s1 := s.onJob (fun j => { j with startAt := some (max time s.core.ct) })
    if time < s.core.ct then s1.on Core.lateEvent else s1
  else s

/-- 100 ms without every READY (R618). -/
def readyTimeout (s : State) : State :=
  if s.core.job.collecting && decide (s.core.up ≥ s.core.job.msgAt + 100000000) then s.stopAll else s

/-! ### Takeover and its translation (R623 to R631) -/

/-- The shard-map entries and drift entries of a table set translated for a takeover, or back (R628, R635): `l` is the lost node, `st` its stand-in. -/
def translate (x : Dx) (l st : Nat) (back : Bool) : Dx :=
  let write (y : Dx) (a : Nat) (bs : List Byte) : Dx := { y with c := y.c.storeWith y.acc false a bs }
  let y := (upto 256).foldl (fun (y : Dx) t =>
    let tb := tbl y t
    if !tb.nodes.contains l then y
    else (upto (2 ^ (tb.w - 12))).foldl (fun (y : Dx) k =>
      let (y, e) := y.num (tb.map + 8 * k) 8
      let node := field e 0 16
      if back then (if node = st ∧ e.testBit 39 then write y (tb.map + 8 * k) (leBytes 8 (putField (putField e 0 16 l) 39 1 0)) else y)
      else if node = l then write y (tb.map + 8 * k) (leBytes 8 (putField (putField e 0 16 st) 39 1 1)) else y) y) x
  let far := 2 ^ 35
  (driftAll y).foldl (fun (y : Dx) d =>
    if d.state = 1 ∧ !back ∧ (d.node = l ∨ d.oldNode = l) then write y d.at_ (goneBytes d.table d.r)
    else
      let sw (n slot : Nat) : Nat × Nat :=
        if back then (if n = st ∧ slot.testBit 35 then (l, slot - far) else (n, slot))
        else if n = l then (st, slot % far + far) else (n, slot)
      let (n1, s1) := sw d.node d.slot
      let (n2, s2) := sw d.oldNode d.oldSlot
      if n1 = d.node ∧ n2 = d.oldNode then y
      else write y d.at_ ({ d with node := n1, slot := s1, oldNode := n2, oldSlot := s2 }).bytes) y

/-- The job's strands start at T_R (R616, R628, R635): what R60 puts first takes effect, then the translations, then the strands in ascending number. DEDUCED, log entry 25. -/
def State.startAgain (s : State) : State :=
  match s.core.job.startAt with
  | none => s
  | some t =>
    if s.core.ct < t then s
    else
      let s1 := s.before (s.edge t, 3, 0)
      let s2 := s1.core.job.translations.foldl (fun (u : State) (p : Nat × Nat × Bool) =>
        u.withDev (translate (u.dev ((embQuarter u.core).getD 0) none) p.1 p.2.1 p.2.2)) s1
      let s3 := s2.onJob (fun j => { j with phase := .none, startAt := none, translations := [] })
      let s4 := s3.on (fun c =>
        let c1 := (c.setFld Reg.jobState 0 3 1).raise 7 3
        match c1.job.fill with
        | some f => c1.startFill f.kind f.sends f.receives
        | none => c1)
      let adopted := s4.core.adopted?.isSome
      (upto 64).foldl (fun (u : State) k =>
        if u.core.jobStrand k || (adopted && decide (32 ≤ k)) then u.startStrand k (u.core.fld (strandKey k 4) 0 18) true else u) s4

/-- Write an alias table entry in every quarter (R625, R626). -/
def Core.writeAlias (c : Core) (l v : Nat) : Core :=
  let off := c.fld Reg.jobAlias 0 31
  let d := (upto 4).foldl (fun (d : Core) q => d.store { q := q } (ergAddr q (off + 4 * l)) (leBytes 4 v)) c
  { d with job := { d.job with aliased := true } }

/-- FAILOVER(L, S) (R625): the alias entry, the translation to come, the adoption, and the restart. The leader's refusal of this device's request makes it
resign (R624). DEDUCED, log entry 71. -/
def failover (s : State) (lost stand number : Nat) (refused : Bool) : State :=
  if refused then s.resignNow
  else
    let s1 := s.on (fun c => c.writeAlias lost (stand + 2 ^ 31))
    let s2 := s1.withDev (migrationsLost (s1.dev ((embQuarter s1.core).getD 0) none) lost)
    let s3 := if stand = s2.core.node then
        s2.on (fun c => ((c.setFld Reg.jobAdopt 0 16 lost).setBit Reg.jobState 3 true).raise 7 1)
      else s2
    s3.onJob (fun j => { j with translations := j.translations ++ [(lost, stand, false)], restartDue := some number })

/-- HANDBACK(L, S) (R635). -/
def handback (s : State) (lost stand number : Nat) : State :=
  let s1 := s.on (fun c => c.writeAlias lost 0)
  let s2 := if stand = s1.core.node ∧ s1.core.adopted?.isSome then
      s1.on (fun c => ((c.setFld Reg.jobAdopt 0 16 0xFFFF).setBit Reg.jobState 3 false).raise 7 5)
    else s1
  -- the replacement's hand-back fill is over
  let s3 := if lost = s2.core.node ∧ s2.core.job.attaching then
      (s2.on (fun c => c.setPair 2)).onJob (fun j => { j with attaching := false, fill := none })
    else s2
  s3.onJob (fun j => { j with translations := j.translations ++ [(lost, stand, true)], restartDue := some number })

/-- The leader accepts or refuses a failover request (R624, R636); the request counts as an ABORT vote for the open boundary transaction (R623). DEDUCED, log entry 71. -/
def failoverReq (s : State) (lost stand : Nat) (formed : Bool) : State :=
  let j := s.core.job
  let id := s.core.fld Reg.jobCfg 0 8
  let undecided := j.phase == .none && s.core.inJob && !(match s.core.txn? id with | some t => t.decision.isSome | none => false)
  let s1 := if undecided then ((s.on (fun c => c.openTxn id)).on Core.seeJob).decideAbort s.core.jobGroup id s.core.leaderSrc else s
  let adopted (n : Nat) : Bool := j.taken.any (fun p => p.1 == n)
  if adopted lost || adopted stand || j.gone.contains lost || j.gone.contains stand || !formed then
    let s1 := s1.onJob (fun j => { j with gone := insN j.gone stand })
    let s2 := if stand = s1.core.node then s1.resignNow else s1.on (fun c => c.post stand 0 (.failoverRefused lost stand))
    if !formed || j.gone.contains stand then s2.stopAll else s2
  else
    let n := match s1.core.job.restartDue with | some n => n + 1 | none => s1.core.job.number + 1
    let s2 := s1.onJob (fun j => { j with taken := j.taken ++ [(lost, stand)] })
    failover (s2.on (fun c => c.postJob (.failover lost stand n))) lost stand n false

/-- The leader hands a node's share back (R635). -/
def State.handBackAll (s : State) (lost stand : Nat) : State :=
  let n := s.core.job.number + 1
  let s1 := handback (s.onJob (fun j => { j with taken := j.taken.filter (fun p => p.1 != lost), gone := delN j.gone lost, handBackAsk := none })) lost stand n
  s1.on (fun c => c.postJob (.handback lost stand n))

/-- After the first publication that follows the hand-back fill, the leader hears of it and hands back (R635). -/
def State.handBackStep (s : State) : State :=
  let s1 := if !s.core.job.handBackDone then s
    else
      let u := s.onJob (fun j => { j with handBackDone := false })
      match u.core.adopted? with
      | none => u
      | some l =>
        if u.core.isLeader then u.onJob (fun j => { j with handBackAsk := some (u.core.node, l) })
        else (u.on Core.seeJob).on (fun c => c.post c.leader 0 (.vote { group := c.jobGroup, txn := l, node := c.node, commit := true, handBack := true }))
  match s1.core.job.handBackAsk with
  | some (st, l) => s1.handBackAll l st
  | none => s1

/-! ### Loss of the twin (R620 to R623, R636) -/

/-- Stash transfers with the twin end when it is lost (R426). -/
def State.loseStash (s : State) : State :=
  (s.core.stash.filter (fun r => r.target == 1)).foldl (fun (u : State) r => u.endDesc r.strand 0x50) s

/-- Declare the twin LOST: a running fill is abandoned, transfers with its stash area end, the decisions that were kept for it are sent again, and the leader is asked for a failover
unless this device already stands in for it (R621, R623, R636). A STOPPED device asks for none. DEDUCED, log entry 70. -/
def State.declareLost (s : State) : State :=
  let c := s.core
  if c.pair = 3 ∨ c.twin = 0xFFFF then s
  else
    let formed := c.formed && !c.job.attaching
    let s1 := s.loseStash.on (fun c => ((c.setPair 3).setBit Reg.twinState 3 false).raise 7 0)
    let held := s1.core.job.held
    let s2 := held.foldl (fun (u : State) h => u.on (fun c => c.postAll h.nodes (.decision h.dec) h.src)) s1
    let s3 := (s2.onJob (fun j => { j with held := [], fill := none, forming := false, hbLast := none, spareKnown := false })).on (fun c =>
      { c with mirrorQ := [], txns := c.txns.map (fun t => { t with stageSent := [] }) })
    if c.jobState = 4 ∨ c.adopted? = some c.twin then s3
    else
      let l := c.twin
      let kept := s3.core.job.kept.filter (fun k => k.1 == l && k.2.commit)
      let s4 := (kept.foldl (fun (u : State) k => u.on (fun c => c.postJob (.decision k.2))) s3).onJob (fun j => { j with kept := j.kept.filter (fun k => k.1 != l) })
      if s4.core.leader = l ∨ s4.core.isLeader then failoverReq s4 l s4.core.node formed
      else s4.on (fun c => c.post c.leader 0 (.failoverReq l c.node formed))

/-- 200 µs without a twin heartbeat (R621): not before the pair has formed and a first heartbeat has arrived (R39). DEDUCED, log entry 70. -/
def twinLoss (s : State) : State :=
  match s.core.job.hbLast with
  | some t => if s.core.formed && decide (s.core.up ≥ t + 200000) then s.declareLost else s
  | none => s

/-- A RESIGN message from the twin (R621). -/
def resign (s : State) : State := s.declareLost

/-- A twin heartbeat is due every 10 µs (R620). -/
def twinHeartbeatSend (s : State) : State :=
  if s.core.formed && decide (s.core.up ≥ s.core.job.hbSent + 10000) then
    (s.on (fun c => c.post c.twin 0 .twinHeartbeat)).onJob (fun j => { j with hbSent := s.core.up })
  else s

/-- A twin heartbeat arrives (R620). -/
def twinHeartbeat (s : State) : State :=
  if s.core.formed then (s.on (fun c => c.setBit Reg.twinState 3 true)).onJob (fun j => { j with hbLast := some s.core.up }) else s

/-! ### Forming (R603, R633) -/

/-- The identity public key (R719, R726). -/
def Core.idPub (c : Core) : List Byte := ((upto 8).map (fun i => leBytes 4 (c.reg (Reg.secIdPub + 4 * i)))).flatten

/-- This device's forming message. -/
def Core.formMsg (c : Core) : FormMsg :=
  { mirrorK := min 47 (c.fld Reg.jobCfg 8 6), boundary := c.fld Reg.jobCfg 0 8, leader := c.leader, group := c.jobGroup, key := c.idPub, attach := c.job.attaching }

/-- Tell the twin what this device would form with (R603). -/
def Core.sayForm (c : Core) : Core :=
  let d := c.seeJob
  { d.post d.twin 0 (.formExchange d.formMsg) with job := { d.job with said := some d.formMsg } }

/-- TWIN_CTRL.FORM or ATTACH (R603, R633): the pair is FORMING and the twin is told. MIRROR_K of 0 allows no pairing (R637). -/
def State.formNow (s : State) (attach : Bool) : State :=
  let s1 := s.onJob (fun j => { j with formDue := false, attachDue := false })
  if s1.core.mirrorD = 0 then s1
  else (s1.onJob (fun j => { j with forming := true, attaching := attach, hbLast := none })).on (fun c =>
    ((c.setPair 1).setBit Reg.twinState 3 false).sayForm)

/-- While the pair is FORMING, a device whose side has changed says so again (R603). -/
def Core.sayAgain (c : Core) : Core := if c.job.forming && c.pair == 1 && c.job.said != some c.formMsg then c.sayForm else c

/-- Both sides have said the same (R603): the mirror fill starts. A replacement receives and sends nothing; its twin sends (R633). -/
def Core.agree (c : Core) : Core :=
  match c.job.form with
  | none => c
  | some f =>
    let m := c.formMsg
    if c.job.forming && c.pair == 1 && decide (f.mirrorK = m.mirrorK ∧ f.boundary = m.boundary ∧ f.leader = m.leader ∧ f.group = m.group) then
      let c1 := { c.setPair 4 with job := { c.job with forming := false, form := none } }
      c1.startFill 2 (!c.job.attaching) (!f.attach)
    else c

/-- The twin's forming message arrives (R603, R633, R721). -/
def twinForm (s : State) (f : FormMsg) : State :=
  let twin := s.core.twin
  let changed := s.core.job.twinKeys.any (fun k => k.1 == twin && k.2 != f.key)
  let s1 := s.onJob (fun j => { j with form := some f, twinKeys := j.twinKeys.filter (fun k => k.1 != twin) ++ [(twin, f.key)] })
  let s2 := if changed then s1.on (fun c => c.raise 1 2) else s1
  -- a stand-in answers a replacement of the node it has adopted
  let s3 := if f.attach && s2.core.adopted? == some twin && s2.core.pair != 1 then s2.formNow false else s2
  s3.on Core.agree

/-- The end of a fill (R635): at the sender once every block is acknowledged, at the receiver once every block has arrived. -/
def fillEnd (s : State) : State :=
  s.on (fun c => match c.job.fill with
    | none => c
    | some f =>
      let n := c.mirrorD / 64
      { c with job := { c.job with fill := some { f with sentEnd := f.sentEnd || (f.sends && decide (f.acked ≥ n)),
                                                         gotEnd := f.gotEnd || (f.receives && decide (f.got ≥ n)) } } })

/-! ### What a command leaves due -/

/-- A restart that a decision or notice asks for begins; RETRY_MAX aborts of one step in a row end the job (R618). -/
def State.restartStep (s : State) : State :=
  match s.core.job.restartDue with
  | none => s
  | some n =>
    let s1 := s.restart n
    if s1.core.isLeader && decide (s1.core.fld Reg.jobState 8 8 ≥ max 1 (s1.core.fld Reg.jobCfg 16 3)) then s1.stopAll else s1

/-- The job's part of the end of a command: requests of TWIN_CTRL, consequences of R613, restarts, hand-back, and what is to be sent to the twin. -/
def State.settleJob (s : State) (faults : Nat) : State :=
  let s1 := s.stepFaults faults
  let s2 := if s1.core.job.abortDue then s1.abortStep else s1
  let s3 := s2.ifFree (fun u => u.settleEntries.settleTxns)
  let s4 := if s3.core.job.resignDue then s3.resignNow else s3
  let s5 := (if s4.core.job.formDue || s4.core.job.attachDue then s4.formNow s4.core.job.attachDue else s4.on Core.sayAgain).on Core.agree
  let s6 := s5.restartStep
  let s7 := (s6.restartDrop.ifFree State.restartReadyNow).ifFree State.startAgain
  let s8 := s7.handBackStep.restartStep
  (s8.on Core.sendMirror).on (fun c => if (c.job.fill.map (fun f => f.due)).getD false then c.sendFill else c)

end Sys2Proof.Machine
end

