-- ==== Sys2Proof/Machine/Host.lean ====
section
/-!
DEFINITION. The host's accesses and the PCIe link (R671 to R684), SMBus (R707), attestation (R692, R720), owner slots (R718), GPIO pulses and the
light of the laser inputs (R705, R747, R758).
-/
namespace Sys2Proof.Machine
open Sys2Proof

/-! ### Register writes that are rows of their own -/

/-- The host writes a whole BAR 0 word. -/
def State.hostWord (s : State) (off v : Nat) : State := s.hostWrite off v 15

/-- CP_STRAND_CTRL of a strand with one of START, STOP and ABORT (bits 0, 1, 2): HALT_ON_ERR and QUARTER as given. DEDUCED, log entry 24. -/
def State.strandCtrl (s : State) (k bit haltOnErr quarter : Nat) : State :=
  s.hostWord (strandKey (k % 64) 0) (2 ^ bit + haltOnErr % 2 * 8 + quarter % 4 * 16)

/-- STOP and ABORT leave HALT_ON_ERR and QUARTER as they stand. -/
def State.strandBit (s : State) (k bit : Nat) : State :=
  let v := s.core.reg (strandKey (k % 64) 0)
  s.strandCtrl k bit (field v 3 1) (field v 4 2)

/-- Offset of block register `o` of block `b` in quarter `q` (R759). -/
def qoff (q b o : Nat) : Nat := qpage (q % 4) b * 4096 + o

/-! ### The windows (R676 to R683) -/

/-- Base W of the BAR 2 window (R678). -/
def State.bar2Base (s : State) : Nat :=
  let w := field (s.core.reg Reg.hostB2winLo) 28 4 * 2 ^ 28 + s.core.reg Reg.hostB2winHi % 65536 * 2 ^ 32
  w / 2 ^ s.host.bar2 * 2 ^ s.host.bar2

/-- The local address of `n` bytes at a window offset; none where the request does not lie in the BAR (R675, R676). DEDUCED, log entry 84. -/
def State.winAddr (s : State) (bar4 : Bool) (off n : Nat) : Option Nat :=
  if bar4 then (if off + n ≤ 2 ^ 31 then some (ergBase + off) else none)
  else if off + n ≤ 2 ^ s.host.bar2 then some (s.bar2Base + off) else none

/-- Whether an address lies in a quarter's error log region (R455). -/
def inLog (a : Nat) : Bool :=
  match place a with
  | .erg _ off => decide (0x1FF00000 ≤ off)
  | _ => false

/-- Log an error in AER (R675, R683): 1 Unsupported Request, 2 Poisoned TLP, 3 ECRC. -/
def State.aer (s : State) (e : Nat) : State := s.onHost (fun h => { h with aer := insN h.aer e })

/-- Send a completion to the host. -/
def State.toHost (s : State) (b : Body) : State := s.on (fun c => { c with wire := c.wire ++ [{ dst := 0, wadi := 0, body := b }] })

/-- UNSUPPORTED_REQUEST (R675): logged, and completed when it is no posted request. -/
def unsupported (s : State) (tag : Option Nat) : State :=
  let s1 := s.aer 1
  match tag with
  | some t => s1.toHost (.unsupported t)
  | none => s1

/-- Whether a byte of a range lies in a poisoned block. -/
def Core.poisoned (c : Core) (a n : Nat) : Bool := c.poison.any (fun b => meets a n (b * 64) (b * 64 + 64))

/-- A host read takes place and its completion is sent (R682, R683). -/
def State.serveRead (s : State) (a n tag : Nat) : State :=
  let (c1, st, bs) := s.core.read { q := 0, src := 2 } a n
  { s with core := c1 }.toHost (.readCompletion tag bs (st != 0 || c1.poisoned a n))

/-- A host access waits in a device area. -/
def State.park (s : State) (p : Parked) : State := s.on (fun c => { c with parked := c.parked ++ [p] })

/-- A host access takes place. -/
def State.serve (s : State) (p : Parked) : State :=
  match p.data with
  | some (bytes, ep) => s.on (fun c => c.store { q := 0, src := 2, poison := ep } p.addr bytes)
  | none => s.serveRead p.addr p.len p.tag

/-- Whether a host access waits for a fill, for the channel or the row, or behind an access to its bytes (R462, R480, R509). -/
def Core.parkedWaits (c : Core) (p : Parked) : Bool :=
  if p.data.isSome then c.filling p.addr p.len || c.parkedAt p.addr p.len false else c.readWaits p.addr p.len

/-- A host access takes place, or waits (R462, R480, R509); so does one that finds the journal or a mirror queue full, or no way in its set (R467, R605, R612). -/
def State.hostAccess (s : State) (p : Parked) : State :=
  if s.core.parkedWaits p then s.park p
  else
    let t := s.serve p
    if t.core.stall && !s.core.stall then (s.withdrawn t).park p else t

/-- HOST_MEMORY_WRITE (R680, R683): dropped before READY, when it fails ECRC, and in the error log region; poisoned when it carries EP. -/
def memoryWrite (s : State) (bar4 : Bool) (off : Nat) (bytes : List Byte) (ep ecrcBad : Bool) : State :=
  if !s.live then s
  else if ecrcBad then s.aer 3
  else match s.winAddr bar4 off bytes.length with
    | none => unsupported s none
    | some a =>
      if inLog a then s.on (fun c => c.hostError 3)
      else
        let s1 := if ep then (s.on (fun c => c.hostError 2)).aer 2 else s
        s1.hostAccess { addr := a, len := bytes.length, data := some (bytes, ep) }

/-- HOST_MEMORY_READ (R682, R683): zero before READY; the error log region reads as it stands. -/
def memoryRead (s : State) (bar4 : Bool) (off n tag : Nat) : State :=
  if !s.awake then s
  else match s.winAddr bar4 off n with
    | none => unsupported s (some tag)
    | some a =>
      if !s.live then s.toHost (.readCompletion tag (leBytes n 0) false)
      else if inLog a then s.toHost (.readCompletion tag ((upto n).map (fun i => sget (0 : Byte) s.core.mem (a + i))) (s.core.poisoned a n))
      else s.hostAccess { addr := a, len := n, tag := tag }

/-- Host accesses that waited take place as soon as they may, in order of arrival (R480). -/
def State.serveParked (s : State) : State := s.core.parked.foldl State.hostAccess (s.on (fun c => { c with parked := [] }))

/-- LATCHED_LO_READ (R767): the host's read, or the MC's (reader 1), of a register word; the host's value returns as a completion. -/
def wordRead (s : State) (reader off tag : Nat) : State :=
  if reader = 0 then
    let (s1, v) := s.hostRead off
    s1.toHost (.readCompletion tag (leBytes 4 v) false)
  else (s.readWord 1 (off % 2 ^ 26 / 4 * 4)).1

/-! ### The PCIe link (R671 to R673, R694) -/

/-- The rate and width that a link trains at (R672): codes 1, 4, 5 and 6 of HOST_LINK.SPEED; 0 when there is none. PRESUMED, log entry 83. -/
def linkRate (p : PciePartner) : Nat × Nat :=
  -- 5.0 and 8.0 GT/s are not among the device's rates; every partner offers 2.5 GT/s
  let r := (p.rates.filter (fun x => x == 1 || x == 4 || x == 5 || x == 6)).foldl max 0
  let r := if r = 0 ∧ p.rates.any (fun x => x == 2 || x == 3) then 1 else r
  let w := (p.widths.filter (fun x => x == 1 || x == 4 || x == 8)).foldl max 0
  let w := if w = 0 ∧ p.widths ≠ [] then 1 else w
  if r = 0 ∨ w = 0 then (0, 0) else (r, w)

/-- HOST_LINK takes a trained link (R673, R693); a change of SPEED or WIDTH raises LINK (R694). -/
def Core.setLink (c : Core) (p : PciePartner) : Core :=
  let (r, w) := linkRate p
  let changed := c.fld Reg.hostLink 0 3 != r || c.fld Reg.hostLink 4 4 != w
  let c1 := ((c.setFld Reg.hostLink 0 3 r).setFld Reg.hostLink 4 4 w).setBit Reg.hostLink 8 (r == 6 || (r != 0 && p.flit))
  let c2 := c1.setBit Reg.hostLink 9 (r != 0 && p.reversed)
  if changed then c2.raise 2 0 else c2

/-- PCIE_LINK_TRAIN (R672): the link trains, and the host's enumeration sets the function's configuration. In FAILED and during a hold the link stays in
Detect (R706). PRESUMED, log entry 83. -/
def linkTrain (s : State) (p : PciePartner) (g : PcieConfig) : State :=
  if !s.awake then s
  else
    let s1 := (s.on (fun c => c.setLink p)).onHost (fun h =>
      { h with bme := g.bme, mps := g.mps, mrrs := g.mrrs, msixEn := g.msixEn, fmask := g.fmask, bar2 := max 28 (min 39 g.bar2) })
    s1.deliverPending

/-- PCIE_LINK_RECOVERY (R693, R694): counted, and what the link then runs at. -/
def linkRecovery (s : State) (p : PciePartner) : State :=
  if !s.awake || s.core.fld Reg.hostLink 0 3 == 0 then s else s.on (fun c => (c.incFld Reg.hostLink 16 16 1).setLink p)

/-! ### SMBus (R707) -/

/-- The words of an SMBus block read, as 4 bytes each. -/
def State.smbusWords (s : State) (offs : List Nat) : State := s.toHost (.smbus ((offs.map (fun o => leBytes 4 (s.peek 1 o))).flatten))

/-- SMBUS_ADDR. -/
def smbusAddr (s : State) (off : Nat) : State := { s with mgmt := { s.mgmt with smbOffset := off % 2 ^ 32 } }

/-- SMBUS_READ: the register at the set offset, on the boot, security and power pages. -/
def smbusRead (s : State) : State :=
  let off := s.mgmt.smbOffset / 4 * 4
  if off / 4096 = 0 ∨ off / 4096 = 1 ∨ off / 4096 = 6 then
    let (s1, v) := s.readWord 1 off
    s1.toHost (.smbus (leBytes 4 v))
  else s.toHost (.smbus (leBytes 4 0))

/-! ### Attestation (R692, R719, R720) -/

/-- The identity key's seed (R719); a RETIRED device reads UDS as all ones (R717). -/
def Fuses.idSeed (f : Fuses) : List Byte :=
  let uds := if f.lifecycle ≥ 3 then List.replicate 32 (0xFF : Byte) else f.uds
  (sha512 ([0x45, 0x56, 0x4F, 0x56, 0x49, 0x53, 0x2D, 0x49, 0x44, 0x2D, 0x31] ++ uds)).take 32

/-- The bytes of `n` registers from an offset on. -/
def Core.regBytes (c : Core) (off n : Nat) : List Byte := ((upto n).map (fun i => leBytes 4 (c.reg (off + 4 * i)))).flatten

/-- The 16,384 page lock bits as bytes (R720). -/
def lockBytes (locks : List Nat) : List Byte :=
  (upto 2048).map (fun i => BitVec.ofNat 8 ((upto 8).foldl (fun a j => a + 2 ^ j * b2n (locks.contains (8 * i + j))) 0))

/-- Bytes 0 to 351 of an attestation report (R720). -/
def State.reportBody (s : State) : List Byte :=
  let c := s.core
  let key := match s.core.job.twinKeys.find? (fun k => k.1 == c.twin) with
    | some k => if c.pair = 2 then (sha512 k.2).take 32 else leBytes 32 0
    | none => leBytes 32 0
  leBytes 4 0x41545354 ++ leBytes 1 1 ++ leBytes 1 0 ++ leBytes 2 416 ++ c.regBytes Reg.hostAttestNonce 8 ++ leBytes 8 c.ct
    ++ leBytes 8 s.mgmt.fuses.serial ++ leBytes 4 s.mgmt.fuses.part ++ leBytes 4 (s.peek 1 Reg.secState)
    ++ c.regBytes Reg.secRomDigest 16 ++ c.regBytes Reg.secFwDigest 16 ++ leBytes 4 (c.fld Reg.secState 16 7) ++ leBytes 4 (s.peek 1 Reg.secKeys)
    ++ leBytes 8 0 ++ sha512 (lockBytes s.mgmt.locks) ++ leBytes 4 s.mgmt.locks.length ++ leBytes 2 c.node ++ leBytes 2 c.twin
    ++ leBytes 1 c.pair ++ leBytes 7 0 ++ key ++ c.idPub

/-- An attestation report, signed under the identity key (R720). -/
def State.report (s : State) : List Byte := let b := s.reportBody; b ++ edSign s.mgmt.fuses.idSeed (sha512 b)

/-- ATTEST_DONE (R692, R720): `ok` tells whether the MC could sign. -/
def attestDone (s : State) (ok : Bool) : State :=
  if s.mgmt.attestAt.isNone then s
  else
    let k := Reg.hostAttestCtrl
    let s1 := { s with mgmt := { s.mgmt with attestAt := none } }
    let s2 := s1.on (fun c => (c.setBit k 1 false).raise 2 2)
    if !ok then s2.on (fun c => c.setBit k 3 true)
    else
      let r := s.report
      s2.on (fun c =>
        let c1 := (upto 104).foldl (fun (d : Core) i => d.setReg (0x2C00 + 4 * i) (ofLE ((r.drop (4 * i)).take 4))) c
        (c1.setFld k 16 11 416).setBit k 2 true)

/-! ### Owner slots (R718) -/

/-- What an owner-slot request does to the fuses; none when it fails. DEDUCED, log entry 91. -/
def ownerFuses (f : Fuses) (slot op : Nat) (hash : List Byte) : Option Fuses :=
  if f.lifecycle = 0 ∨ 3 ≤ f.lifecycle then none
  else if op = 1 then (if f.programmed.getLsbD slot then some { f with revoked := f.revoked ||| BitVec.ofNat 8 (2 ^ slot) } else none)
  else if op = 2 then some { f with lifecycle := 3 }
  else if f.programmed.getLsbD slot then none
  else some { f with programmed := f.programmed ||| BitVec.ofNat 8 (2 ^ slot), ownerHash := setNth f.ownerHash (slot - 4) hash,
                     lifecycle := if f.lifecycle = 1 then 2 else f.lifecycle }

/-- OWNER_PROG_DONE (R718, R727). DEDUCED, log entry 91. -/
def ownerDone (s : State) : State :=
  if s.mgmt.ownerAt.isNone then s
  else
    let k := Reg.secOwnerProg
    let slot := max 4 (s.core.fld k 0 3)
    let s1 := { s with mgmt := { s.mgmt with ownerAt := none } }
    let new := if s.mgmt.locks.contains 1 then none else ownerFuses s.mgmt.fuses slot (s.core.fld k 3 2) (s.core.regBytes Reg.secOwnerHash 8)
    match new with
    | some f => { s1.on (fun c => (c.setBit k 6 true).raise 1 0) with mgmt := { s1.mgmt with fuses := f } }
    | none => s1.on (fun c => (c.setBit k 7 true).raise 1 1)

/-! ### Pins (R747, R758) -/

/-- GPIO_PULSE_END: a STEP pulse is over after 1 µs. DEDUCED, log entry 92. -/
def pulseEnds (s : State) : State :=
  match s.mgmt.pulseEnd with
  | some t => if t ≤ s.core.up then { s with mgmt := { s.mgmt with pulseEnd := none } } else s
  | none => s

/-- LIGHT_LOSS of a laser input (R522, R758). -/
def lightLost (s : State) (input : Nat) : State :=
  if !s.awake then s
  else
    let s1 := if s.core.fld Reg.pinLaser (input % 8) 1 = 1 then s.on (fun c => (c.setBit Reg.pinLaser (input % 8) false).raise 3 0) else s
    s1.on (fun c => lightLoss c (input % 8))

/-- LIGHT_RETURN of a laser input (R705). -/
def lightBack (s : State) (input : Nat) : State :=
  if s.awake then s.on (fun c => lightReturn (c.setBit Reg.pinLaser (input % 8) true) (input % 8)) else s

end Sys2Proof.Machine
end

