-- ==== Sys2Proof/Machine/Boot.lean ====
section
/-!
DEFINITION. Resets and the boot sequence (R459, R477, R665, R689, R690, R695 to R725, R768, R770).
-/
namespace Sys2Proof.Machine
open Sys2Proof

/-! ### Cold reset (R689, R695, R665) -/

/-- Registers that stand after a cold reset beside their reset values: the straps, and the trip record while power stays (R665, R744). -/
def coldRegs (c : Core) (b : BoardPins) : Core :=
  let c0 : Core := { free := c.free, wire := c.wire, addLogs := c.addLogs, repair := c.repair.mapIdx (fun i r => (nth none b.flash.copies i).getD r) }
  let c1 := if b.powerLost then c0 else c0.setReg Reg.pwrTrip (c.reg Reg.pwrTrip)
  (c1.setFld Reg.pinState 4 2 b.smbAddr).setBit Reg.pinState 6 b.testMode

/-- COLD_RESET: everything takes its reset value, and the boot ROM begins stage 1. A device held after a thermal trip stays so while a sensor reads
105 °C or more, as at the trip, but for what it loses with its power, the trip's record (R665). DEDUCED, log entries 89, 94. -/
def coldReset (s : State) (b : BoardPins) : State :=
  if s.mgmt.held ∧ 105 ≤ b.temp then
    if b.powerLost then
      { core := (((coldRegs s.core b).setBit Reg.pinState 0 true).setFld Reg.bootStatus 0 4 15).setFld Reg.bootStatus 8 8 0x50,
        mgmt := { fuses := s.mgmt.fuses, flash := b.flash, held := true }, pending := s.pending }
    else s
  else { core := coldRegs s.core b, mgmt := { fuses := s.mgmt.fuses, flash := b.flash }, pending := s.pending }

/-! ### Warm reset (R477, R689, R723) -/

/-- DRAM as a warm reset leaves it: merge entries and dirty lines reach it first; a dirty line of a FAILED channel is lost and poisoned (R477, R482). -/
def Core.drainCache (c : Core) : Core :=
  let c1 := c.settleMerges (fun _ => true)
  let lost := c1.lines.filter (fun l => l.dirty != 0 && c1.addrFailed (l.tag * 128))
  let c2 := c1.lines.foldl (fun d l => ((d.spillLine l).revert l).dropLine l.tag) c1
  { c2 with dramPoison := lost.foldl (fun p l => insN (insN p (l.tag * 2)) (l.tag * 2 + 1)) c2.dramPoison }

/-- Where a DRAM byte's cell lies once every group is back in DEVICE mode (R461). DEDUCED, log entry 88. -/
def regroup (ilv : BitVec 96) (a : Nat) : Nat := let p := dramChan ilv a; dramAddr 0 p.1 p.2

/-- The DRAM part of a memory table with its cells at their addresses in DEVICE mode. -/
def regroupMem {α : Type} (ilv : BitVec 96) (unit : Nat) (m : SMap α) : SMap α :=
  (m.filter (fun e => decide (e.1 * unit < dramEnd))).foldl (fun (r : SMap α) e => sput r (regroup ilv (e.1 * unit) / unit) e.2) []

/-- Memory after a warm reset: DRAM keeps the values in its cells, the Erg store reads zero (R459, R689). -/
def Core.warmCore (c : Core) : Core :=
  let d := c.drainCache
  let m := regroupMem d.ilv 1 d.dram
  let p := (d.dramPoison.filter (fun b => decide (b * 64 < dramEnd))).foldl (fun l b => insN l (regroup d.ilv (b * 64) / 64)) []
  { free := d.free, wire := d.wire, addLogs := d.addLogs, repair := d.repair, repairDue := d.repairDue, mem := m, dram := m, poison := p, dramPoison := p,
    errs := regroupMem d.ilv 8 d.errs, remaps := d.remaps, retired := d.retired }

/-- WARM_RESET (R689, R723): from PERST_N or HOST_RESET. FAILED and a thermal hold last until a cold reset (R665, R706). DEDUCED, log entries 88, 89, 94. -/
def warmReset (s : State) : State :=
  if !s.awake then s
  else
    let pins := s.core.reg Reg.pinState &&& 0x70
    let c1 := ((s.core.warmCore).setReg Reg.pwrTrip (s.core.reg Reg.pwrTrip)).setReg Reg.pinState pins
    { core := c1.setBit Reg.bootStatus 17 true, mgmt := { fuses := s.mgmt.fuses, flash := s.mgmt.flash, warm := true },
      pwr := { volts := s.pwr.volts }, pending := s.pending }

/-! ### Stages 2 to 10 (R698 to R714) -/

/-- Set STAGE. -/
def State.stage (s : State) (n : Nat) : State := s.on (fun c => c.setFld Reg.bootStatus 0 4 n)

/-- Enter FAILED (R706, R770). -/
def State.failBoot (s : State) (code detail : Nat) : State :=
  (s.stage 15).on (fun c => (c.setFld Reg.bootStatus 8 8 code).setReg Reg.bootDetail detail)

/-- What a stage leaves: the state, and a failure code with its DETAIL. -/
abbrev BootStage := State → State × Option (Nat × Nat)

/-- Run stages in order; a stage that fails enters FAILED, and no later stage runs (R698). -/
def runStages : List BootStage → State → State
  | [], s => { s.stage 10 with mgmt := { s.mgmt with bootDone := true } }
  | f :: fs, s =>
    match f s with
    | (t, none) => runStages fs t
    | (t, some e) => t.failBoot e.1 e.2

/-- Stage 2: fuses, flash header, PCIe identifiers and the identity key (R674, R698, R708, R719). -/
def bootIdent (t : BootTests) : BootStage := fun s =>
  let f := s.mgmt.fuses
  match t.fuse with
  | some w => (s, some (0x03, w))
  | none =>
    if 3 ≤ f.lifecycle then (s, some (0x04, 0))
    else if !s.mgmt.flash.answers then (s, some (0x20, 0))
    else
      let h := s.mgmt.flash.header
      let ids := if ofLE (h.take 4) = 0x464C4844 then ofLE ((h.drop 4).take 4) else 0
      let pub := edPublic f.idSeed
      let s1 := s.on (fun c => (upto 8).foldl (fun (d : Core) i => d.setReg (Reg.secIdPub + 4 * i) (ofLE ((pub.drop (4 * i)).take 4))) c)
      ((s1.onHost (fun h => { h with subsys := ids, retry := false })).stage 3, none)

/-- Stage 3: logic BIST (R703). -/
def bootLogic (t : BootTests) : BootStage := fun s =>
  match t.logic with
  | some d => (s.on (fun c => c.setFld Reg.bootTests 0 2 2), some (0x10, d))
  | none => (s.on (fun c => c.setFld Reg.bootTests 0 2 1), none)

/-- Stage 4: March BIST and its repair (R702). -/
def bootMarch (t : BootTests) : BootStage := fun s =>
  let used := (t.macros.filter (fun m => decide (m.2.2 ≠ 0))).length
  let s1 := s.on (fun c => c.setFld Reg.bootTests 8 10 (min 1023 used))
  let bad := s1.on (fun c => c.setFld Reg.bootTests 2 2 2)
  match t.macros.find? (fun m => decide (16 < m.2.2)) with
  | some m => (bad, some (0x11, m.1 * 4096 + m.2.1))
  | none => match t.cell with
    | some q => (bad, some (0x12, q))
    | none => (s1.on (fun c => c.setFld Reg.bootTests 2 2 (if used = 0 then 1 else 3)), none)

/-- A firmware image header (R711). -/
structure ImageHdr where
  valid : Bool
  keySlot : Nat
  ownerSlot : Nat
  raiseSvn : Bool
  svn : Nat
  revoke : Nat
  vendorPub : List Byte
  ownerPub : List Byte
  vendorSig : List Byte
  ownerSig : List Byte
  digest : List Byte
deriving DecidableEq, Repr

/-- Read a slot's image (R711, R712). -/
def imageHdr (bs : List Byte) : ImageHdr :=
  let num (o n : Nat) : Nat := ofLE ((bs.drop o).take n)
  let len := num 12 4
  { valid := num 0 4 == 0x4657494D && num 4 1 == 1 && decide (1 ≤ len) && decide (len ≤ 4 * 2 ^ 20),
    keySlot := num 5 1, ownerSlot := num 6 1, raiseSvn := (num 7 1).testBit 0, svn := num 8 4, revoke := num 20 1 % 16,
    vendorPub := (bs.drop 24).take 32, ownerPub := (bs.drop 56).take 32, vendorSig := (bs.drop 128).take 64, ownerSig := (bs.drop 192).take 64,
    digest := sha512 (bs.take 128 ++ (bs.drop 256).take len) }

/-- Whether a public key matches a slot of a range (R712). -/
def keyMatches (f : Fuses) (slot : Nat) (pub : List Byte) : Bool :=
  f.programmed.getLsbD slot && !f.revoked.getLsbD slot &&
    (sha512 pub).take 32 == (if slot < 4 then nth [] f.vendorHash slot else nth [] f.ownerHash (slot - 4))

/-- The code that verifying an image produces, if any (R706, R712): the first condition that fails. DEDUCED, log entry 86. -/
def imageFault (f : Fuses) (h : ImageHdr) : Option Nat :=
  if !h.valid then some 0x21
  else if !(decide (h.keySlot < 4) && keyMatches f h.keySlot h.vendorPub && edVerify h.vendorPub h.digest h.vendorSig) then some 0x22
  else if h.svn < f.svnMin then some 0x23
  else if f.lifecycle = 2 ∧ !(decide (4 ≤ h.ownerSlot) && decide (h.ownerSlot < 8) && keyMatches f h.ownerSlot h.ownerPub
      && edVerify h.ownerPub h.digest h.ownerSig) then some 0x22
  else none

/-- The slots in the order the ROM tries them (R713): descending SVN, slot 0 first on a tie. DEDUCED, log entry 86. -/
def slotOrder (fl : Flash) : List (Nat × ImageHdr) :=
  let a := imageHdr (nth [] fl.slots 0)
  let b := imageHdr (nth [] fl.slots 1)
  if a.svn < b.svn then [(1, b), (0, a)] else [(0, a), (1, b)]

/-- Write a 64-byte digest to its registers. -/
def Core.setDigest (c : Core) (off : Nat) (bs : List Byte) : Core :=
  (upto 16).foldl (fun (d : Core) i => d.setReg (off + 4 * i) (ofLE ((bs.drop (4 * i)).take 4))) c

/-- SHA-512 of the boot ROM, whose contents the spec does not give: free. -/
def romDigest : List Byte := (upto 64).map (fun i => BitVec.ofNat 8 (Config.analogue (2 ^ 66) i))

/-- Stages 5 and 6: the first image that verifies runs (R711 to R714). -/
def bootFirmware : BootStage := fun s =>
  let f := s.mgmt.fuses
  let tried := slotOrder s.mgmt.flash
  match tried.find? (fun p => (imageFault f p.2).isNone) with
  | none =>
    let worst := tried.foldl (fun (w : Nat × Nat) p => let c := (imageFault f p.2).getD 0; if w.1 < c then (c, p.1) else w) (0, 0)
    (s, some (worst.1, if worst.1 = 0x21 then 0 else worst.2))
  | some p =>
    let first := match tried with | q :: _ => q.1 | [] => 0
    let h := p.2
    let s1 := s.on (fun c =>
      let c1 := ((c.setFld Reg.secState 3 1 p.1).setFld Reg.secState 4 1 (b2n (p.1 != first))).setFld Reg.secState 16 7 h.svn
      (c1.setDigest Reg.secRomDigest romDigest).setDigest Reg.secFwDigest h.digest)
    ({ s1 with mgmt := { s1.mgmt with image := { raiseSvn := h.raiseSvn, svn := h.svn, keySlot := h.keySlot, revoke := h.revoke } } }, none)

/-- Stage 7: the valid copy of the repair record with the higher SEQUENCE is loaded (R514, R709). -/
def bootRepair : BootStage := fun s =>
  let ok := s.core.repair.filterMap readRepair
  let best := ok.foldl (fun (b : Option RepairCopy) r => match b with | some x => if x.seq < r.seq then some r else b | none => some r) none
  let s1 := s.on (fun c => { c with repairDue := false })
  match best with
  | some r =>
    (s1.on (fun c => ({ c with remaps := r.remaps, retired := r.retired } : Core).setReg (Reg.eccRepair 0) (field r.seq 0 16 * 2 ^ 16)
      |>.setReg (Reg.eccRetired 0) r.retired.length |>.writeRetireList), none)
  | none => (s1.on (fun c => ({ c with remaps := [], retired := [] } : Core).setBit Reg.bootStatus 16 true), none)

/-- Firmware that stops in stages 7 to 10 (R706). -/
def bootStopped (t : BootTests) : BootStage := fun s => (s, t.stopped.map (fun d => (0xF0, d)))

/-- Stage 8, DRAM: every channel trains, and failing lanes take spares (R477, R478, R704). -/
def bootTrain (t : BootTests) : BootStage := fun s =>
  let r := (upto 256).foldl (fun (p : Core × Option Nat) ch =>
    let u := p.1.useSpares ch (((t.lanes.filter (fun l => l.1 == ch)).map (·.2)).flatten) false
    if u.2 then (u.1.failChannel ch, some (p.2.getD ch)) else (u.1.setChState ch 2, p.2)) (s.core, none)
  ({ s with core := r.1 }, r.2.map (fun ch => (0x30, ch)))

/-- Stage 8, Seif: loopback of every port with light, and training of the enabled ones (R551, R705, R757). -/
def bootSeif (t : BootTests) : BootStage := fun s =>
  let dark (p : Nat) : Bool := t.dark.contains (engineOf p)
  let bad := (upto 32).filter (fun p => !dark p && t.loopback.contains p)
  let none_ := (upto 32).filter dark
  let bits (l : List Nat) : Nat := l.foldl (fun a p => a + 2 ^ p) 0
  let c1 := (upto 8).foldl (fun (d : Core) i => d.setBit Reg.pinLaser i (!t.dark.contains i)) s.core
  let c2 := (upto 32).foldl (fun (d : Core) p =>
    let d1 := d.setBit (portKey p Reg.seifPortState) 7 (!dark p)
    if dark p then (d1.setFld (portKey p Reg.seifPortState) 0 3 3).setFld (portKey p Reg.seifPortState) 3 4 5
    else if bad.contains p then d1.setBit (portKey p Reg.seifPortCtrl) 0 false
    else d1.beginTrain p) c1
  let c3 := ((c2.setReg Reg.bootSeifFail (bits bad)).setReg Reg.bootSeifNoLight (bits none_)).setReg Reg.bootSeif (bad.length + none_.length * 256)
  ({ s with core := c3.setFld Reg.bootTests 6 2 (if bad.isEmpty then 1 else 2) }, none)

/-- Stage 9: the pattern test; its failing rows are remapped or retired at once (R509 to R512, R704). -/
def bootDram (t : BootTests) : BootStage := fun s =>
  let c1 := t.rows.foldl (fun (d : Core) r =>
    let d1 := rowRemap { d with failing := d.failing ++ [r] } r.1 r.2.1 r.2.2 false
    remapCopyEnd d1 r.1 r.2.1 r.2.2) s.core
  let full := (upto 4).any (fun q => (c1.reg ((qpage q 7) * 4096 + 0x10)).testBit 4)
  let c2 := c1.setFld Reg.bootTests 4 2 (if full then 2 else if t.rows.isEmpty then 1 else 3)
  ({ s with core := c2 }, if full then some (0x31, 0) else none)

/-- Stage 10: DRAM reads zero, with valid check bits (R477). -/
def bootFill : BootStage := fun s => (s.on (fun c => c.zeroRange 0 dramEnd), none)

/-- The stages after CHECK: 2 to 10 after a cold reset, 2 and 4 to 8 after a warm one (R698, R723). -/
def stages (warm : Bool) (t : BootTests) : List BootStage :=
  [bootIdent t] ++ (if warm then [] else [bootLogic t]) ++ [bootMarch t, bootFirmware, bootRepair, bootStopped t, bootTrain t, bootSeif t]
    ++ (if warm then [] else [bootDram t, bootFill])

/-! ### Stage 1 (R700, R735) -/

/-- Nominal voltages in mV, in the order of R735; the rails the device sets are held to their set points. -/
def State.nominals (s : State) : List Nat := s.pwr.volts ++ [800, 1050, 500, 1800, 900, 3300, 750, 1200, 1800]

/-- The first rail outside its window: ±3% for the core rails 0 to 6, ±5% for the others. DESIGN CHOICE, log entry 85. -/
def State.badRail (s : State) (k : SupplyCheck) : Option Nat :=
  firstN 15 (fun i =>
    let nom := nth 0 s.nominals i
    let v := nth 0 k.rails i
    decide ((if v < nom then nom - v else v - nom) * 100 > nom * (if i < 7 then 3 else 5)))

/-- What fails in the check: a code and DETAIL. Which of the two clocks is out when they disagree and TREF_CLK is absent is free. DESIGN CHOICE, log entry 85. -/
def State.supplyFault (s : State) (k : SupplyCheck) : Option (Nat × Nat) :=
  match s.badRail k with
  | some r => some (0x01, r)
  | none => match k.tref with
    | some (a, b) =>
      if 100 < a ∧ 100 < b then some (0x02, 2) else if 100 < a then some (0x02, 0) else if 100 < b then some (0x02, 1)
      else if 200 < k.between then some (0x02, Config.freeValue s.core.free % 2) else none
    | none => if 200 < k.between then some (0x02, Config.freeValue s.core.free % 2) else none

/-- SUPPLY_CHECK (R700): a pass runs the stages that follow; a fail is repeated, and the tenth enters FAILED. DESIGN CHOICE, log entry 4. -/
def supplyCheck (s : State) (k : SupplyCheck) (t : BootTests) : State :=
  if s.mgmt.held || s.core.fld Reg.bootStatus 0 4 != 1 then s
  else
    let s1 := s.on (fun c => { c with free := c.free + 1 })
    match s.supplyFault k with
    | none => runStages (stages s.mgmt.warm t) ({ s1 with mgmt := { s1.mgmt with supplyFails := 0 } }.stage 2)
    | some e =>
      let n := s.mgmt.supplyFails + 1
      let s2 := { s1 with mgmt := { s1.mgmt with supplyFails := n } }
      if n ≥ 10 then s2.failBoot e.1 e.2 else s2

/-! ### READY (R715, R722, R725, R770) -/

/-- The fuses after the image's requests (R715). -/
def requestFuses (f : Fuses) (r : ImageReq) : Fuses :=
  let f1 := if r.raiseSvn ∧ f.svnMin < r.svn then { f with svnMin := min 64 r.svn } else f
  (upto 4).foldl (fun (g : Fuses) k =>
    let next := g.revoked ||| BitVec.ofNat 8 (2 ^ k)
    if r.revoke.testBit k ∧ k ≠ r.keySlot ∧ next &&& 0xF#8 ≠ 0xF#8 then { g with revoked := next } else g) f1

/-- READY (R715, R722): `ms` is the time since the end of reset. -/
def ready (s : State) (ms : Nat) : State :=
  if !s.mgmt.bootDone || s.mgmt.held || s.core.fld Reg.bootStatus 0 4 != 10 then s
  else
    let s1 := (s.stage 11).on (fun c =>
      let c1 := (c.setReg Reg.bootTime ms).raise 0 0
      if c1.reg Reg.bootSeifNoLight = 0 then c1 else c1.raise 0 1)
    { s1 with mgmt := { s1.mgmt with locks := insN s1.mgmt.locks 0, fuses := requestFuses s1.mgmt.fuses s1.mgmt.image } }

/-! ### Function-level reset (R689, R690, R768) -/

/-- Whether an offset is a job field of the host page (R693). -/
def hostJobField (off : Nat) : Bool :=
  off == Reg.hostWatchCfg || off == Reg.hostWatchThresh || off == Reg.hostWatchStatus || off == Reg.hostAttestCtrl ||
    (decide (Reg.hostAttestNonce ≤ off) && decide (off < Reg.hostAttestNonce + 32)) || (decide (0x2C00 ≤ off) && decide (off < 0x3000))

/-- What an FLR leaves of a register: none returns it to its reset value. A unit that is declared faulty stays so until a cold or warm reset (R181, R240,
R363). -/
def flrWord (locks : List Nat) (key v : Nat) : Option Nat :=
  let off := key % 2 ^ 26
  let page := off / 4096
  match pageBlock page with
  | none => some v
  | some (b, q) =>
    if off = Reg.arrayFault q ∨ off = Reg.smeFault q ∨ off = Reg.laneFault q then some (v % 2)
    else if b = 2 then (if hostJobField off ∨ (0x2400 ≤ off ∧ off < 0x2808) then none else some v)
    else if off = Reg.memIlv0 q ∨ off = Reg.memIlv1 q ∨ off = Reg.memIlv2 q then none
    else if !isJobBlock b then some v
    else if locks.contains page then
      match regDef? off with
      | some d => if d.rwl = 0 then none else some ((resetWord key &&& (0xFFFFFFFF - d.rwl)) ||| (v &&& d.rwl))
      | none => none
    else none

/-- Whether a byte of memory is management state that an FLR keeps: the error log regions, and MC memory in Q0's device area (R690). -/
def flrKeeps (a : Nat) : Bool :=
  match place a with
  | .erg q off => decide (0x1FF00000 ≤ off) || (q == 0 && decide (0x1FE00000 ≤ off))
  | _ => false

/-- Steps 3 to 5 of an FLR below the strands. DEDUCED, log entry 90. -/
def Core.flr (c0 : Core) (locks : List Nat) : Core :=
  let c := collDiscard c0
  let regs := c.regs.filterMap (fun e => (flrWord locks e.1 e.2).map (fun v => (e.1, v)))
  let regs := regs.filter (fun e => decide (e.2 ≠ resetWord e.1))
  let fenced := c.jobState == 3
  let gens := (upto 4).map (fun q => (Reg.collJobGen q, c.reg (Reg.collJobGen q) + 1))
  let c1 : Core :=
    { c with
      regs := regs, latch := c.latch.filter (fun e => !(match pageBlock (e.1 % 2 ^ 26 / 4096) with | some (b, _) => isJobBlock b | none => false)),
      mem := c.mem.filter (fun e => flrKeeps e.1), dram := [], poison := c.poison.filter (fun b => flrKeeps (b * 64)), dramPoison := [],
      lines := [], merge := [], errs := c.errs.filter (fun e => flrKeeps (e.1 * 8)), corrections := [], layouts := [{}, {}, {}, {}], ilv := 0,
      ilvFill := [], layoutDue := [], parked := [], txns := [], mirrorQ := [], mirrorNext := 0, mirrorMark := 0, ownUe := [], job := { twinKeys := c.job.twinKeys }, journal := 0,
      ueFound := [], samps := [], lanes := [], laneServed := [], laneSeed := [], inbox := [], stash := [], emb := {}, policy := {}, arrayPrev := [],
      coll := {} }
  let c2 := gens.foldl (fun (d : Core) g => d.setReg g.1 g.2) c1
  if fenced then c2.setFld Reg.jobState 0 3 3 else c2

/-- FUNCTION_LEVEL_RESET (R690). DEDUCED, log entry 90. -/
def functionReset (s : State) : State :=
  if !s.live then s
  else
    let s1 := if s.core.inJob ∧ s.core.pair = 2 then s.resignNow else s.cancelAll
    let s2 := s1.on Core.flushOut
    let dev (p : Nat) : Bool := match pageBlock p with | some (b, _) => !isJobBlock b | none => true
    { s2 with
      core := s2.core.flr s2.mgmt.locks,
      ctl := { stepWdog := s2.core.ct, started := s2.ctl.started, freqDue := s2.ctl.freqDue, armTime := s2.ctl.armTime.filter (fun e => dev e.1), lfsr := s2.ctl.lfsr },
      host := { subsys := s2.host.subsys, retry := false },
      mgmt := { s2.mgmt with attestAt := none } }

end Sys2Proof.Machine
end

