-- ==== Sys2Proof/Machine/Run.lean ====
section
/-!
DEFINITION. How strands run descriptors: fetch and header waits (R63 to R76, R772), arbitration (R68), the control opcodes (R79 to R82), timeouts and
watchdogs (R76, R86, R87).
-/
namespace Sys2Proof.Machine
open Sys2Proof

/-! ### Fetch (R63 to R66, R76, R78, R772) -/

/-- The program region in local addresses: start and end (R64). -/
def Core.program (c : Core) : Nat × Nat :=
  let off := c.fld Reg.cpProgBase 12 19 * 4096
  let q := off / 2 ^ 29
  let lo := off % 2 ^ 29
  let size := min 4096 (c.fld Reg.cpProgSize 0 13) * 4096
  (ergAddr q lo, ergAddr q 0 + min (lo + size) (min (2 ^ 29) (c.top q)))

/-- Opcodes that are not reserved (R72, R79, R159, R228, R278, R300, R345, R447, R473, R560). -/
def opcodes : List Nat :=
  [0x00, 0x01, 0x02, 0x03, 0x04, 0x05, 0x06, 0x07, 0x08, 0x0A, 0x0B, 0x10, 0x18, 0x19, 0x1A, 0x30, 0x31, 0x32, 0x33, 0x40, 0x50, 0x51, 0x52]
  ++ [0x60, 0x61, 0x62, 0x63, 0x64, 0x65, 0x70, 0x71, 0x72, 0x73, 0x7E, 0x7F, 0x80, 0x81, 0x82, 0x83]

/-- A fetched descriptor's header acts (R71, R58, R59, R95). A start is late against the time it waits for, START_TIME with its stagger offset. DEDUCED, log entry 27;
DESIGN CHOICE, log entry 100. -/
def State.header (s : State) (k : Nat) : State :=
  let t := s.strand k
  let s1 := match t.txn? with | some id => s.on (fun c => c.openTxn id) | none => s
  let dead := match t.txn? with | some id => (match s1.core.txn? id with | some x => x.aborted | none => false) | none => false
  if dead then s1.setStrand k (fun t => { t with phase := .done, comp := { t.comp with status := 0x21 } })
  else if t.f 1 1 1 = 1 then
    if s1.startTime t < s1.core.ct then (s1.on Core.lateEvent).setStrand k (fun t => { t with comp := { t.comp with late := true } }) |>.afterTime k
    else s1.setStrand k (fun t => { t with phase := .waitTime, tOut := s1.core.ct, entry := isCollective t.op && !s1.noEntry })
  else s1.afterTime k

/-- DESCRIPTOR_FETCH (R76): a strand fetches its next descriptor and its header begins to act; a late start follows the events that
R60 puts first. A strand that was told to stop between descriptors
halts. DEDUCED, log entries 24, 27; DESIGN CHOICE, log entry 45. -/
def descriptorFetch (s : State) (k : Nat) : State :=
  let t := s.strand k
  if !s.live || t.phase ≠ .fetch then s
  else if t.stopping then s.stopStrand k 2 false
  else
    let (lo, hi) := s.core.program
    let a := lo + 64 * t.pc
    if a + 64 > hi then s.stopStrand k 8 true
    else
      let (c1, st, bs) := s.core.read { q := s.quarter k, strand := some k, index := t.pc } a 64
      let s1 := { s with core := c1 }
      if st ≠ 0 then
        s1.setStrand k (fun t => { t with phase := .done, desc := 0, fetchFailed := true, comp := { status := st }, tOut := c1.ct })
      else
        let d := BitVec.ofNat 512 (ofLE bs)
        if !opcodes.contains (dfld d 0 0 8) then s1.stopStrand k 5 true
        else if dfld d 3 0 6 ≠ k then s1.stopStrand k 6 true
        else
          let s2 := s1.setStrand k (fun t => { t with desc := d, comp := {}, fetchFailed := false, next := none, tStart := none, sawPoison := false })
          (if s2.startsLate k then s2.before (s2.edge s2.core.ct, 3, k) else s2).header k

/-- Whether a strand's awaited event can be consumed now. -/
def State.eventReady (s : State) (k : Nat) : Bool :=
  let t := s.strand k
  t.phase == .waitEvent && decide (s.event (t.f 4 0 12) ≥ t.f 4 12 20)

/-- EVENT_WAIT_SATISFIED (R73, R74): the count is consumed in one step; a lower strand that can be served from the counter goes first. -/
def eventWait (s : State) (k : Nat) : State :=
  let t := s.strand k
  if !s.live || !s.eventReady k then s
  else if (upto k).any (fun j => s.eventReady j && (s.strand j).f 4 0 12 == t.f 4 0 12) then s
  else (s.setEvent (t.f 4 0 12) (s.event (t.f 4 0 12) - t.f 4 12 20)).setStrand k (fun t => { t with phase := .ready })

/-! ### Starting execution (R68, R84) -/

/-- The engine that a descriptor needs, by quarter; none for control and random-number opcodes. `sme` tells that an SPMM runs on the SME alone. -/
def engineFor (q op : Nat) (sme : Bool) : Option Nat :=
  if op = 0x18 ∧ sme = true then some (q * 16 + 1)
  else if op = 0x10 ∨ op = 0x18 ∨ op = 0x19 then some (q * 16)
  else if op = 0x1A then some (q * 16 + 1)
  else if 0x30 ≤ op ∧ op < 0x40 then some (q * 16 + 2)
  else if op = 0x40 then some (q * 16 + 3)
  else if 0x50 ≤ op ∧ op < 0x60 then some (q * 16 + 4)
  else if 0x60 ≤ op ∧ op < 0x70 then some (q * 16 + 5)
  else if 0x70 ≤ op ∧ op < 0x80 then some (q * 16 + 6)
  else none

/-- Whether every segment of an SPMM takes the SME path (R233): PATH is 2, SME_FAULT.FAULTY is clear, and A is sparse with no FP32 operand. An SPMM whose segments may take either
path has its place at the array. DEDUCED, log entry 79. -/
def Dx.onSme (x : Dx) : Bool :=
  let r := opRec x (x.f 40 0 31)
  x.f 24 0 2 == 2 && x.c.fld (Reg.smeFault x.acc.q) 0 1 == 0 && r.form != 0 && r.form != 4 && r.fmt != 1 && opFmt (x.f 25 3 3) != 1

/-- The engine of a strand's current descriptor. -/
def State.engine (s : State) (k : Nat) : Option Nat := engineFor (s.quarter k) (s.strand k).op ((s.strand k).op == 0x18 && (s.dx k).onSme)

/-- Whether the engine serves strand `k` next among the strands that are ready for it (R68): higher PRIO, then round-robin in ascending strand
number. A descriptor that has begun, and waits for its first draw (R450), keeps its turn. -/
def State.turn (s : State) (k : Nat) : Bool :=
  match s.engine k with
  | none => true
  | some e =>
    let prio (j : Nat) : Nat := (s.strand j).f 1 6 2
    let last := match sfind s.ctl.served e with | some j => j | none => 63
    let place (j : Nat) : Nat := (j + 63 - last) % 64
    (s.strand k).tStart.isSome || (upto 64).all (fun j => j == k || (s.strand j).phase != .ready || s.engine j != some e ||
      decide (prio j < prio k) || (prio j == prio k && decide (place k < place j)))

/-- Whether strand `k` may start a descriptor of an opcode now: its waits have ended, it is its turn, and no emergency stop holds the engines
(R664). DESIGN CHOICE, log entry 3; DEDUCED, log entry 79. -/
def State.mayRun (s : State) (k : Nat) (ok : Nat → Bool) : Bool :=
  let t := s.strand k
  s.live && t.phase == .ready && ok t.op && s.turn k && !(s.pwr.emergency && decide (0x10 ≤ t.op))

/-- Run strand `k`'s descriptor by `f`, which answers whether it is finished. Units that start from idle pay the ramp limiter first (R656). A descriptor whose first code-5 draw is
held has begun, and waits as a whole (R450). DESIGN CHOICE, log entry 3. -/
def State.runDesc (s : State) (k : Nat) (units : Dx → List Nat) (f : Dx → Dx × Bool) : State :=
  let (y, fin) := f (s.dx k)
  let us := units y
  let (s1, ok) := s.askUnits us k
  if !ok then s1
  else
    let held := (s.dx k).held y
    let s2 := ((s1.withDx k (if held then s.dx k else y)).worked us).setStrand k
      (fun t => { t with phase := if held then .ready else if fin then .done else .busy, units := us, tStart := some (t.tStart.getD s.core.ct) })
    match s.engine k with
    | some e => { s2 with ctl := { s2.ctl with served := sput s2.ctl.served e k } }
    | none => s2

/-- A descriptor that runs at once: it reads a sector of an earlier descriptor's pending drain as written (R198). DESIGN CHOICE, log entry 120. -/
def State.runNow (s : State) (k : Nat) (units : List Nat) (f : Dx → Dx) : State := s.runDesc k (fun _ => units) (fun x => (f x, true))

/-- What an outside event does to the running descriptor of a strand: `f` answers whether it has finished. -/
def State.work (s : State) (k : Nat) (f : Dx → Dx × Bool) : State :=
  if (s.strand k).phase ≠ .busy then s
  else
    let (y, fin) := f (s.dx k)
    let s1 := s.withDx k y
    if fin then s1.setStrand k (fun t => { t with phase := .done }) else s1

/-! ### Control opcodes (R79 to R82) -/

/-- Whether strand `k` may start a control opcode. -/
def State.control (s : State) (k op : Nat) : Bool := s.mayRun k (fun o => o == op)

/-- A control descriptor that completes with 0x00 after `f`. -/
def State.ends (s : State) (k : Nat) (f : Strand → Strand) : State :=
  s.setStrand k (fun t => f { t with phase := .done, tStart := some s.core.ct })

/-- NOP. -/
def nop (s : State) (k : Nat) : State := if s.control k 0x00 then s.ends k id else s

/-- JUMP. -/
def jump (s : State) (k : Nat) : State := if s.control k 0x01 then s.ends k (fun t => { t with next := some (t.f 24 0 18) }) else s

/-- What LOOP does to its loop counter, and whether it jumps (R80). -/
def loopStep (count : Nat) (c : Nat × Bool) : (Nat × Bool) × Bool :=
  let n := if c.2 then c.1 else count
  if count = 0 then ((n, true), true) else if n ≠ 0 then ((n - 1, true), true) else ((0, false), false)

/-- LOOP (R80). -/
def loopOp (s : State) (k : Nat) : State :=
  if s.control k 0x02 then
    s.ends k (fun t =>
      let lv := t.f 32 0 2
      let r := loopStep (t.f 28 0 32) (nth (0, false) t.loops lv)
      { t with loops := setNth t.loops lv r.1, next := if r.2 then some (t.f 24 0 18) else t.next })
  else s

/-- HALT. -/
def halt (s : State) (k : Nat) : State := if s.control k 0x03 then s.ends k (fun t => { t with haltNext := 1 }) else s

/-- EVENT_SET. -/
def eventSet (s : State) (k : Nat) : State :=
  if s.control k 0x04 then
    let t := s.strand k
    let first := t.f 24 0 12
    let n := min (t.f 26 0 16) 4096
    ((upto (min n (4096 - first))).foldl (fun (u : State) i => u.setEvent (first + i) (t.f 28 0 32)) s).ends k id
  else s

/-- STEP_MARK (R79, R87). -/
def stepMark (s : State) (k : Nat) : State :=
  if s.control k 0x05 then { s with ctl := { s.ctl with stepWdog := s.core.ct } }.ends k (fun t => { t with steps := (t.steps + 1) % 2 ^ 32 }) else s

/-- A commit or prepare descriptor begins to wait for its decision. -/
def State.await (s : State) (k id : Nat) (w : Waiter) : State :=
  (s.on (fun c => (c.expectTxn id).setTxn id (fun t => { t with waiters := t.waiters ++ [w] }))).setStrand k
    (fun t => { t with phase := .busy, tStart := some s.core.ct })

/-- TXN_PREPARE (R100). -/
def txnPrepare (s : State) (k : Nat) : State :=
  if s.control k 0x06 then
    let t := s.strand k
    s.await k (t.f 24 0 8) { kind := .participant, strand := k, node := (s.actOf k).getD s.core.node, coord := t.f 26 0 16, group := t.f 28 0 16,
                             needed := t.f 32 0 32, readyAt := s.core.ct }
  else s

/-- TXN_COMMIT (R96, R101): a local commit of an aborted transaction completes with 0x21 at once (R95). -/
def txnCommit (s : State) (k : Nat) : State :=
  if s.control k 0x07 then
    let t := s.strand k
    let id := t.f 24 0 8
    let aborted := match s.core.txn? id with | some x => x.aborted | none => false
    if t.f 25 0 1 = 0 ∧ aborted = true then s.ends k (fun t => { t with comp := { t.comp with status := max t.comp.status 0x21 } })
    else
      s.await k id { kind := if t.f 25 0 1 = 0 then .localCommit else .coordinator, strand := k, node := (s.actOf k).getD s.core.node,
                     group := t.f 26 0 16, needed := t.f 28 0 32, voters := t.f 32 0 32, pubTime := t.f 40 0 64, readyAt := s.core.ct }
  else s

/-- TXN_ABORT (R79, R95): of an open transaction only. DEDUCED, log entry 20. -/
def txnAbort (s : State) (k : Nat) : State :=
  if s.control k 0x08 then
    let id := (s.strand k).f 24 0 8
    let isOpen := match s.core.txn? id with | some x => x.opened | none => false
    if isOpen then (s.ends k (fun t => t)).markAborted id k else s.ends k (fun t => t)
  else s

/-- Stage a register write of a member (R92, R94): one unit for each distinct register. -/
def Core.stageReg (c : Core) (id q off v : Nat) : Core × Bool :=
  match c.txn? id with
  | none => (c, false)
  | some t =>
    let us := insN t.units (q * 2 ^ 60 + 2 ^ 59 + off)
    if unitsIn us q > c.stageLimit q then (c, false)
    else (c.setTxn id (fun t => { t with units := us, stageRegs := t.stageRegs ++ [(off, v)] }), true)

/-- One 32-bit write of STORE_IMM to register space (R81, R765). -/
def State.storeReg (s : State) (k off v : Nat) : State :=
  if !stepMayWrite off then
    (s.on (fun c => c.dropWrite (off / 4096))).setStrand k (fun t => { t with comp := { t.comp with storeDropped := true } })
  else match (s.strand k).txn? with
    | some id =>
      let (c, ok) := s.core.stageReg id (s.quarter k) off v
      if ok then { s with core := c } else s.setStrand k (fun t => { t with comp := { t.comp with status := max t.comp.status 0x21 } })
    | none => (s.beforeSwap off v).writeWord off v

/-- One 64-bit value of STORE_IMM. -/
def State.storeWord (s : State) (k a v : Nat) : State :=
  match place a with
  | .reg off => (s.storeReg k off (v % 2 ^ 32)).storeReg k (off + 4) (v / 2 ^ 32)
  | _ => s.withDx k ((s.dx k).write a (leBytes 8 v))

/-- STORE_IMM (R79, R81). -/
def storeImm (s : State) (k : Nat) : State :=
  if s.control k 0x0A then
    let t := s.strand k
    let a := t.f 24 0 64 / 8 * 8
    let s1 := (upto (min (t.f 32 0 8) 3)).foldl (fun (u : State) i => u.storeWord k (a + 8 * i) (t.f (40 + 8 * i) 0 64)) s
    s1.ends k id
  else s

/-- STRAND_START (R79, R82, R88). -/
def strandStart (s : State) (k : Nat) : State :=
  if s.control k 0x0B then
    let t := s.strand k
    let j := t.f 24 0 6
    if (s.strand j).active then s.ends k (fun t => { t with comp := { t.comp with startIgnored := true } })
    else (s.startStrand j (t.f 28 0 18) false).ends k id
  else s

/-! ### Timeouts and watchdogs (R76, R86, R87, R104) -/

/-- The timeout of a strand's descriptor in ns (R71, R89). -/
def State.timeout (s : State) (k : Nat) : Nat :=
  let d := s.core.reg Reg.cpTimeout
  let us := if (s.strand k).f 20 0 32 ≠ 0 then (s.strand k).f 20 0 32 else if d = 0 then 10000 else d
  us * 1000

/-- When the timeout of a strand's descriptor began (R76): for a collective that waits for a timed-event entry (R59), its start time. DESIGN CHOICE, log entry 119. -/
def State.timeoutFrom (s : State) (k : Nat) : Nat := if (s.strand k).phase = .waitTime then s.startTime (s.strand k) else (s.strand k).tOut

/-- DESCRIPTOR_TIMEOUT (R76): a TXN_COMMIT that has no decision aborts its transaction (R96, R104). A commit or prepare whose transaction is decided to commit and
not yet published completes with 0x21 or 0x20, and the transaction publishes. DEDUCED, log entry 19; DESIGN CHOICE, log entry 99. -/
def descriptorTimeout (s : State) (k : Nat) : State :=
  let t := s.strand k
  let waits := t.phase == .waitEvent || t.phase == .ready || t.phase == .busy || t.phase == .waitTime && t.needsEntry
  if !s.live || !waits || decide (s.core.ct < s.timeoutFrom k + s.timeout k) then s
  else if t.op = 0x07 then
    let id := t.f 24 0 8
    let decided := match s.core.txn? id with | some x => x.decided | none => false
    let s1 := if decided then s
      else if t.f 25 0 1 = 1 then s.decideAbort (t.f 26 0 16) id (s.actOf k)
      else s.markAborted id
    if (s1.strand k).phase = .done then s1 else s1.endDesc k 0x21
  else s.endDesc k 0x20

/-- STRAND_WATCHDOG (R86): a strand in RUN or WAIT_EVENT that completes nothing for STRAND_WDOG ms. -/
def strandWatchdog (s : State) (k : Nat) : State :=
  let t := s.strand k
  let ms := s.core.fld Reg.cpWdog 0 16
  if !s.live || !(t.state == 1 || t.state == 3) || decide (s.core.ct < t.tWdog + (if ms = 0 then 100 else ms) * 1000000) then s
  else s.cancelStrand k 7

/-- STEP_WATCHDOG (R87, R613). -/
def stepWatchdog (s : State) : State :=
  let ms := s.core.fld Reg.cpWdog 16 16
  if !s.live || !s.running || decide (s.core.ct < s.ctl.stepWdog + (if ms = 0 then 1000 else ms) * 1000000) then s
  else
    let s1 := { s.on (fun c => c.raise 5 2) with ctl := { s.ctl with stepWdog := s.core.ct } }
    if s1.core.inJob then s1.onJob (fun j => { j with abortDue := true }) else s1

/-- DESCRIPTOR_COMPLETE (R77). Descriptors of lower strands that are done and have additions to make complete first, in ascending strand number (R419). DEDUCED, log
entry 116. -/
def descriptorComplete (s : State) (k : Nat) : State :=
  if !s.awake then s
  else
    let adds (j : Nat) : Bool := (s.strand j).phase == .done && !(s.strand j).adds.isEmpty
    ((if adds k then (upto k).filter adds else []).foldl (fun (u : State) j => u.complete j true) s).complete k true

end Sys2Proof.Machine
end

