-- ==== Sys2Proof/Machine/Sampler.lean ====
section
/-!
DEFINITION. The neighbour sampler (R263 to R299): graph records, owners and halos, draws, local numbering, the sample log, and the service
of remote requests.
-/
namespace Sys2Proof.Machine
open Sys2Proof

/-- A graph record (R264). -/
structure GraphRec where
  vfirst : Nat
  vcount : Nat
  id : Nat
  rowPtr : Nat
  nbr : Nat
  cumw : Nat
  ebase : Nat
  part : Nat
  parts : Nat
  halo : Nat
  haloLog : Nat
deriving DecidableEq, Repr

/-- The graph record at an Erg offset. -/
def graphRec (x : Dx) (off : Nat) : GraphRec :=
  let a := x.erg (off / 64 * 64)
  { vfirst := x.at a 8 % 2 ^ 40, vcount := x.at (a + 8) 4, id := x.at (a + 12) 2, rowPtr := x.at (a + 16) 6, nbr := x.at (a + 24) 6,
    cumw := x.at (a + 32) 6, ebase := x.at (a + 40) 8 % 2 ^ 40, part := x.at (a + 48) 4 % 2 ^ 31, parts := x.at (a + 52) 4 % 2 ^ 17,
    halo := x.at (a + 56) 4 % 2 ^ 31, haloLog := max 4 (min 24 (x.at (a + 60) 1 % 32)) }

/-- The search of R266: the first index in `[lo, hi)` whose entry exceeds the key, and the indices it probed. -/
def searchUp (get : Nat → Nat) (key : Nat) : Nat → Nat → Nat → Nat × List Nat
  | 0, lo, _ => (lo, [])
  | fuel + 1, lo, hi =>
    if lo < hi then
      let mid := (lo + hi) / 2
      let r := if get mid > key then searchUp get key fuel lo mid else searchUp get key fuel (mid + 1) hi
      (r.1, mid :: r.2)
    else (lo, [])

/-- The owner of a vertex, none when it is unknown (R267), with the effects of reading the partition table. -/
def ownerOf (x : Dx) (g : GraphRec) (v : Nat) : Dx × Option Nat :=
  let pb := ergByte g.part
  let r := searchUp (fun i => x.at (pb + 8 * i) 8 % 2 ^ 40) v 40 0 g.parts
  let y := r.2.foldl (fun y i => y.touch (pb + 8 * i) 8) x
  if r.1 = 0 then (y, none)
  else
    let node := field (x.at (pb + 8 * (r.1 - 1)) 8) 40 16
    if node = 0xFFFF ∨ (node = x.c.me ∧ ¬ (g.vfirst ≤ v ∧ v - g.vfirst < g.vcount)) then (y, none) else (y, some node)

/-- A row's source: degree, address of its neighbour words, address of its weights (0 none), identifier of its first edge. -/
structure RowAt where
  degree : Nat
  nbr : Nat
  cumw : Nat
  ebase : Nat
deriving DecidableEq, Repr

/-- The row of an owned vertex (R264, R274). -/
def localRow (x : Dx) (g : GraphRec) (v : Nat) : Dx × RowAt :=
  let a := g.rowPtr + 8 * (v - g.vfirst)
  let y := x.touch a 16
  let lo := x.at a 8
  (y, { degree := min (x.at (a + 8) 8 - lo) (2 ^ 32 - 1), nbr := g.nbr + 8 * lo, cumw := if g.cumw = 0 then 0 else g.cumw + 4 * lo,
        ebase := g.ebase + lo })

/-- The halo lookup of R269: at most eight probes from the vertex's place, wrapping. -/
def haloProbe (base lg v : Nat) : Nat → Nat → Dx → Dx × Option RowAt
  | 0, _, x => (x, none)
  | fuel + 1, i, x =>
    let a := base + 64 * i
    let y := x.touch a 64
    if ¬ (x.at a 8).testBit 63 then (y, none)
    else if x.at a 8 % 2 ^ 40 = v then
      (y, some { degree := x.at (a + 32) 4, nbr := x.at (a + 8) 6, cumw := x.at (a + 16) 6, ebase := x.at (a + 24) 8 % 2 ^ 40 })
    else haloProbe base lg v fuel ((i + 1) % 2 ^ lg) y

/-- The halo row of a vertex, if the halo index holds it. -/
def haloRow (x : Dx) (g : GraphRec) (v : Nat) : Dx × Option RowAt :=
  if g.halo = 0 then (x, none)
  else haloProbe (ergByte g.halo) g.haloLog v 8 (v * 0x9E3779B97F4A7C15 % 2 ^ 64 / 2 ^ (64 - g.haloLog)) x

/-- H of slot σ (R272, R439). -/
def sampleH (key step l v s : Nat) : Nat := pk (kd key 0xFFFF step) ((0xF000 ||| (l * 2 ^ 9 + s)) * 2 ^ 48 + v) / 2 ^ 32

/-- A uniform draw (R273): positions with the slot that took each, in ascending position. -/
def uniformDraw (h : Nat → Nat) (d f : Nat) : List (Nat × Nat) :=
  if d ≤ f then (upto d).map (fun p => (p, p))
  else
    let s : SMap Nat := (upto f).foldl (fun s i =>
      let j := d - f + i
      let t := h i * (j + 1) / 2 ^ 32
      sput s (if (sfind s t).isSome then j else t) i) []
    s

/-- The attempts of one slot of a weighted draw (R275). -/
def weightedSlot (h : Nat → Nat) (w : Nat → Nat) (d slot : Nat) (s : SMap Nat) : Nat → SMap Nat
  | 0 => s
  | n + 1 =>
    let a := 7 - n
    let e := (searchUp w (h (slot + 64 * a) * w (d - 1) / 2 ^ 32) 40 0 d).1
    if e < d ∧ sfind s e = none then sput s e slot else weightedSlot h w d slot s n

/-- A weighted draw (R275). -/
def weightedDraw (h : Nat → Nat) (w : Nat → Nat) (d f : Nat) : List (Nat × Nat) :=
  if d = 0 ∨ w (d - 1) = 0 then []
  else
    let p := (upto d).filter (fun e => decide (w e > (if e = 0 then 0 else w (e - 1))))
    if p.length ≤ f then p.mapIdx (fun i e => (e, i))
    else (upto f).foldl (fun s slot => weightedSlot h w d slot s 8) []

/-- The edges taken from a row (R276, R277): slot, source vertex, global edge identifier, in ascending position. -/
def edgesTaken (x : Dx) (r : RowAt) (mode fanout : Nat) (h : Nat → Nat) : Dx × List (Nat × Nat × Nat) :=
  let weighted := decide (mode = 1 ∧ r.cumw ≠ 0)
  let y := if weighted then x.touch r.cumw (4 * r.degree) else x
  let ps := if weighted then weightedDraw h (fun i => x.at (r.cumw + 4 * i) 4) r.degree fanout else uniformDraw h r.degree fanout
  let y := ps.foldl (fun y p => y.touch (r.nbr + 8 * p.1) 8) y
  (y, ps.map (fun p => (p.2, x.at (r.nbr + 8 * p.1) 8 % 2 ^ 40, (r.ebase + p.1) % 2 ^ 40)))

/-- The descriptor fields of SAMPLE (R278). -/
structure SampDesc where
  mode : Nat
  transpose : Bool
  norm : Bool
  wadi : Nat
  layers : Nat
  size : Nat
  seeds : Nat
  seedBase : Nat
  graph : Nat
  log : Nat
  step : Nat
  key : Nat
  fanout : List Nat
deriving DecidableEq, Repr

/-- Read the fields; `steps` is CP_STRAND_STEPS of the strand. -/
def sampDesc (x : Dx) (steps : Nat) : SampDesc :=
  { mode := if x.f 24 0 2 = 1 then 1 else 0, transpose := x.f 24 2 1 = 1, norm := x.f 24 3 1 = 1, wadi := 8 + x.f 24 6 2,
    layers := max 1 (min 8 (x.f 25 0 4)), size := max 1 (x.f 26 0 16) * 4096, seeds := x.f 28 0 24, seedBase := x.erg (x.f 32 0 31),
    graph := x.f 36 0 31, log := x.erg (x.f 40 0 31 / 4096 * 4096),
    step := (x.f 44 0 32 + (if x.f 24 4 1 = 1 then steps else 0)) % 2 ^ 32, key := x.f 48 0 64,
    fanout := (upto 8).map (fun l => max 1 (min 64 (x.f (56 + l) 0 8))) }

/-- Where each section of a sample log lies, by the rows, entries and sources of its layers (R283): seed map, vertex map, then per layer row
pointer, columns, values and edge words, then per layer the transposed row pointer, columns, values and entry indices. -/
structure LogLay where
  seed : Nat := 0
  vmap : Nat := 0
  fwd : List (List Nat) := []
  tr : List (List Nat) := []
  top : Nat := 0
deriving DecidableEq, Repr

/-- Sections at 128-byte boundaries from `o`: their offsets and the end. -/
def layOut (o : Nat) : List Nat → List Nat × Nat
  | [] => ([], o)
  | n :: ns => let a := ceilDiv o 128 * 128; let r := layOut (a + n) ns; (a :: r.1, r.2)

/-- The layout of a log. -/
def logLay (seeds vtotal : Nat) (shape : List (Nat × Nat × Nat)) (tr : Bool) : LogLay :=
  let (a, o) := layOut 1024 [4 * seeds, 8 * vtotal]
  let step (f : Nat × Nat × Nat → List Nat) (p : List (List Nat) × Nat) (s : Nat × Nat × Nat) : List (List Nat) × Nat :=
    let r := layOut p.2 (f s); (p.1 ++ [r.1], r.2)
  let (fw, o1) := shape.foldl (step (fun s => [4 * (s.1 + 1), 4 * s.2.1, 2 * s.2.1, 8 * s.2.1])) ([], o)
  let (ts, o2) := if tr then shape.foldl (step (fun s => [4 * (s.2.2 + 1), 4 * s.2.1, 2 * s.2.1, 4 * s.2.1])) ([], o1) else ([], o1)
  { seed := nth 0 a 0, vmap := nth 0 a 1, fwd := fw, tr := ts, top := o2 }

/-- Rows, entries and sources of the layers of a run. -/
def SampRun.shape (r : SampRun) : List (Nat × Nat × Nat) :=
  r.layers.mapIdx (fun l es => (nth 0 r.bounds (l + 1) - nth 0 r.bounds l, es.length, nth 0 r.bounds (l + 2)))

/-- The 32 bytes of a CSR operand record with SF16 values (R226, R285). -/
def csrRec (count a0 a1 a2 : Nat) : List Byte :=
  leBytes 1 (3 + 3 * 8) ++ leBytes 3 0 ++ leBytes 4 count ++ leBytes 8 a0 ++ leBytes 8 a1 ++ leBytes 8 a2

/-- Row pointer of entries whose rows are `f` of each, over `n` rows. -/
def rowPointer (n : Nat) (rows : List Nat) : List Nat := (upto (n + 1)).map (fun r => (rows.filter (fun i => decide (i < r))).length)

/-- Write the log and its header (R283 to R287). Nothing beyond the first three quarters of the region is written (R279). DESIGN CHOICE, log entry 39. -/
def writeLog (x : Dx) (s : SampDesc) (r : SampRun) : Dx :=
  let g := graphRec x s.graph
  let vt := r.verts.length
  let lay := logLay s.seeds vt r.shape s.transpose
  let put (y : Dx) (o : Nat) (bs : List Byte) : Dx := y.write (s.log + o) (bs.take (s.size * 3 / 4 - o))
  let words (n : Nat) (l : List Nat) : List Byte := (l.map (leBytes n)).flatten
  let value (es : List (Nat × Nat × Nat × Nat)) (e : Nat × Nat × Nat × Nat) : Nat :=
    let k := Fp.ofInt e.2.2.1
    let tot : Nat := ((es.filter (fun t => t.1 == e.1)).map (fun t => t.2.2.1)).foldl (· + ·) 0
    (roundTo 3 Rnd.nearest 0 (if s.norm then Fp.div k (Fp.ofInt tot) else k)).bits
  let n := r.layers.length
  let perLayer (f : Nat → Nat) : List Byte := words 4 ((upto 8).map (fun l => if l < n then f l else 0))
  let fw (l i : Nat) : Nat := nth 0 (nth [] lay.fwd l) i
  let tr (l i : Nat) : Nat := nth 0 (nth [] lay.tr l) i
  let ents (l : Nat) : List (Nat × Nat × Nat × Nat) := nth [] r.layers l
  let recs (on : Bool) (f : Nat → Nat → Nat) : List Byte := ((upto 8).map (fun l =>
    if l < n ∧ on then csrRec (ents l).length (s.log + f l 0) (s.log + f l 1) (s.log + f l 2) else leBytes 32 0)).flatten
  let header : List Byte := words 4 [vt, n, s.seeds, x.comp.drops] ++ words 4 ((upto 9).map (fun i => if i < r.bounds.length then nth 0 r.bounds i else vt))
    ++ leBytes 12 0 ++ perLayer (fun l => (ents l).length) ++ leBytes 32 0 ++ recs true fw ++ recs s.transpose tr
    ++ perLayer (fun l => fw l 3) ++ perLayer (fun l => if s.transpose then tr l 3 else 0) ++ words 4 [lay.seed, lay.vmap] ++ leBytes 312 0
  let y := put x 0 header
  let y := put y lay.seed (words 4 r.seeds)
  let y := put y lay.vmap (words 8 (r.verts.mapIdx (fun i v => v + ((ownerOf x g v).2.getD 0) * 2 ^ 40 + (sget 0 r.flags i) * 2 ^ 56)))
  let y := (upto n).foldl (fun y l =>
    let es := ents l
    let b := nth 0 r.bounds l
    let y := put y (fw l 0) (words 4 (rowPointer (nth 0 r.bounds (l + 1) - b) (es.map (fun e => e.1 - b))))
    let y := put y (fw l 1) (words 4 (es.map (fun e => e.2.1)))
    let y := put y (fw l 2) (words 2 (es.map (value es)))
    put y (fw l 3) (words 8 (es.map (fun e => e.2.2.2 + (e.2.2.1 % 128) * 2 ^ 40)))) y
  if ¬ s.transpose then y
  else (upto n).foldl (fun y l =>
    let es := (ents l).mapIdx (fun i e => (i, e))
    let ts := (sortBy (fun a b => decide (a.2.2.1 < b.2.2.1 ∨ (a.2.2.1 = b.2.2.1 ∧ a.2.1 ≤ b.2.1))) es)
    let y := put y (tr l 0) (words 4 (rowPointer (nth 0 r.bounds (l + 2)) (ts.map (fun t => t.2.2.1))))
    let y := put y (tr l 1) (words 4 (ts.map (fun t => t.2.1)))
    let y := put y (tr l 2) (words 2 (ts.map (fun t => value (ents l) t.2)))
    put y (tr l 3) (words 4 (ts.map (·.1)))) y

/-- End a SAMPLE: the log and the latency (R288, R298, R299). DESIGN CHOICE, log entry 39. -/
def sampFinish (x : Dx) (s : SampDesc) (r : SampRun) : Dx :=
  let y := writeLog x s r
  let (y, lat) := y.fresh
  y.core (fun c => c.setReg (Reg.sampLatency x.acc.q) lat)

/-- The local identifier of a vertex, if it has one. -/
def SampRun.idOf (r : SampRun) (v : Nat) : Option Nat := r.verts.findIdx? (fun w => w == v)

/-- A SAMPLE drops `n` entries, the lowest at `i`: in its record, and in SAMP_DROP at once, however it ends (R288, R290, R298). -/
def Dx.sampDrop (x : Dx) (n i : Nat) : Dx := { x with c := x.c.inc (Reg.sampDrop x.acc.q) n, comp := x.comp.dropAt n i }

/-- Edges taken for a SAMPLE of this quarter are counted as they come (R298). -/
def Dx.tookEdges (x : Dx) (n : Nat) : Dx := x.core (fun c => c.inc64 (Reg.sampEdgesLo x.acc.q) n)

/-- Close the current layer once every row is known (R281, R285, R286, R288 to R290). Answers whether the layer was written. -/
def sampClose (x : Dx) (s : SampDesc) (r : SampRun) : Dx × SampRun × Bool :=
  let g := graphRec x s.graph
  let l := r.layer
  let lo := nth 0 r.bounds l
  let hi := nth 0 r.bounds (l + 1)
  let rows := r.rows.mapIdx (fun i w => (i, w))
  -- sources, dropped when unknown
  let (x0, taken, drops) := rows.foldl (fun (p : Dx × List (Nat × Nat × Nat) × List Nat) iw =>
    match iw.2 with
    | .edges es => es.foldl (fun (p : Dx × List (Nat × Nat × Nat) × List Nat) e =>
        let (y, o) := ownerOf p.1 g e.2.1
        if o.isSome then (y, p.2.1 ++ [(iw.1, e.2.1, e.2.2)], p.2.2)
        else (y, p.2.1, p.2.2 ++ [(l + 1) * 2 ^ 40 + iw.1 * 256 + e.1 % 256])) p
    | _ => (p.1, p.2.1, p.2.2 ++ [(l + 1) * 2 ^ 40 + iw.1 * 256])) (x, [], [])
  let new := (taken.filter (fun t => (r.idOf t.2.1).isNone)).foldl (fun a t => insN a t.2.1) []
  let verts := r.verts ++ new
  let idOf (v : Nat) : Nat := (verts.findIdx? (fun w => w == v)).getD 0
  -- merge edges that share a source: key row · 2^24 + source
  let merged : SMap (Nat × Nat) := taken.foldl (fun m t =>
    let k := t.1 * 2 ^ 24 + idOf t.2.1
    match sfind m k with
    | some (n, e) => sput m k (n + 1, min e t.2.2)
    | none => sput m k (1, t.2.2)) []
  let ents := merged.map (fun p => (lo + p.1 / 2 ^ 24, p.1 % 2 ^ 24, p.2.1, p.2.2))
  let r1 := { r with verts := verts, bounds := r.bounds ++ [verts.length], layers := r.layers ++ [ents], layer := l + 1, rows := [] }
  let fits := decide ((logLay s.seeds verts.length r1.shape s.transpose).top ≤ s.size * 3 / 4) &&
    decide (8 * new.length ≤ 7 * (s.size / 32)) && decide (verts.length ≤ 2 ^ 24)
  if !fits then (x0.sampDrop (hi - lo) ((l + 1) * 2 ^ 40), { r with rows := [] }, false)
  else (drops.foldl (fun y d => y.sampDrop 1 d) x0, r1, true)

/-- Open the next layer: read each frontier row or ask its owner (R270, R292). -/
def sampOpen (x : Dx) (s : SampDesc) (r : SampRun) : Dx × SampRun :=
  let g := graphRec x s.graph
  let l := r.layer
  let lo := nth 0 r.bounds l
  let hi := nth 0 r.bounds (l + 1)
  (upto (hi - lo)).foldl (fun (p : Dx × SampRun) i =>
    let v := nth 0 p.2.verts (lo + i)
    let f := nth 1 s.fanout l
    let take (y : Dx) (row : RowAt) (r : SampRun) : Dx × SampRun :=
      let (y, es) := edgesTaken y row s.mode f (sampleH s.key s.step l v)
      (y.tookEdges es.length, { r with rows := r.rows ++ [.edges es] })
    match ownerOf p.1 g v with
    | (y, none) => (y, { p.2 with rows := p.2.rows ++ [.dropped] })
    | (y, some o) =>
      if o = x.c.me then let (y, row) := localRow y g v; take y row p.2
      else match haloRow y g v with
        | (y, some row) =>
          take (y.core (fun c => c.inc (Reg.sampHaloHits x.acc.q) 1)) row { p.2 with flags := sput p.2.flags (lo + i) 1 }
        | (y, none) =>
          ((y.core (fun c => c.inc (Reg.sampRemoteSent x.acc.q) 1)).send o s.wadi
            (.sampleRequest { node := x.c.me, strand := r.strand, graph := g.id, v := v, l := l, fanout := f, mode := s.mode, key := s.key, step := s.step }),
            { p.2 with flags := sput p.2.flags (lo + i) 2, rows := p.2.rows ++ [.waiting] })) (x, r)

/-- Run layers until one waits for remote answers or the log is written; none means that the descriptor is done. -/
def sampRun (s : SampDesc) : Nat → Dx → SampRun → Dx × Option SampRun
  | 0, x, r => (sampFinish x s r, none)
  | fuel + 1, x, r =>
    if r.rows.any (fun w => w == .waiting) then (x, some r)
    else
      let (x1, r1, ok) := sampClose x s r
      if ¬ ok ∨ r1.layer ≥ s.layers then (sampFinish x1 s r1, none)
      else let (x2, r2) := sampOpen x1 s r1; sampRun s fuel x2 r2

/-- SAMPLE (R278 to R291): a run that waits for answers, or none when the descriptor is done. -/
def sample (x0 : Dx) (strand steps : Nat) : Dx × Option SampRun :=
  let x1 := { x0 with acc := { x0.acc with narrow := true } }
  let s := sampDesc x1 steps
  let x2 := (x1.touch (x1.erg (s.graph / 64 * 64)) 64).touch s.seedBase (8 * s.seeds)
  let g := graphRec x2 s.graph
  let (x3, r) := (upto s.seeds).foldl (fun (p : Dx × SampRun) i =>
    let v := x2.at (s.seedBase + 8 * i) 8 % 2 ^ 40
    let (y, o) := ownerOf p.1 g v
    if o.isNone then (y.sampDrop 1 (i * 256), { p.2 with seeds := p.2.seeds ++ [2 ^ 31] })
    else match p.2.idOf v with
      | some k => (y, { p.2 with seeds := p.2.seeds ++ [k] })
      | none => (y, { p.2 with seeds := p.2.seeds ++ [p.2.verts.length], verts := p.2.verts ++ [v] })) (x2, { strand := strand })
  let r := { r with bounds := [0, r.verts.length] }
  let (x4, r4) := sampOpen x3 s r
  sampRun s 8 x4 r4

/-- SAMPLE_REMOTE_ANSWER (R294): the answer fills its row, and the run goes on when no other answer is awaited. -/
def sampleAnswer (x0 : Dx) (steps : Nat) (r : SampRun) (a : SampAns) : Dx × Option SampRun :=
  let l := a.l
  let v := a.v
  let es := a.edges
  let poison := a.poison
  let x := { x0 with acc := { x0.acc with narrow := true } }
  let s := sampDesc x steps
  let lo := nth 0 r.bounds r.layer
  match r.verts.findIdx? (fun w => w == v) with
  | none => (x, some r)
  | some i =>
    if l ≠ r.layer ∨ nth .dropped r.rows (i - lo) ≠ .waiting then (x, some r)
    else
      let row : SampRow := match es with
        | some e => .edges (e.mapIdx (fun k t => (k, t.1 % 2 ^ 40, t.2 % 2 ^ 40)))
        | none => .dropped
      let x := if es.isNone then x.core (fun c => c.raise (qpage x.acc.q 2) 1) else x
      let x := x.tookEdges ((es.getD []).length)
      let x := if poison then { x.st 0x31 with acc := { x.acc with poison := true } } else x
      sampRun s 9 x { r with rows := setNth r.rows (i - lo) row }

/-- SAMPLE_REMOTE_REQUEST (R293, R294) served on the quarter of `x`: the edges drawn, or no row. A request for the adopted node uses the graph record at
JOB_ADOPT_GRAPH (R631). -/
def sampleServe (x : Dx) (a : SampReq) : Dx × Option (List (Nat × Nat)) :=
  let v := a.v
  let off := if x.c.actAs.isSome then x.c.fld Reg.jobAdoptGraph 0 31 else x.c.fld (Reg.sampGraph x.acc.q) 0 31
  let x := { x with acc := { x.acc with narrow := true } }
  let y := x.touch (x.erg (off / 64 * 64)) 64
  let g := graphRec y off
  if g.id ≠ a.graph then (y.core (fun c => c.raise (qpage x.acc.q 2) 2), none)
  else if ¬ (g.vfirst ≤ v ∧ v - g.vfirst < g.vcount) then (y, none)
  else
    let (y, row) := localRow y g v
    let (y, es) := edgesTaken y row a.mode a.fanout (sampleH a.key a.step a.l v)
    (y.core (fun c => c.inc (Reg.sampRemoteServed x.acc.q) 1), some (es.map (fun e => e.2)))

end Sys2Proof.Machine
end

