-- ==== Sys2Proof/Machine/Engines.lean ====
section
/-!
DEFINITION. The commands that run an engine's descriptor and the messages that engines exchange (R18, R68): products, sparse engines, sampling, embedding
tables, lane processors, collectives, copies, training support and random numbers.
-/
namespace Sys2Proof.Machine
open Sys2Proof

/-! ### Common parts -/

/-- Whether the device takes the packets of other devices: past boot, and not FENCED (R622). -/
def State.serves (s : State) : Bool := s.live && s.core.jobState != 3

/-- The first quarter that serves table requests; Q0 where none is enabled (R318). -/
def State.embQ (s : State) : Nat := (embQuarter s.core).getD 0

/-- Whether strand `k` may start its descriptor of opcode `op` on an engine now. DESIGN CHOICE, log entry 3. -/
def State.engineRun (s : State) (k op : Nat) : Bool := s.mayRun k (fun o => o == op)

/-- Header flag DET of the descriptor (R71). -/
def Strand.det (t : Strand) : Bool := t.f 1 4 1 == 1

/-- A command to a busy strand's engine: nothing happens outside operation, or while an emergency stop holds the engines (R664, R698). DEDUCED, log entry 79. -/
def State.event? (s : State) (f : State → State) : State := if s.live && !s.pwr.emergency then f s else s

/-! ### The matrix array and the SME (R159, R228, R243, R247) -/

/-- Whether a quarter's array is declared faulty (R181). DEDUCED, log entry 33. -/
def State.arrayDead (s : State) (q : Nat) : Bool := s.core.fld (Reg.arrayFault q) 0 1 == 1

/-- What the array ran, as the next descriptor on it sees it (R151): STAT and SHADOW_DRAIN of a descriptor that took clocks of it since `x`. DEDUCED, log entry 34. -/
def Dx.ran (y x : Dx) (stat : Nat) : Dx :=
  if y.c.reg64 (Reg.arrayBusyLo x.acc.q) = x.c.reg64 (Reg.arrayBusyLo x.acc.q) then y
  else y.core (fun c => { c with arrayPrev := sput c.arrayPrev x.acc.q ((if stat = 3 then 0 else stat) + 4 * x.f 27 2 1 + 8) })

/-- A product on the array, which completes at once with 0x40 when the array is faulty (R181). DEDUCED, log entry 33. -/
def State.product (s : State) (k op : Nat) (f : Dx → Dx) : State :=
  if !s.engineRun k op then s
  else if s.arrayDead (s.quarter k) then s.runNow k [] (fun x => x.st 0x40)
  else s.runNow k [unitArray (s.quarter k)] f

/-- MATMUL (R159 to R227): `fails` are the recompute units whose checks fail. -/
def matmulRun (s : State) (k : Nat) (fails : List CheckFail) : State :=
  let t := s.strand k
  s.product k 0x10 (fun x => (matmul x t.det (sget 0 s.core.arrayPrev (s.quarter k)) fails).ran x (t.f 24 0 2))

/-- SPMM (R229 to R241): it takes the units of the paths its segments took. -/
def spmmRun (s : State) (k : Nat) (fails : List CheckFail) (slabs : List SlabFail) : State :=
  if !s.engineRun k 0x18 then s
  else
    let q := s.quarter k
    let array (x : Dx) : Bool := x.c.reg64 (Reg.arrayBusyLo q) != s.core.reg64 (Reg.arrayBusyLo q)
    let sme (x : Dx) : Bool := x.c.fld (Reg.smeSegments q) 16 16 != s.core.fld (Reg.smeSegments q) 16 16 ||
      x.c.reg64 (Reg.smeMatchLo q) != s.core.reg64 (Reg.smeMatchLo q)
    s.runDesc k (fun x => (if array x then [unitArray q] else []) ++ if sme x then [unitSme q] else [])
      (fun x => let y := spmm x (sget 0 s.core.arrayPrev q) fails slabs; (y.ran x 0, true))

/-- MATMUL_S28 (R243 to R246). -/
def s28Run (s : State) (k : Nat) (fails : List CheckFail) : State :=
  s.product k 0x19 (fun x => (matmulS28 x (sget 0 s.core.arrayPrev (s.quarter k)) fails).ran x 0)

/-- SP_CONVERT (R247). -/
def convertRun (s : State) (k : Nat) : State := if s.engineRun k 0x1A then s.runNow k [] spConvert else s

/-- THRESH_TUNE (R251) and MARGIN_ADAPT (R260): policies of the MC. -/
def tuneThresh (s : State) (q : Nat) (r : PathCompare) : State := if s.live then s.on (fun c => threshTune c q r) else s

/-- MARGIN_ADAPT (R260). -/
def adaptMargin (s : State) : State := if s.live then s.on marginAdapt else s

/-! ### Sampling (R278 to R294) -/

/-- A sampler step leaves a run that waits, or a descriptor that is done. -/
def sampLeft (k : Nat) (r : Dx × Option SampRun) : Dx × Bool :=
  let others := r.1.c.samps.filter (fun t => t.strand != k)
  match r.2 with
  | some run => (r.1.core (fun c => { c with samps := others ++ [run] }), false)
  | none => (r.1.core (fun c => { c with samps := others }), true)

/-- SAMPLE (R278). -/
def sampleRun (s : State) (k : Nat) : State :=
  if s.engineRun k 0x40 then s.runDesc k (fun _ => [unitSampler (s.quarter k)]) (fun x => sampLeft k (sample x k (s.strand k).steps)) else s

/-- The quarter that serves a sampling request (R293, R631). -/
def State.sampQ (s : State) (as : Option Nat) : Option Nat :=
  if as.isSome then some (s.core.fld Reg.jobAdopt 16 2) else firstN 4 (fun q => s.core.fld (Reg.sampServe q) 0 1 == 1)

/-- What a SAMPLE_REMOTE_REQUEST does (R293, R294): the answer goes back on the wadi of the request. -/
def State.sampServe (s : State) (dst wadi : Nat) (r : SampReq) : State :=
    let as := s.serveAs dst
    let answer (x : Dx) (es : Option (List (Nat × Nat))) : Dx :=
      x.send r.node wadi (.sampleAnswer { strand := r.strand, l := r.l, v := r.v, edges := es, poison := x.acc.poison })
    match s.sampQ as with
    | none => s.withDev (answer (s.dev 0 as) none)
    | some q => let (x, es) := sampleServe (s.dev q as) r; s.withDev (answer x es)

/-- What a SAMPLE_REMOTE_ANSWER (R294) does at the strand that asked. -/
def State.sampTake (s : State) (dst : Nat) (a : SampAns) : State :=
  match s.core.samps.find? (fun r => r.strand == a.strand) with
  | some r =>
    if s.strandFor a.strand dst then s.work a.strand (fun x => sampLeft a.strand (sampleAnswer x (s.strand a.strand).steps r a)) else s
  | none => s

/-! ### Messages for the samplers and the gather engines (R293, R294, R313 to R337) -/

/-- What a message for the gather engine does, as the node it is addressed to. -/
def State.embServe (s : State) (dst : Nat) (f : Dx → Dx) : State := s.withDev (f (s.dev s.embQ (s.serveAs dst)))

/-- What an EMB_LOOKUP_ANSWER (R315) does: a group's partial at its strand, or a migrated row's values at the node that pools it (R316). -/
def State.lookTake (s : State) (dst src : Nat) (a : EmbAns) : State :=
  match a with
  | .group _ k _ _ _ _ _ => if s.strandFor k dst then s.work k (fun x => lookupAnswer x k src a) else s
  | .row serve r vals poison => s.embServe dst (fun x => rowIn x serve r vals poison)

/-- What a message for a sampler or a gather engine does, once the engine acts on it; its sender stands in `src`. -/
def State.serveMsg (s : State) (m : Msg) : State :=
  let src := m.src.getD 0xFFFF
  match m.body with
  | .sampleRequest r => s.sampServe m.dst m.wadi r
  | .sampleAnswer a => s.sampTake m.dst a
  | .embRequest r => s.embServe m.dst (fun x => embServeReq x r)
  | .embAnswer a => s.lookTake m.dst src a
  | .bagGrad g => s.embServe m.dst (fun x => expandGrad x g)
  | .contrib c => s.embServe m.dst (fun x => contribIn x c)
  | .contribAck table tag path => s.embServe m.dst (fun x => ackContrib x table tag (if 1 < path.length then path.drop 1 else path))
  | .embFlush table tag =>
    s.embServe m.dst (fun x => x.emb (fun e => let w := e.window table tag x.c.actAs.isSome; e.setWindow { w with flushes := insN w.flushes src }))
  | .forwardFlush table tag =>
    s.embServe m.dst (fun x => x.emb (fun e => let w := e.window table tag x.c.actAs.isSome; e.setWindow { w with forwards := insN w.forwards src }))
  | .migCopy c => s.embServe m.dst (fun x => migrationCopy x c)
  | .migCopyAck table r slot => s.embServe m.dst (fun x => migrationAck x table r slot)
  | .migNotice n => s.embServe m.dst (fun x => x.emb (fun e => { e with notes := e.notes ++ [n] }))
  | _ => s

/-- The unit that a message gives work (R656): the sampler or gather engine that serves it, or that of the strand it answers; none for acknowledgements, markers and notices. DEDUCED, log entry 78. -/
def State.msgUnit (s : State) (m : Msg) : Option Nat :=
  match m.body with
  | .sampleRequest _ => (s.sampQ (s.serveAs m.dst)).map unitSampler
  | .sampleAnswer a => some (unitSampler (s.quarter a.strand))
  | .embAnswer (.group _ k _ _ _ _ _) => some (unitGather (s.quarter k))
  | .embAnswer _ => some (unitGather s.embQ)
  | .embRequest _ => some (unitGather s.embQ)
  | .bagGrad _ => some (unitGather s.embQ)
  | .contrib _ => some (unitGather s.embQ)
  | .migCopy _ => some (unitGather s.embQ)
  | _ => none

/-- A message for a sampler or a gather engine of a device that serves: in order of arrival at each of the two, once its unit may start (R656) and no emergency stop holds it
(R664). One that finds what it writes held waits too. DEDUCED, log entries 78, 79. -/
def State.takeMsg (s : State) (m : Msg) : State :=
  if !s.serves then s
  else if s.pwr.emergency || s.core.inbox.any (fun n => claimOf n.body == claimOf m.body) then s.on (fun c => { c with inbox := c.inbox ++ [m] })
  else
    let us := (s.msgUnit m).toList
    let (s1, ok) := s.askUnits us (claimOf m.body)
    let t := s1.serveMsg m
    if !ok then s1.on (fun c => { c with inbox := c.inbox ++ [m] })
    else if t.core.stall && !s.core.stall then (s.withdrawn t).on (fun c => { c with inbox := c.inbox ++ [m] })
    else t.worked us

/-- The messages that wait are taken again, in order. -/
def State.settleInbox (s : State) : State := s.core.inbox.foldl State.takeMsg (s.on (fun c => { c with inbox := [] }))

/-- SAMPLE_REMOTE_REQUEST (R293, R294). -/
def sampleRequest (s : State) (dst wadi : Nat) (r : SampReq) : State := s.takeMsg { dst := dst, wadi := wadi, body := .sampleRequest r }

/-- SAMPLE_REMOTE_ANSWER (R294). -/
def sampleAnswered (s : State) (dst : Nat) (a : SampAns) : State := s.takeMsg { dst := dst, wadi := 0, body := .sampleAnswer a }

/-! ### Embedding tables (R311 to R338) -/

/-- Lookups whose last group this device itself has answered are completed (R315, R316), also those whose draws a seed held (R450). -/
def State.settleLooks (s : State) : State :=
  (s.core.emb.looks.filter (fun l => l.complete)).foldl (fun (u : State) l => u.work l.strand (fun x => lookSettle x l)) s

/-- Contributions that a full buffer held enter it where there is room again (R339). -/
def State.settleHeld (s : State) : State := if s.core.emb.heldIn.isEmpty then s else s.withDev (releaseHeld (s.dev s.embQ none))

/-- An EMB_GRAD whose gradients have left sends its FLUSH markers (R323). -/
def State.settleGrads (s : State) : State :=
  (s.core.emb.gradWait.filter (fun g => !g.2 && !s.core.gradsOut g.1 && !s.core.linkLost.contains g.1)).foldl
    (fun (u : State) g => u.work g.1 (fun x => (gradFlush x g.1, false))) s

/-- An EMB_GRAD whose FLUSH markers have left is done. -/
def State.endGrads (s : State) : State :=
  (s.core.emb.gradWait.filter (fun g => g.2)).foldl
    (fun (u : State) g => u.work g.1 (fun x => (x.emb (fun e => { e with gradWait := e.gradWait.filter (fun h => h.1 != g.1) }), true))) s

/-- Reductions whose own shard is summed and whose first draw a seed held go on (R450, R578). -/
def State.settleColls (s : State) : State :=
  (s.core.coll.runs.filter (fun r => r.held)).foldl
    (fun (u : State) r => u.work r.strand (fun x => let (y, r) := tryOwn x r; collSettle y r)) s

/-- Collectives whose share of the work was done complete, once their packets have been routed (R589). -/
def State.settleReady (s : State) : State :=
  (s.core.coll.runs.filter (fun r => r.ready)).foldl (fun (u : State) r => match collOf u.core r.strand with
    | some r => u.work r.strand (fun x => collSettle x r)
    | none => u) s

/-- EMB_LOOKUP (R311). -/
def lookupRun (s : State) (k : Nat) : State :=
  if s.engineRun k 0x30 then s.runDesc k (fun _ => [unitGather (s.quarter k)]) (fun x => embLookup x k (s.strand k).det) else s

/-- EMB_LOOKUP_REQUEST (R314). -/
def lookupRequest (s : State) (dst : Nat) (r : EmbReq) : State := s.takeMsg { dst := dst, wadi := 0, body := .embRequest r }

/-- EMB_LOOKUP_ANSWER (R315, R316). -/
def lookupAnswered (s : State) (dst src : Nat) (a : EmbAns) : State := s.takeMsg { dst := dst, wadi := 0, body := .embAnswer a, src := some src }

/-- EMB_GRAD (R323): it waits for its gradients to be accepted, then for nothing. DEDUCED, log entry 42. -/
def gradRun (s : State) (k : Nat) : State := 
  if s.engineRun k 0x31 then s.runDesc k (fun _ => [unitGather (s.quarter k)]) (fun x => (embGrad x k, false)) else s

/-- EMB_BAG_GRADIENT (R324). -/
def bagGradient (s : State) (dst : Nat) (g : BagGrad) : State := s.takeMsg { dst := dst, wadi := 0, body := .bagGrad g }

/-- EMB_CONTRIBUTION (R326). -/
def contribution (s : State) (dst : Nat) (c : Contrib) : State := s.takeMsg { dst := dst, wadi := 0, body := .contrib c }

/-- EMB_CONTRIBUTION_ACK (R325): at the node that sent the contribution, or passed back by a forwarder, which drops its own name from the path. -/
def contribAcked (s : State) (dst table tag : Nat) (path : List Nat) : State := s.takeMsg { dst := dst, wadi := 0, body := .contribAck table tag path }

/-- EMB_FLUSH (R325). -/
def flushIn (s : State) (dst src table tag : Nat) : State := s.takeMsg { dst := dst, wadi := 0, body := .embFlush table tag, src := some src }

/-- EMB_FORWARD_FLUSH (R325). -/
def forwardFlushIn (s : State) (dst src table tag : Nat) : State := s.takeMsg { dst := dst, wadi := 0, body := .forwardFlush table tag, src := some src }

/-- EMB_UPDATE (R328): it starts, and waits for stage 2 of its window. -/
def updateRun (s : State) (k : Nat) : State :=
  if s.mayRun k (fun o => o == 0x32) then s.runDesc k (fun _ => [unitGather (s.quarter k)]) (fun x => (x, false)) else s

/-- UPDATE_WINDOW_STAGE_1 (R325) of the window that strand `k`'s EMB_UPDATE names. -/
def windowStage1 (s : State) (k : Nat) : State :=
  let t := s.strand k
  if t.op ≠ 0x32 then s
  else s.event? (fun s => s.work k (fun x =>
    let tag := t.f 26 0 16
    if stage1Ready x.c.emb (t.f 24 0 8) tag (t.f 28 0 17) x.c.actAs.isSome then (closeStage1 x (t.f 24 0 8) tag, false) else (x, false)))

/-- UPDATE_WINDOW_STAGE_2 (R325, R328): the window closes and its rows are updated, once the gather engine may start (R656), unless a seed holds their first draw
(R450). -/
def windowStage2 (s : State) (k : Nat) : State :=
  let t := s.strand k
  if t.op ≠ 0x32 ∨ t.phase ≠ .busy then s
  else s.event? (fun s =>
    if !stage2Ready (s.dx k) (t.f 24 0 8) (t.f 26 0 16) then s
    else
      let u := unitGather (s.quarter k)
      let (s1, ok) := s.askUnit u k
      if !ok then s1
      else (s1.work k (fun x =>
        let y := embUpdate (x.emb (fun e => e.setWindow { e.window (t.f 24 0 8) (t.f 26 0 16) x.c.actAs.isSome with stage2 := true }))
        if x.held y then (x, false) else (y, true))).worked [u])

/-- EMB_SYNC (R335): without a transaction it acts as NOP; otherwise it waits for the verdicts of its pending migrations. -/
def syncRun (s : State) (k : Nat) : State :=
  if s.engineRun k 0x33 then
    let step := s.core.reg Reg.jobStep
    s.runDesc k (fun _ => []) (fun x =>
      if x.acc.txn.isNone then (x, true)
      else let y := syncVerdicts x step; if verdictsIn y then (syncFinish y step, true) else (y, false))
  else s

/-- MIGRATION_VERDICT (R334): kept in place of an older one, and an EMB_SYNC that has every verdict goes on. -/
def migrationVerdict (s : State) (table r : Nat) (ready : Bool) : State :=
  if !s.serves then s
  else
    let s1 := s.on (fun c => { c with emb := { c.emb with verdicts := c.emb.verdicts.filter (fun v => !(v.1 == table && v.2.1 == r)) ++ [(table, r, ready)] } })
    (upto 64).foldl (fun (u : State) k =>
      if (u.strand k).op = 0x33 then u.work k (fun x => if verdictsIn x then (syncFinish x (s.core.reg Reg.jobStep), true) else (x, false)) else u) s1

/-- MIGRATION_SELECT (R333), once after each window boundary. DEDUCED, log entry 43. -/
def selectMigrations (s : State) (mean : Nat) (low : List (Nat × Nat × List (Nat × Nat))) : State :=
  if s.serves && s.core.emb.selDue then s.embServe s.core.node (fun x => migrationSelect x mean low) else s

/-- MIGRATION_COPY (R334). -/
def copyIn (s : State) (dst : Nat) (m : MigCopy) : State := s.takeMsg { dst := dst, wadi := 0, body := .migCopy m }

/-- MIGRATION_COPY_ACK (R334). -/
def copyAcked (s : State) (dst table r slot : Nat) : State := s.takeMsg { dst := dst, wadi := 0, body := .migCopyAck table r slot }

/-- MIGRATION_NOTICE (R336): adopted at the next EMB_SYNC. -/
def noticeIn (s : State) (dst : Nat) (n : MigNote) : State := s.takeMsg { dst := dst, wadi := 0, body := .migNotice n }

/-- FORWARD_END (R334). -/
def endForward (s : State) (table r : Nat) : State := if s.serves then s.embServe s.core.node (fun x => forwardEnd x table r) else s

/-! ### Lane processors (R341 to R400) -/

/-- LANE_LAUNCH (R345). -/
def launchRun (s : State) (k : Nat) : State := if s.engineRun k 0x50 then s.runDesc k (fun _ => []) laneLaunch else s

/-- GROUP_DISPATCH (R346): the processor starts when the ramp limiter admits it (R656). -/
def dispatchRun (s : State) (k : Nat) : State :=
  s.event? (fun s =>
    match s.core.launch? k with
    | none => s
    | some r => match s.core.nextProc r with
      | none => s
      | some p =>
        if !r.left || !s.core.dispatchOpen r p then s
        else
          let (s1, ok) := s.askUnit (unitLane r.quarter p) k
          if ok then (s1.work k groupDispatch).worked [unitLane r.quarter p] else s1)

/-- The processor that holds a group of a strand's launch has work. -/
def State.laneWorked (s : State) (k g : Nat) : State :=
  match s.core.launch? k with
  | some r => match r.resident.find? (fun x => x.g == g) with
    | some x => s.worked [unitLane r.quarter x.proc]
    | none => s
  | none => s

/-- The next instruction of thread group `g` of strand `k`'s launch issues, when it is the one named (R351); it runs `fails` times with a failed
check (R363). DEDUCED, log entry 49. -/
def laneOp (s : State) (grp op k g fails : Nat) : State := s.event? (fun s => (s.laneWorked k g).work k (fun x => laneIssue x grp op g fails))

/-- LANE_RESERVED_OPCODE (R375). -/
def reservedOp (s : State) (k g : Nat) : State := s.event? (fun s => s.work k (fun x => laneReserved x g))

/-- DEFERRED_ADD_APPLY (R359). -/
def applyDeferred (s : State) (k : Nat) : State := s.event? (fun s => s.work k deferredApply)

/-- LANE_SAVE (R364, R365): the launch it saves completes with 0x20 and CANCELLED, its drops in its record. -/
def saveRun (s : State) (k : Nat) : State :=
  if !s.engineRun k 0x51 then s
  else
    let s1 := s.runDesc k (fun _ => []) (fun x => ((laneSave x).1, true))
    match (laneSave (s.dx k)).2 with
    | some j => (s1.endDesc j 0x20).setStrand j (fun t => { t with comp := { t.comp with cancelled := true } })
    | none => s1

/-- LANE_RESTORE (R368). -/
def restoreRun (s : State) (k : Nat) : State := if s.engineRun k 0x52 then s.runDesc k (fun _ => []) laneRestore else s

/-! ### Collectives (R557 to R594, R599) -/

/-- A collective of opcode `op` starts while fewer than 16 are open on its quarter; a reduction of an older epoch completes at once (R599). -/
def collRun (s : State) (op k : Nat) : State :=
  if !s.engineRun k op || decide (collOpenCount s.core (s.quarter k) ≥ 16) then s
  else
    let t := s.strand k
    if isReduction op && epochOlder (t.f 46 0 16) (s.core.fld Reg.jobEpoch 0 16) then
      s.runNow k [] (fun x => (x.st 0x20).core (fun c => c.raise 7 8))
    else s.runDesc k (fun _ => []) (fun x => collStart x op t.det)

/-- COLLECTIVE_PACKET (R566, R567): for an open collective, or parked in the quarter of the port it came in on, also while an emergency stop holds the lane processors
(R664) or what it writes is held (R480). DEDUCED, log entry 79. What it held of the receive buffer is free unless it stays there. -/
def collPacket (s : State) (dst port : Nat) (p : CollPkt) : State :=
  if !s.serves then s
  else
    let (c, slot) := s.core.takeArrived port p.wadi
    let s1 := { s with core := c }
    match collMatch c dst p.group p.tag with
    | some r =>
      if s.pwr.emergency then s1.on (fun c => collPark c port dst p slot)
      else
        let t := (s1.on (fun c => c.freeHeld port p.wadi slot)).work r.strand (fun x => collTake x r port p)
        if t.core.stall && !s.core.stall then (s1.withdrawn t).on (fun c => collPark c port dst p slot) else t
    | none => s1.on (fun c => collPark c port dst p slot)

/-- Packets that waited for open collectives are taken in as soon as nothing holds them (R480, R664). -/
def State.settlePackets (s : State) : State :=
  if s.pwr.emergency then s
  else (s.core.coll.runs.filter (fun r => s.core.hasEarly r)).foldl (fun (u : State) r =>
    u.ifFree (fun u =>
      let (c, early) := u.core.takeEarly r
      early.foldl (fun (v : State) e => match collOf v.core r.strand with
        | some r => v.work r.strand (fun x => collTake x r e.1 e.2)
        | none => v) { u with core := c })) s

/-- COLLECTIVE_ABORT (R566, R589): one that comes before its descriptor has started is held for it. -/
def collAbort (s : State) (dst group tag : Nat) : State :=
  if !s.serves then s
  else match collMatch s.core dst group tag with
    | some r => s.work r.strand (fun x => (collAborted x r, true))
    | none => s.on (fun c => { c with coll := { c.coll with aborts := c.coll.aborts.filter (fun e => e != (dst, group, tag)) ++ [(dst, group, tag)] } })

/-- PERMUTE_ACK (R585). -/
def permuteAcked (s : State) (dst group tag bytes : Nat) : State :=
  if !s.serves then s
  else match collMatch s.core dst group tag with
    | some r => if r.op = 0x64 then s.work r.strand (fun x => permuteAck x r bytes) else s
    | none => s

/-! ### Copies (R473 to R476) -/

/-- A descriptor of the DMA engine. -/
def dmaRun (s : State) (op k : Nat) (f : Dx → Dx) : State := if s.engineRun k op then s.runNow k [unitDma (s.quarter k)] f else s

/-- A CACHE_OP whose OP field names the operation (R474); 5 to 7 act as WRITEBACK. -/
def cacheRun (s : State) (o k : Nat) (f : Dx → Dx) : State :=
  let named := (s.strand k).f 24 4 3
  if (if named ≥ 5 then 1 else named) = o then dmaRun s 0x72 k f else s

/-! ### Training support (R423 to R431) -/

/-- ACT_STASH (R423). -/
def stashRun (s : State) (k : Nat) : State :=
  if s.engineRun k 0x7E then s.runDesc k (fun _ => [unitDma (s.quarter k)]) (fun x => actStash x s.host.bme s.host.mps) else s

/-- ACT_FETCH (R423). -/
def fetchRun (s : State) (k : Nat) : State :=
  if s.engineRun k 0x7F then s.runDesc k (fun _ => [unitDma (s.quarter k)]) (fun x => actFetch x s.host.bme s.host.mrrs) else s

/-- TWIN_STASH_TRANSFER (R426). -/
def twinTransfer (s : State) (r : StashReq) : State := if s.serves then s.withDev (twinStash (s.dev 0 none) r) else s

/-- STASH_ANSWER (R426). -/
def stashAnswered (s : State) (a : StashAns) : State :=
  let k := match a with | .ack k _ => k | .data k _ _ _ => k
  if s.serves then s.work k (fun x => stashAnswer x a) else s

/-- HOST_READ_COMPLETION (R427): bytes of the read issued at offset `off` of strand `k`'s transfer; `bad` with poison or an error. -/
def hostReadBack (s : State) (k off : Nat) (bytes : List Byte) (bad : Bool) : State :=
  if s.live then s.work k (fun x => hostReadDone x s.host.mrrs off bytes bad) else s

/-- SPARE_ANNOUNCE (R430). -/
def announced (s : State) (units : Nat) : State := if s.serves then s.on (fun c => spareAnnounce c units) else s

/-! ### Random numbers (R447 to R450) -/

/-- A descriptor of the random-number group that runs at once. -/
def rngRun (s : State) (op k : Nat) (f : Dx → Dx) : State := if s.engineRun k op then s.runNow k [] f else s

/-- RNG_LANE_SEED (R450). -/
def seedRun (s : State) (k : Nat) : State := if s.engineRun k 0x83 then s.runDesc k (fun _ => []) rngLaneSeed else s

/-- A waiting RNG_LANE_SEED seeds once no thread group is resident (R450). -/
def State.settleSeeds (s : State) : State := s.core.laneSeed.foldl (fun (u : State) h => u.work h.2 rngLaneSeed) s

end Sys2Proof.Machine
end

