-- ==== Sys2Proof/Machine/Finish.lean ====
section
/-!
DEFINITION. The end of every command: what its effect left due is done (R548, R613, R616, R686, R689), and an effect that found the journal or a mirror
queue full is withdrawn (R605, R612). Also the gates that commands pass.
-/
namespace Sys2Proof.Machine
open Sys2Proof

/-! ### Gates -/

/-- An event of the device's own logic or pins: nothing happens in FAILED or during a hold (R665, R706). DEDUCED, log entry 93. -/
def State.ifAwake (s : State) (f : State → State) : State := if s.awake then f s else s

/-- An event of a device that is READY (R698). DEDUCED, log entry 93. -/
def State.ifLive (s : State) (f : State → State) : State := if s.live then f s else s

/-- A message of another device: a FENCED device serves none (R622). -/
def State.ifServes (s : State) (f : State → State) : State := if s.serves then f s else s

/-! ### What is due -/

/-- Whether the job's own state has nothing due: no request of the end of a command, no restart that drains or waits for its time, nothing unsent in the
mirror queues. -/
def Core.jobQuiet (c : Core) : Bool :=
  let j := c.job
  !j.resignDue && !j.abortDue && !j.formDue && !j.attachDue && j.restartDue.isNone && !j.handBackDone && j.handBackAsk.isNone && j.phase != .publishing && j.phase != .draining
    && j.startAt.isNone && !j.forming && !((j.fill.map (fun f => f.due)).getD false) && c.mirrorQ.all (fun m => m.sent)

/-- Whether the gather engine has nothing due: no complete lookup, no contribution held for want of room, no EMB_GRAD under way. -/
def Emb.quiet (e : Emb) : Bool := e.looks.all (fun l => !l.complete) && e.heldIn.isEmpty && e.gradWait.isEmpty

/-- Whether a command's effect leaves nothing due; `faults` is the count of R613 before the command. -/
def State.quiet (s : State) (faults : Nat) : Bool :=
  s.core.jobQuiet && !s.core.stall && s.core.txns.isEmpty && s.core.out.isEmpty && s.core.linkLost.isEmpty && s.core.laneSeed.isEmpty && s.core.parked.isEmpty
    && s.core.emb.quiet && s.ctl.strands.all (fun t => t.phase != .waitTime || !t.needsEntry) && s.core.coll.runs.all (fun r => !r.held && !r.ready && !s.core.hasEarly r)
    && s.core.inbox.isEmpty && s.pwr.ramp.waiting.isEmpty
    && s.core.ueFound.isEmpty && decide (s.core.mirrorMark = s.core.mirrorNext) && s.core.actAs.isNone && !s.mgmt.warmDue && (!s.core.inJob || decide (s.core.faults ≤ faults))
    && s.core.conditions == s.host.conds

/-- A descriptor whose packet was found unreachable ends with 0x50 (R548, R589). -/
def State.loseLink (s : State) (k : Nat) : State :=
  if (s.strand k).phase != .busy then s
  else match collOf s.core k with
    | some r => s.work k (fun x => (collLost x r, true))
    | none => s.endDesc k 0x50

/-- Descriptors that lost their link, and the abort packets this sends. -/
def State.settleLinks (s : State) : State :=
  let lost := s.core.linkLost
  ((lost.foldl State.loseLink (s.on (fun c => { c with linkLost := [] }))).on Core.flushOut).on (fun c => { c with linkLost := [] })

/-- A warm reset that HOST_RESET asked for (R689). -/
def State.settleReset (s : State) : State := if s.mgmt.warmDue then warmReset s else s

/-- Everything a command's effect left due: the job and the twin, engines that waited for it, host reads, packets, lost links, a warm reset, interrupts. DESIGN CHOICE, log entry 7. -/
def State.settleAll (s : State) (faults : Nat) : State :=
  let s1 := s.settleJob faults
  let s2 := [State.settleSeeds, State.settleInbox, State.settleHeld, State.settleLooks, State.settlePackets, State.settleColls].foldl State.ifFree s1
  let s3 := ((((s2.serveParked.on Core.flushOut).settleGrads.on Core.flushOut).settleLinks).ifFree State.settleReady).endGrads
  let s4 := s3.settleReset.irqSettle
  s4.dropStarts.on (fun c => { c with actAs := none, ueFound := [], mirrorMark := c.mirrorNext })

/-- The state after the end of a command. -/
def State.settle (s : State) (faults : Nat) : State := if s.quiet faults then s else s.settleAll faults

/-- The end of a command that was given in state `old` and whose effect made `new`. DESIGN CHOICE, log entry 7. -/
def finish (old new : State) : State :=
  let t := new.settle old.core.faults
  if t.core.stall then old.withdrawn t else t

end Sys2Proof.Machine
end

