-- ==== Sys2Proof/Machine/ExecCollectives.lean ====
section
/-!
DEFINITION. The meanings of the commands of collectives (R557 to R594). Each is the effect of its command, over the shared operations, and the end of a
command.
-/
namespace Sys2Proof.Machine
open Sys2Proof

/-- `ALLREDUCE` (R570): Descriptor 0x60 sums SRC over all members into DST. -/
def execAllreduce (strand : Nat) (s : State) : Host.Outcome State Fault Refusal :=
  .next (finish s (collRun s 0x60 strand))

/-- `REDUCE_SCATTER` (R570): Descriptor 0x61 gives each member its shard of the sum. -/
def execReduceScatter (strand : Nat) (s : State) : Host.Outcome State Fault Refusal :=
  .next (finish s (collRun s 0x61 strand))

/-- `ALLGATHER` (R576): Descriptor 0x62 gathers every member's shard in wire format. -/
def execAllgather (strand : Nat) (s : State) : Host.Outcome State Fault Refusal :=
  .next (finish s (collRun s 0x62 strand))

/-- `BROADCAST` (R576): Descriptor 0x63 copies the root's SRC to every member. -/
def execBroadcast (strand : Nat) (s : State) : Host.Outcome State Fault Refusal :=
  .next (finish s (collRun s 0x63 strand))

/-- `PERMUTE` (R584): Descriptor 0x64 moves byte ranges to named nodes by a move list. -/
def execPermute (strand : Nat) (s : State) : Host.Outcome State Fault Refusal :=
  .next (finish s (collRun s 0x64 strand))

/-- `ALLTOALL` (R586): Descriptor 0x65 exchanges variable-length blocks with every member. -/
def execAlltoall (strand : Nat) (s : State) : Host.Outcome State Fault Refusal :=
  .next (finish s (collRun s 0x65 strand))

/-- `COLLECTIVE_PACKET` (R567): A collective data packet arrives and is added, parked or discarded on mismatch. -/
def execCollectivePacket (dst port : Nat) (pkt : CollPkt) (s : State) : Host.Outcome State Fault Refusal :=
  .next (finish s (collPacket s dst port pkt))

/-- `COLLECTIVE_ABORT` (R589): A collective abort packet arrives and completes that collective with 0x50. -/
def execCollectiveAbort (dst group tag : Nat) (s : State) : Host.Outcome State Fault Refusal :=
  .next (finish s (collAbort s dst group tag))

end Sys2Proof.Machine
end

