-- ==== Sys2Proof/Machine/ExecControl.lean ====
section
/-!
DEFINITION. The meanings of the commands of strands, transactions and shadow sets (R63 to R109). Each is the effect of its command, over the shared
operations, and the end of a command.
-/
namespace Sys2Proof.Machine
open Sys2Proof

/-- `START` (R88): CP_STRAND_CTRL.START starts an IDLE, HALTED or FAULTED strand at CP_STRAND_START_AT. -/
def execStart (strand haltOnErr quarter : Nat) (s : State) : Host.Outcome State Fault Refusal :=
  .next (finish s (s.strandCtrl strand 0 haltOnErr quarter))

/-- `STOP` (R85): CP_STRAND_CTRL.STOP halts the strand after its current descriptor. -/
def execStop (strand : Nat) (s : State) : Host.Outcome State Fault Refusal :=
  .next (finish s (s.strandBit strand 1))

/-- `ABORT` (R85): CP_STRAND_CTRL.ABORT cancels the current descriptor and halts the strand. -/
def execAbort (strand : Nat) (s : State) : Host.Outcome State Fault Refusal :=
  .next (finish s (s.strandBit strand 2))

/-- `CP_EVENT_VALUE` (R89): A write to CP_EVENT_VALUE sets the selected event counter. -/
def execCpEventValue (value : Nat) (s : State) : Host.Outcome State Fault Refusal :=
  .next (finish s (s.hostWord Reg.cpEventValue value))

/-- `CP_EVENT_ADD` (R89): A write to CP_EVENT_ADD adds the value to the selected counter, saturating. -/
def execCpEventAdd (value : Nat) (s : State) : Host.Outcome State Fault Refusal :=
  .next (finish s (s.hostWord Reg.cpEventAdd value))

/-- `DESCRIPTOR_FETCH` (R76): A strand fetches its next 64-byte descriptor and begins its header processing. -/
def execDescriptorFetch (strand : Nat) (s : State) : Host.Outcome State Fault Refusal :=
  .next (finish s (descriptorFetch s strand))

/-- `WAIT_TIME_END` (R76): Cluster time reaches START_TIME plus any stagger offset and the descriptor leaves WAIT_TIME. -/
def execWaitTimeEnd (strand : Nat) (s : State) : Host.Outcome State Fault Refusal :=
  .next (finish s (waitTimeEnd s strand))

/-- `EVENT_WAIT_SATISFIED` (R73): An event counter reaches WAIT_COUNT and is reduced atomically, releasing the waiting descriptor. -/
def execEventWaitSatisfied (strand : Nat) (s : State) : Host.Outcome State Fault Refusal :=
  .next (finish s (eventWait s strand))

/-- `DESCRIPTOR_TIMEOUT` (R76): A descriptor's timeout expires and it completes with 0x20, or 0x21 for TXN_COMMIT. -/
def execDescriptorTimeout (strand : Nat) (s : State) : Host.Outcome State Fault Refusal :=
  .next (finish s (descriptorTimeout s strand))

/-- `DESCRIPTOR_COMPLETE` (R77): A descriptor completes: record, swaps, signal, and halt on error in that order. -/
def execDescriptorComplete (strand : Nat) (s : State) : Host.Outcome State Fault Refusal :=
  .next (finish s (descriptorComplete s strand))

/-- `STRAND_WATCHDOG` (R86): A strand completing no descriptor for STRAND_WDOG ms is cancelled and faults. -/
def execStrandWatchdog (strand : Nat) (s : State) : Host.Outcome State Fault Refusal :=
  .next (finish s (strandWatchdog s strand))

/-- `STEP_WATCHDOG` (R87): The step watchdog reaches STEP_WDOG ms, sets STEP_WDOG and notifies the MC. -/
def execStepWatchdog (s : State) : Host.Outcome State Fault Refusal :=
  .next (finish s (stepWatchdog s))

/-- `NOP` (R79): Descriptor 0x00 acts only through its header. -/
def execNop (strand : Nat) (s : State) : Host.Outcome State Fault Refusal :=
  .next (finish s (nop s strand))

/-- `JUMP` (R79): Descriptor 0x01 sets the next descriptor to TARGET. -/
def execJump (strand : Nat) (s : State) : Host.Outcome State Fault Refusal :=
  .next (finish s (jump s strand))

/-- `LOOP` (R80): Descriptor 0x02 counts its loop level and jumps or falls through. -/
def execLoop (strand : Nat) (s : State) : Host.Outcome State Fault Refusal :=
  .next (finish s (loopOp s strand))

/-- `HALT` (R79): Descriptor 0x03 halts the strand with HALT_REASON 1. -/
def execHalt (strand : Nat) (s : State) : Host.Outcome State Fault Refusal :=
  .next (finish s (halt s strand))

/-- `EVENT_SET` (R79): Descriptor 0x04 sets a range of event counters to VALUE at one clock. -/
def execEventSet (strand : Nat) (s : State) : Host.Outcome State Fault Refusal :=
  .next (finish s (eventSet s strand))

/-- `STEP_MARK` (R79): Descriptor 0x05 increments CP_STRAND_STEPS and restarts the step watchdog. -/
def execStepMark (strand : Nat) (s : State) : Host.Outcome State Fault Refusal :=
  .next (finish s (stepMark s strand))

/-- `TXN_PREPARE` (R100): Descriptor 0x06 waits for its members and sends the coordinator a vote, then stays prepared. -/
def execTxnPrepare (strand : Nat) (s : State) : Host.Outcome State Fault Refusal :=
  .next (finish s (txnPrepare s strand))

/-- `TXN_COMMIT` (R96): Descriptor 0x07 commits a transaction locally or coordinates a global commit. -/
def execTxnCommit (strand : Nat) (s : State) : Host.Outcome State Fault Refusal :=
  .next (finish s (txnCommit s strand))

/-- `TXN_ABORT` (R79): Descriptor 0x08 marks an open transaction aborted. -/
def execTxnAbort (strand : Nat) (s : State) : Host.Outcome State Fault Refusal :=
  .next (finish s (txnAbort s strand))

/-- `STORE_IMM` (R81): Descriptor 0x0A writes up to three 64-bit values, dropping disallowed register writes. -/
def execStoreImm (strand : Nat) (s : State) : Host.Outcome State Fault Refusal :=
  .next (finish s (storeImm s strand))

/-- `STRAND_START` (R79): Descriptor 0x0B starts an IDLE, HALTED or FAULTED strand. -/
def execStrandStart (strand : Nat) (s : State) : Host.Outcome State Fault Refusal :=
  .next (finish s (strandStart s strand))

/-- `TXN_VOTE` (R101): A vote arriving at the coordinator counts toward its decision. -/
def execTxnVote (vote : Vote) (s : State) : Host.Outcome State Fault Refusal :=
  .next (finish s (s.ifServes (fun t => txnVote t vote)))

/-- `TXN_DECISION` (R102): A commit or abort decision arriving at a participant publishes at T or discards. -/
def execTxnDecision (src : Nat) (dec : Decision) (toTwin : Bool) (s : State) : Host.Outcome State Fault Refusal :=
  .next (finish s (s.ifServes (fun t => txnDecision t src dec toTwin)))

/-- `DECISION_ACK` (R615): The twin's acknowledgement of a coordinator decision lets it send the decision to the other voters. -/
def execDecisionAck (group txn : Nat) (s : State) : Host.Outcome State Fault Refusal :=
  .next (finish s (s.ifServes (fun t => decisionAck t group txn)))

/-- `TXN_PUBLISH` (R97): A transaction's staged effects publish at one clock edge in each quarter. -/
def execTxnPublish (s : State) : Host.Outcome State Fault Refusal :=
  .next (finish s (s.ifLive txnPublish))

/-- `ARM_TIME` (R108): SHADOW_CTRL.ARM_TIME latches the shadow time and arms a timed swap. -/
def execArmTime (page word : Nat) (s : State) : Host.Outcome State Fault Refusal :=
  .next (finish s (s.hostRegister (shadowCtrl page) (word ||| 1) 15))

/-- `ARM_DESC` (R106): SHADOW_CTRL.ARM_DESC arms a swap at the next SWAP_AFTER descriptor of STRAND. -/
def execArmDesc (page word : Nat) (s : State) : Host.Outcome State Fault Refusal :=
  .next (finish s (s.hostRegister (shadowCtrl page) (word ||| 2) 15))

/-- `SWAP_NOW` (R106): SHADOW_CTRL.SWAP_NOW swaps the page's shadow set at once. -/
def execSwapNow (page word : Nat) (s : State) : Host.Outcome State Fault Refusal :=
  .next (finish s (s.hostRegister (shadowCtrl page) (word ||| 4) 15))

/-- `DISARM` (R108): SHADOW_CTRL.DISARM clears both arms before the arm bits of the same write. -/
def execDisarm (page word : Nat) (s : State) : Host.Outcome State Fault Refusal :=
  .next (finish s (s.hostRegister (shadowCtrl page) (word ||| 8) 15))

/-- `SHADOW_SWAP` (R106): An armed trigger fires and copies the shadow set into the active set, clearing both arms. -/
def execShadowSwap (page : Nat) (s : State) : Host.Outcome State Fault Refusal :=
  .next (finish s (s.ifLive (fun t => shadowSwap t page)))

end Sys2Proof.Machine
end

