-- ==== Sys2Proof/Machine/ExecExchanges.lean ====
section
/-!
DEFINITION. The meanings of the commands of messages between engines and twins that complete others (R325, R334, R426, R509, R585, R603, R694, R375). Each is
the effect of its command, over the shared operations, and the end of a command.
-/
namespace Sys2Proof.Machine
open Sys2Proof

/-- `TWIN_FORM_EXCHANGE` (R603): The twin's forming message with its MIRROR_K, BOUNDARY_ID, leader, group and identity public key arrives, and the pair
agrees or the key is checked. -/
def execTwinFormExchange (msg : FormMsg) (s : State) : Host.Outcome State Fault Refusal :=
  .next (finish s (s.ifServes (fun t => twinForm t msg)))

/-- `EMB_CONTRIBUTION_ACK` (R325): The coalescing node's acknowledgement of a contribution arrives at the node that sent it, or is passed back by a
forwarder. -/
def execEmbContributionAck (dst table tag : Nat) (path : List Nat) (s : State) : Host.Outcome State Fault Refusal :=
  .next (finish s (contribAcked s dst table tag path))

/-- `MIGRATION_COPY_ACK` (R334): The new owner's acknowledgement of a migrated row copy arrives at the old owner, which its READY verdict requires. -/
def execMigrationCopyAck (dst table row slot : Nat) (s : State) : Host.Outcome State Fault Refusal :=
  .next (finish s (copyAcked s dst table row slot))

/-- `TWIN_STASH_TRANSFER` (R426): The twin receives an ACT_STASH write or an ACT_FETCH read request on wadi 14, writes or reads its spare area, and
acknowledges or answers. -/
def execTwinStashTransfer (req : StashReq) (s : State) : Host.Outcome State Fault Refusal :=
  .next (finish s (twinTransfer s req))

/-- `STASH_ANSWER` (R426): The twin's acknowledgement of stashed bytes, or its fetched data, arrives at the device running ACT_STASH or ACT_FETCH. -/
def execStashAnswer (ans : StashAns) (s : State) : Host.Outcome State Fault Refusal :=
  .next (finish s (stashAnswered s ans))

/-- `HOST_READ_COMPLETION` (R427): A PCIe read completion for an ACT_FETCH from the host arrives, writing data, or poisoned blocks with status 0x31 on poison
or error. -/
def execHostReadCompletion (strand off : Nat) (bytes : List Byte) (bad : Bool) (s : State) : Host.Outcome State Fault Refusal :=
  .next (finish s (hostReadBack s strand off bytes bad))

/-- `PERMUTE_ACK` (R585): The acknowledgement of bytes a PERMUTE sent arrives at the sender, counting toward its completion. -/
def execPermuteAck (dst group tag bytes : Nat) (s : State) : Host.Outcome State Fault Refusal :=
  .next (finish s (permuteAcked s dst group tag bytes))

/-- `REMAP_COPY_END` (R509): The copy of a failing row to its spare ends within 2 µs, the remap table entry is written and the requests waiting in the device
area are served. -/
def execRemapCopyEnd (chan bank row : Nat) (s : State) : Host.Outcome State Fault Refusal :=
  .next (finish s (s.ifLive (fun t => t.on (fun c => remapCopyEnd c chan bank row))))

/-- `PCIE_LINK_RECOVERY` (R694): The PCIe link enters recovery or changes speed or width, updating HOST_LINK and raising the LINK interrupt. -/
def execPcieLinkRecovery (partner : PciePartner) (s : State) : Host.Outcome State Fault Refusal :=
  .next (finish s (linkRecovery s partner))

/-- `LANE_RESERVED_OPCODE` (R375): A thread group issues an instruction whose opcode is reserved and stops, cancelling the launch with status 0x20. -/
def execLaneReservedOpcode (strand group : Nat) (s : State) : Host.Outcome State Fault Refusal :=
  .next (finish s (reservedOp s strand group))

end Sys2Proof.Machine
end

