-- ==== Sys2Proof/Machine/ExecGraph.lean ====
section
/-!
DEFINITION. The meanings of the commands of sampling and embedding tables (R263 to R339). Each is the effect of its command, over the shared operations, and
the end of a command.
-/
namespace Sys2Proof.Machine
open Sys2Proof

/-- `SAMPLE` (R278): Descriptor 0x40 samples a layered neighbourhood and writes the sample log. -/
def execSample (strand : Nat) (s : State) : Host.Outcome State Fault Refusal :=
  .next (finish s (sampleRun s strand))

/-- `SAMPLE_REMOTE_REQUEST` (R293): An owner receives a remote sampling request and answers with the drawn edges or no row. -/
def execSampleRemoteRequest (dst wadi : Nat) (req : SampReq) (s : State) : Host.Outcome State Fault Refusal :=
  .next (finish s (sampleRequest s dst wadi req))

/-- `SAMPLE_REMOTE_ANSWER` (R294): A requester receives a remote sampling answer and takes or drops the vertex. -/
def execSampleRemoteAnswer (dst : Nat) (ans : SampAns) (s : State) : Host.Outcome State Fault Refusal :=
  .next (finish s (sampleAnswered s dst ans))

/-- `EMB_LOOKUP` (R311): Descriptor 0x30 sends bag groups to serving nodes and pools the returned partials. -/
def execEmbLookup (strand : Nat) (s : State) : Host.Outcome State Fault Refusal :=
  .next (finish s (lookupRun s strand))

/-- `EMB_LOOKUP_REQUEST` (R314): A serving node receives a group, forms its partial, logs each entry and answers or forwards. -/
def execEmbLookupRequest (dst : Nat) (req : EmbReq) (s : State) : Host.Outcome State Fault Refusal :=
  .next (finish s (lookupRequest s dst req))

/-- `EMB_LOOKUP_ANSWER` (R315): A requester receives a group's partial and adds it into the pooled row. -/
def execEmbLookupAnswer (dst src : Nat) (ans : EmbAns) (s : State) : Host.Outcome State Fault Refusal :=
  .next (finish s (lookupAnswered s dst src ans))

/-- `EMB_GRAD` (R323): Descriptor 0x31 sends bag gradients to pooling nodes and then FLUSH markers. -/
def execEmbGrad (strand : Nat) (s : State) : Host.Outcome State Fault Refusal :=
  .next (finish s (gradRun s strand))

/-- `EMB_BAG_GRADIENT` (R324): A pooling node receives a bag gradient and sends per-entry contributions to owners. -/
def execEmbBagGradient (dst : Nat) (grad : BagGrad) (s : State) : Host.Outcome State Fault Refusal :=
  .next (finish s (bagGradient s dst grad))

/-- `EMB_CONTRIBUTION` (R326): An owner receives a contribution into its coalescing buffer and acknowledges it. -/
def execEmbContribution (dst : Nat) (contrib : Contrib) (s : State) : Host.Outcome State Fault Refusal :=
  .next (finish s (contribution s dst contrib))

/-- `EMB_FLUSH` (R325): A FLUSH marker for a window arrives at an owner-set node. -/
def execEmbFlush (dst src table tag : Nat) (s : State) : Host.Outcome State Fault Refusal :=
  .next (finish s (flushIn s dst src table tag))

/-- `UPDATE_WINDOW_STAGE_1` (R325): Stage 1 of a window closes once flushes and expansions and acknowledgements are done, sending FORWARD_FLUSH. -/
def execUpdateWindowStage1 (strand : Nat) (s : State) : Host.Outcome State Fault Refusal :=
  .next (finish s (windowStage1 s strand))

/-- `EMB_FORWARD_FLUSH` (R325): A FORWARD_FLUSH marker arrives at an owner-set node. -/
def execEmbForwardFlush (dst src table tag : Nat) (s : State) : Host.Outcome State Fault Refusal :=
  .next (finish s (forwardFlushIn s dst src table tag))

/-- `UPDATE_WINDOW_STAGE_2` (R328): Stage 2 of a window closes once all FORWARD_FLUSH markers arrived, releasing EMB_UPDATE. -/
def execUpdateWindowStage2 (strand : Nat) (s : State) : Host.Outcome State Fault Refusal :=
  .next (finish s (windowStage2 s strand))

/-- `EMB_UPDATE` (R328): Descriptor 0x32 applies one read-modify-write per contributed row. -/
def execEmbUpdate (strand : Nat) (s : State) : Host.Outcome State Fault Refusal :=
  .next (finish s (updateRun s strand))

/-- `EMB_SYNC` (R335): Descriptor 0x33 stages migration verdicts, commits and adoptions in the boundary transaction. -/
def execEmbSync (strand : Nat) (s : State) : Host.Outcome State Fault Refusal :=
  .next (finish s (syncRun s strand))

/-- `MIGRATION_SELECT` (R333): At each window boundary the MCs reduce loads and select hot rows to migrate. -/
def execMigrationSelect (mean : Nat) (low : List (Nat × Nat × List (Nat × Nat))) (s : State) : Host.Outcome State Fault Refusal :=
  .next (finish s (selectMigrations s mean low))

/-- `MIGRATION_COPY` (R334): A new owner receives a migrating row copy and acknowledges it. -/
def execMigrationCopy (dst : Nat) (msg : MigCopy) (s : State) : Host.Outcome State Fault Refusal :=
  .next (finish s (copyIn s dst msg))

/-- `MIGRATION_VERDICT` (R334): A new owner receives READY or NOT_YET for a pending migration. -/
def execMigrationVerdict (table row : Nat) (isReady : Bool) (s : State) : Host.Outcome State Fault Refusal :=
  .next (finish s (migrationVerdict s table row isReady))

/-- `MIGRATION_NOTICE` (R336): A node receives a migration notice to adopt at its next EMB_SYNC. -/
def execMigrationNotice (dst : Nat) (note : MigNote) (s : State) : Host.Outcome State Fault Refusal :=
  .next (finish s (noticeIn s dst note))

/-- `FORWARD_END` (R334): After FWD_STEPS boundaries the old owner frees OLD_SLOT and sets the entry ACTIVE. -/
def execForwardEnd (table row : Nat) (s : State) : Host.Outcome State Fault Refusal :=
  .next (finish s (endForward s table row))

end Sys2Proof.Machine
end

