-- ==== Sys2Proof/Machine/ExecLaneFloat.lean ====
section
/-!
DEFINITION. The meanings of the commands of floating-point lane instructions, group 0 (R380 to R383). Each is the effect of its command, over the shared
operations, and the end of a command.
-/
namespace Sys2Proof.Machine
open Sys2Proof

/-- `ADD` (R380): Lane op: floating-point a + b. -/
def execAdd (strand group fails : Nat) (s : State) : Host.Outcome State Fault Refusal :=
  .next (finish s (laneOp s 0 0 strand group fails))

/-- `SUB` (R380): Lane op: floating-point a − b. -/
def execSub (strand group fails : Nat) (s : State) : Host.Outcome State Fault Refusal :=
  .next (finish s (laneOp s 0 1 strand group fails))

/-- `MUL` (R380): Lane op: floating-point a × b. -/
def execMul (strand group fails : Nat) (s : State) : Host.Outcome State Fault Refusal :=
  .next (finish s (laneOp s 0 2 strand group fails))

/-- `FMA` (R380): Lane op: fused a × b + c. -/
def execFma (strand group fails : Nat) (s : State) : Host.Outcome State Fault Refusal :=
  .next (finish s (laneOp s 0 3 strand group fails))

/-- `FMS` (R380): Lane op: fused a × b − c. -/
def execFms (strand group fails : Nat) (s : State) : Host.Outcome State Fault Refusal :=
  .next (finish s (laneOp s 0 4 strand group fails))

/-- `DIV` (R380): Lane op: floating-point a / b. -/
def execDiv (strand group fails : Nat) (s : State) : Host.Outcome State Fault Refusal :=
  .next (finish s (laneOp s 0 5 strand group fails))

/-- `SQRT` (R380): Lane op: square root of a. -/
def execSqrt (strand group fails : Nat) (s : State) : Host.Outcome State Fault Refusal :=
  .next (finish s (laneOp s 0 6 strand group fails))

/-- `MIN` (R380): Lane op: minimumNumber. -/
def execMin (strand group fails : Nat) (s : State) : Host.Outcome State Fault Refusal :=
  .next (finish s (laneOp s 0 7 strand group fails))

/-- `MAX` (R380): Lane op: maximumNumber. -/
def execMax (strand group fails : Nat) (s : State) : Host.Outcome State Fault Refusal :=
  .next (finish s (laneOp s 0 8 strand group fails))

/-- `ABS` (R383): Lane op: clear the sign bit. -/
def execAbs (strand group fails : Nat) (s : State) : Host.Outcome State Fault Refusal :=
  .next (finish s (laneOp s 0 9 strand group fails))

/-- `NEG` (R383): Lane op: invert the sign bit. -/
def execNeg (strand group fails : Nat) (s : State) : Host.Outcome State Fault Refusal :=
  .next (finish s (laneOp s 0 10 strand group fails))

/-- `EXP2` (R382): Lane op: correctly rounded 2^a in FP32. -/
def execExp2 (strand group fails : Nat) (s : State) : Host.Outcome State Fault Refusal :=
  .next (finish s (laneOp s 0 11 strand group fails))

/-- `LOG2` (R382): Lane op: correctly rounded log2 a in FP32. -/
def execLog2 (strand group fails : Nat) (s : State) : Host.Outcome State Fault Refusal :=
  .next (finish s (laneOp s 0 12 strand group fails))

/-- `RSQRT` (R382): Lane op: correctly rounded 1/√a in FP32. -/
def execRsqrt (strand group fails : Nat) (s : State) : Host.Outcome State Fault Refusal :=
  .next (finish s (laneOp s 0 13 strand group fails))

end Sys2Proof.Machine
end

