-- ==== Sys2Proof/Machine/ExecLaneInt.lean ====
section
/-!
DEFINITION. The meanings of the commands of integer lane instructions, groups 1 and 9 (R384). Each is the effect of its command, over the shared operations,
and the end of a command.
-/
namespace Sys2Proof.Machine
open Sys2Proof

/-- `IADD` (R384): Vector integer add. -/
def execIadd (strand group fails : Nat) (s : State) : Host.Outcome State Fault Refusal :=
  .next (finish s (laneOp s 1 0 strand group fails))

/-- `ISUB` (R384): Vector integer subtract. -/
def execIsub (strand group fails : Nat) (s : State) : Host.Outcome State Fault Refusal :=
  .next (finish s (laneOp s 1 1 strand group fails))

/-- `IMUL` (R384): Vector integer low multiply. -/
def execImul (strand group fails : Nat) (s : State) : Host.Outcome State Fault Refusal :=
  .next (finish s (laneOp s 1 2 strand group fails))

/-- `IMACC` (R384): Vector integer multiply-accumulate. -/
def execImacc (strand group fails : Nat) (s : State) : Host.Outcome State Fault Refusal :=
  .next (finish s (laneOp s 1 3 strand group fails))

/-- `IHIGH` (R384): Vector high 32 bits of the unsigned product. -/
def execIhigh (strand group fails : Nat) (s : State) : Host.Outcome State Fault Refusal :=
  .next (finish s (laneOp s 1 4 strand group fails))

/-- `AND` (R384): Vector bitwise AND. -/
def execAnd (strand group fails : Nat) (s : State) : Host.Outcome State Fault Refusal :=
  .next (finish s (laneOp s 1 5 strand group fails))

/-- `OR` (R384): Vector bitwise OR. -/
def execOr (strand group fails : Nat) (s : State) : Host.Outcome State Fault Refusal :=
  .next (finish s (laneOp s 1 6 strand group fails))

/-- `XOR` (R384): Vector bitwise XOR. -/
def execXor (strand group fails : Nat) (s : State) : Host.Outcome State Fault Refusal :=
  .next (finish s (laneOp s 1 7 strand group fails))

/-- `SHL` (R384): Vector shift left. -/
def execShl (strand group fails : Nat) (s : State) : Host.Outcome State Fault Refusal :=
  .next (finish s (laneOp s 1 8 strand group fails))

/-- `SHR` (R384): Vector logical shift right. -/
def execShr (strand group fails : Nat) (s : State) : Host.Outcome State Fault Refusal :=
  .next (finish s (laneOp s 1 9 strand group fails))

/-- `SAR` (R384): Vector arithmetic shift right. -/
def execSar (strand group fails : Nat) (s : State) : Host.Outcome State Fault Refusal :=
  .next (finish s (laneOp s 1 10 strand group fails))

/-- `IMIN` (R384): Vector signed minimum. -/
def execImin (strand group fails : Nat) (s : State) : Host.Outcome State Fault Refusal :=
  .next (finish s (laneOp s 1 11 strand group fails))

/-- `IMAX` (R384): Vector signed maximum. -/
def execImax (strand group fails : Nat) (s : State) : Host.Outcome State Fault Refusal :=
  .next (finish s (laneOp s 1 12 strand group fails))

/-- `BITCNT` (R384): Vector population count. -/
def execBitcnt (strand group fails : Nat) (s : State) : Host.Outcome State Fault Refusal :=
  .next (finish s (laneOp s 1 13 strand group fails))

/-- `INSHI` (R384): Vector insert IMM into bits [31:16]. -/
def execInshi (strand group fails : Nat) (s : State) : Host.Outcome State Fault Refusal :=
  .next (finish s (laneOp s 1 14 strand group fails))

/-- `MOV` (R384): Vector move of source 2. -/
def execMov (strand group fails : Nat) (s : State) : Host.Outcome State Fault Refusal :=
  .next (finish s (laneOp s 1 15 strand group fails))

/-- `SCALAR_IADD` (R384): Group 9 scalar integer add. -/
def execScalarIadd (strand group fails : Nat) (s : State) : Host.Outcome State Fault Refusal :=
  .next (finish s (laneOp s 9 0 strand group fails))

/-- `SCALAR_ISUB` (R384): Group 9 scalar integer subtract. -/
def execScalarIsub (strand group fails : Nat) (s : State) : Host.Outcome State Fault Refusal :=
  .next (finish s (laneOp s 9 1 strand group fails))

/-- `SCALAR_IMUL` (R384): Group 9 scalar low multiply. -/
def execScalarImul (strand group fails : Nat) (s : State) : Host.Outcome State Fault Refusal :=
  .next (finish s (laneOp s 9 2 strand group fails))

/-- `SCALAR_IMACC` (R384): Group 9 scalar multiply-accumulate. -/
def execScalarImacc (strand group fails : Nat) (s : State) : Host.Outcome State Fault Refusal :=
  .next (finish s (laneOp s 9 3 strand group fails))

/-- `SCALAR_IHIGH` (R384): Group 9 scalar high product. -/
def execScalarIhigh (strand group fails : Nat) (s : State) : Host.Outcome State Fault Refusal :=
  .next (finish s (laneOp s 9 4 strand group fails))

/-- `SCALAR_AND` (R384): Group 9 scalar AND. -/
def execScalarAnd (strand group fails : Nat) (s : State) : Host.Outcome State Fault Refusal :=
  .next (finish s (laneOp s 9 5 strand group fails))

/-- `SCALAR_OR` (R384): Group 9 scalar OR. -/
def execScalarOr (strand group fails : Nat) (s : State) : Host.Outcome State Fault Refusal :=
  .next (finish s (laneOp s 9 6 strand group fails))

/-- `SCALAR_XOR` (R384): Group 9 scalar XOR. -/
def execScalarXor (strand group fails : Nat) (s : State) : Host.Outcome State Fault Refusal :=
  .next (finish s (laneOp s 9 7 strand group fails))

/-- `SCALAR_SHL` (R384): Group 9 scalar shift left. -/
def execScalarShl (strand group fails : Nat) (s : State) : Host.Outcome State Fault Refusal :=
  .next (finish s (laneOp s 9 8 strand group fails))

/-- `SCALAR_SHR` (R384): Group 9 scalar logical shift right. -/
def execScalarShr (strand group fails : Nat) (s : State) : Host.Outcome State Fault Refusal :=
  .next (finish s (laneOp s 9 9 strand group fails))

/-- `SCALAR_SAR` (R384): Group 9 scalar arithmetic shift right. -/
def execScalarSar (strand group fails : Nat) (s : State) : Host.Outcome State Fault Refusal :=
  .next (finish s (laneOp s 9 10 strand group fails))

/-- `SCALAR_IMIN` (R384): Group 9 scalar signed minimum. -/
def execScalarImin (strand group fails : Nat) (s : State) : Host.Outcome State Fault Refusal :=
  .next (finish s (laneOp s 9 11 strand group fails))

/-- `SCALAR_IMAX` (R384): Group 9 scalar signed maximum. -/
def execScalarImax (strand group fails : Nat) (s : State) : Host.Outcome State Fault Refusal :=
  .next (finish s (laneOp s 9 12 strand group fails))

/-- `SCALAR_BITCNT` (R384): Group 9 scalar population count. -/
def execScalarBitcnt (strand group fails : Nat) (s : State) : Host.Outcome State Fault Refusal :=
  .next (finish s (laneOp s 9 13 strand group fails))

/-- `SCALAR_INSHI` (R384): Group 9 scalar insert into bits [31:16]. -/
def execScalarInshi (strand group fails : Nat) (s : State) : Host.Outcome State Fault Refusal :=
  .next (finish s (laneOp s 9 14 strand group fails))

/-- `SCALAR_MOV` (R384): Group 9 scalar move. -/
def execScalarMov (strand group fails : Nat) (s : State) : Host.Outcome State Fault Refusal :=
  .next (finish s (laneOp s 9 15 strand group fails))

end Sys2Proof.Machine
end

