-- ==== Sys2Proof/Machine/ExecLaneOther.lean ====
section
/-!
DEFINITION. The meanings of the commands of conversions, comparisons, memory, cross-lane, random, atomic and control lane instructions (R387 to R400). Each
is the effect of its command, over the shared operations, and the end of a command.
-/
namespace Sys2Proof.Machine
open Sys2Proof

/-- `CVT` (R387): Lane conversion between formats. -/
def execCvt (strand group fails : Nat) (s : State) : Host.Outcome State Fault Refusal :=
  .next (finish s (laneOp s 2 0 strand group fails))

/-- `I2F` (R387): Lane signed integer to format FMT. -/
def execI2f (strand group fails : Nat) (s : State) : Host.Outcome State Fault Refusal :=
  .next (finish s (laneOp s 2 1 strand group fails))

/-- `U2F` (R387): Lane unsigned integer to format FMT. -/
def execU2f (strand group fails : Nat) (s : State) : Host.Outcome State Fault Refusal :=
  .next (finish s (laneOp s 2 2 strand group fails))

/-- `F2I` (R387): Lane format FMT to signed integer. -/
def execF2i (strand group fails : Nat) (s : State) : Host.Outcome State Fault Refusal :=
  .next (finish s (laneOp s 2 3 strand group fails))

/-- `F2U` (R387): Lane format FMT to unsigned integer. -/
def execF2u (strand group fails : Nat) (s : State) : Host.Outcome State Fault Refusal :=
  .next (finish s (laneOp s 2 4 strand group fails))

/-- `FEQ` (R390): Quiet floating equal compare into a predicate. -/
def execFeq (strand group fails : Nat) (s : State) : Host.Outcome State Fault Refusal :=
  .next (finish s (laneOp s 3 0 strand group fails))

/-- `FLT` (R390): Quiet floating less compare. -/
def execFlt (strand group fails : Nat) (s : State) : Host.Outcome State Fault Refusal :=
  .next (finish s (laneOp s 3 1 strand group fails))

/-- `FLE` (R390): Quiet floating less-or-equal compare. -/
def execFle (strand group fails : Nat) (s : State) : Host.Outcome State Fault Refusal :=
  .next (finish s (laneOp s 3 2 strand group fails))

/-- `FNE` (R390): Quiet floating not-equal compare. -/
def execFne (strand group fails : Nat) (s : State) : Host.Outcome State Fault Refusal :=
  .next (finish s (laneOp s 3 3 strand group fails))

/-- `FUN` (R390): Quiet floating unordered compare. -/
def execFun (strand group fails : Nat) (s : State) : Host.Outcome State Fault Refusal :=
  .next (finish s (laneOp s 3 4 strand group fails))

/-- `IEQ` (R390): Integer equal compare. -/
def execIeq (strand group fails : Nat) (s : State) : Host.Outcome State Fault Refusal :=
  .next (finish s (laneOp s 3 5 strand group fails))

/-- `ILT` (R390): Signed integer less compare. -/
def execIlt (strand group fails : Nat) (s : State) : Host.Outcome State Fault Refusal :=
  .next (finish s (laneOp s 3 6 strand group fails))

/-- `ILTU` (R390): Unsigned integer less compare. -/
def execIltu (strand group fails : Nat) (s : State) : Host.Outcome State Fault Refusal :=
  .next (finish s (laneOp s 3 7 strand group fails))

/-- `SEL` (R390): Select a or b by predicate. -/
def execSel (strand group fails : Nat) (s : State) : Host.Outcome State Fault Refusal :=
  .next (finish s (laneOp s 3 8 strand group fails))

/-- `PAND` (R390): Predicate AND. -/
def execPand (strand group fails : Nat) (s : State) : Host.Outcome State Fault Refusal :=
  .next (finish s (laneOp s 3 9 strand group fails))

/-- `POR` (R390): Predicate OR. -/
def execPor (strand group fails : Nat) (s : State) : Host.Outcome State Fault Refusal :=
  .next (finish s (laneOp s 3 10 strand group fails))

/-- `PXOR` (R390): Predicate XOR. -/
def execPxor (strand group fails : Nat) (s : State) : Host.Outcome State Fault Refusal :=
  .next (finish s (laneOp s 3 11 strand group fails))

/-- `PANDN` (R390): Predicate AND-NOT. -/
def execPandn (strand group fails : Nat) (s : State) : Host.Outcome State Fault Refusal :=
  .next (finish s (laneOp s 3 12 strand group fails))

/-- `P2S` (R390): Copy a predicate to a scalar register. -/
def execP2s (strand group fails : Nat) (s : State) : Host.Outcome State Fault Refusal :=
  .next (finish s (laneOp s 3 13 strand group fails))

/-- `S2P` (R390): Copy a scalar register to a predicate. -/
def execS2p (strand group fails : Nat) (s : State) : Host.Outcome State Fault Refusal :=
  .next (finish s (laneOp s 3 14 strand group fails))

/-- `LD` (R391): Lane load from a local address. -/
def execLd (strand group fails : Nat) (s : State) : Host.Outcome State Fault Refusal :=
  .next (finish s (laneOp s 4 0 strand group fails))

/-- `ST` (R391): Lane store to a local address. -/
def execSt (strand group fails : Nat) (s : State) : Host.Outcome State Fault Refusal :=
  .next (finish s (laneOp s 4 1 strand group fails))

/-- `LDE` (R391): Lane load from an Erg offset. -/
def execLde (strand group fails : Nat) (s : State) : Host.Outcome State Fault Refusal :=
  .next (finish s (laneOp s 4 2 strand group fails))

/-- `STE` (R391): Lane store to an Erg offset. -/
def execSte (strand group fails : Nat) (s : State) : Host.Outcome State Fault Refusal :=
  .next (finish s (laneOp s 4 3 strand group fails))

/-- `LDS` (R391): Group-wide scalar load from a local address. -/
def execLds (strand group fails : Nat) (s : State) : Host.Outcome State Fault Refusal :=
  .next (finish s (laneOp s 4 4 strand group fails))

/-- `LDSE` (R391): Group-wide scalar load from an Erg offset. -/
def execLdse (strand group fails : Nat) (s : State) : Host.Outcome State Fault Refusal :=
  .next (finish s (laneOp s 4 5 strand group fails))

/-- `FENCE` (R356): Lane ordering point for loads and stores. -/
def execFence (strand group fails : Nat) (s : State) : Host.Outcome State Fault Refusal :=
  .next (finish s (laneOp s 4 6 strand group fails))

/-- `XL_PICK` (R395): Read a of thread b. -/
def execXlPick (strand group fails : Nat) (s : State) : Host.Outcome State Fault Refusal :=
  .next (finish s (laneOp s 5 0 strand group fails))

/-- `XL_LAG` (R395): Read a of thread t − b or fill. -/
def execXlLag (strand group fails : Nat) (s : State) : Host.Outcome State Fault Refusal :=
  .next (finish s (laneOp s 5 1 strand group fails))

/-- `XL_LEAD` (R395): Read a of thread t + b or fill. -/
def execXlLead (strand group fails : Nat) (s : State) : Host.Outcome State Fault Refusal :=
  .next (finish s (laneOp s 5 2 strand group fails))

/-- `XL_SWAP` (R395): Read a of thread t xor b. -/
def execXlSwap (strand group fails : Nat) (s : State) : Host.Outcome State Fault Refusal :=
  .next (finish s (laneOp s 5 3 strand group fails))

/-- `XL_FSUM` (R396): Floating sum over the group by pairwise tree. -/
def execXlFsum (strand group fails : Nat) (s : State) : Host.Outcome State Fault Refusal :=
  .next (finish s (laneOp s 5 4 strand group fails))

/-- `XL_FMIN` (R396): Floating minimum over the group. -/
def execXlFmin (strand group fails : Nat) (s : State) : Host.Outcome State Fault Refusal :=
  .next (finish s (laneOp s 5 5 strand group fails))

/-- `XL_FMAX` (R396): Floating maximum over the group. -/
def execXlFmax (strand group fails : Nat) (s : State) : Host.Outcome State Fault Refusal :=
  .next (finish s (laneOp s 5 6 strand group fails))

/-- `XL_FPRE` (R396): Inclusive floating prefix sum. -/
def execXlFpre (strand group fails : Nat) (s : State) : Host.Outcome State Fault Refusal :=
  .next (finish s (laneOp s 5 7 strand group fails))

/-- `XL_ISUM` (R396): Integer sum over the group. -/
def execXlIsum (strand group fails : Nat) (s : State) : Host.Outcome State Fault Refusal :=
  .next (finish s (laneOp s 5 8 strand group fails))

/-- `XL_IPRE` (R396): Inclusive integer prefix sum. -/
def execXlIpre (strand group fails : Nat) (s : State) : Host.Outcome State Fault Refusal :=
  .next (finish s (laneOp s 5 9 strand group fails))

/-- `XL_VOTE` (R395): Vote of enabled non-zero threads into a scalar. -/
def execXlVote (strand group fails : Nat) (s : State) : Host.Outcome State Fault Refusal :=
  .next (finish s (laneOp s 5 10 strand group fails))

/-- `XL_READ` (R395): Read a of one thread into a scalar. -/
def execXlRead (strand group fails : Nat) (s : State) : Host.Outcome State Fault Refusal :=
  .next (finish s (laneOp s 5 11 strand group fails))

/-- `RNDP` (R397): Position-keyed draw for the launch key and counter. -/
def execRndp (strand group fails : Nat) (s : State) : Host.Outcome State Fault Refusal :=
  .next (finish s (laneOp s 6 0 strand group fails))

/-- `RNDL` (R397): Next state of the lane-keyed generator. -/
def execRndl (strand group fails : Nat) (s : State) : Host.Outcome State Fault Refusal :=
  .next (finish s (laneOp s 6 1 strand group fails))

/-- `RNDU` (R397): Uniform FP32 in [0, 1) from a draw. -/
def execRndu (strand group fails : Nat) (s : State) : Host.Outcome State Fault Refusal :=
  .next (finish s (laneOp s 6 2 strand group fails))

/-- `RNDB` (R397): Bernoulli predicate from a draw. -/
def execRndb (strand group fails : Nat) (s : State) : Host.Outcome State Fault Refusal :=
  .next (finish s (laneOp s 6 3 strand group fails))

/-- `AADD_I` (R398): Integer atomic add at a local address. -/
def execAaddI (strand group fails : Nat) (s : State) : Host.Outcome State Fault Refusal :=
  .next (finish s (laneOp s 7 0 strand group fails))

/-- `AADD_F` (R398): Floating atomic add at a local address, deferred under DET 1. -/
def execAaddF (strand group fails : Nat) (s : State) : Host.Outcome State Fault Refusal :=
  .next (finish s (laneOp s 7 1 strand group fails))

/-- `AADDE_I` (R398): Integer atomic add at an Erg offset. -/
def execAaddeI (strand group fails : Nat) (s : State) : Host.Outcome State Fault Refusal :=
  .next (finish s (laneOp s 7 2 strand group fails))

/-- `AADDE_F` (R398): Floating atomic add at an Erg offset. -/
def execAaddeF (strand group fails : Nat) (s : State) : Host.Outcome State Fault Refusal :=
  .next (finish s (laneOp s 7 3 strand group fails))

/-- `BRA` (R400): Predicated branch with divergence push. -/
def execBra (strand group fails : Nat) (s : State) : Host.Outcome State Fault Refusal :=
  .next (finish s (laneOp s 8 0 strand group fails))

/-- `JMP` (R399): Unconditional relative jump of active threads. -/
def execJmp (strand group fails : Nat) (s : State) : Host.Outcome State Fault Refusal :=
  .next (finish s (laneOp s 8 1 strand group fails))

/-- `JMPS` (R399): Jump of active threads to a scalar index. -/
def execJmps (strand group fails : Nat) (s : State) : Host.Outcome State Fault Refusal :=
  .next (finish s (laneOp s 8 2 strand group fails))

/-- `EXIT` (R400): Enabled threads exit. -/
def execExit (strand group fails : Nat) (s : State) : Host.Outcome State Fault Refusal :=
  .next (finish s (laneOp s 8 3 strand group fails))

/-- `LANE_NOP` (R399): Lane no-operation. -/
def execLaneNop (strand group fails : Nat) (s : State) : Host.Outcome State Fault Refusal :=
  .next (finish s (laneOp s 8 4 strand group fails))

/-- `FLAGS_RD` (R399): Read the exception word into a scalar. -/
def execFlagsRd (strand group fails : Nat) (s : State) : Host.Outcome State Fault Refusal :=
  .next (finish s (laneOp s 8 5 strand group fails))

/-- `FLAGS_CLR` (R399): Clear exception word bits named by IMM. -/
def execFlagsClr (strand group fails : Nat) (s : State) : Host.Outcome State Fault Refusal :=
  .next (finish s (laneOp s 8 6 strand group fails))

end Sys2Proof.Machine
end

