-- ==== Sys2Proof/Machine/ExecLanes.lean ====
section
/-!
DEFINITION. The meanings of the commands of launches on the lane processors (R341 to R372). Each is the effect of its command, over the shared operations,
and the end of a command.
-/
namespace Sys2Proof.Machine
open Sys2Proof

/-- `LANE_LAUNCH` (R345): Descriptor 0x50 launches thread groups on the lane processors. -/
def execLaneLaunch (strand : Nat) (s : State) : Host.Outcome State Fault Refusal :=
  .next (finish s (launchRun s strand))

/-- `GROUP_DISPATCH` (R346): A thread group is dispatched to the next processor with a free slot. -/
def execGroupDispatch (strand : Nat) (s : State) : Host.Outcome State Fault Refusal :=
  .next (finish s (dispatchRun s strand))

/-- `DEFERRED_ADD_APPLY` (R359): After the last group exits, logged floating-point adds apply in ascending key. -/
def execDeferredAddApply (strand : Nat) (s : State) : Host.Outcome State Fault Refusal :=
  .next (finish s (applyDeferred s strand))

/-- `LANE_SAVE` (R364): Descriptor 0x51 stops a running launch and writes its context image. -/
def execLaneSave (strand : Nat) (s : State) : Host.Outcome State Fault Refusal :=
  .next (finish s (saveRun s strand))

/-- `LANE_RESTORE` (R369): Descriptor 0x52 reloads a context image and continues the launch, or refuses with 0x60. -/
def execLaneRestore (strand : Nat) (s : State) : Host.Outcome State Fault Refusal :=
  .next (finish s (restoreRun s strand))

end Sys2Proof.Machine
end

