-- ==== Sys2Proof/Machine/ExecLinks.lean ====
section
/-!
DEFINITION. The meanings of the commands of the Seif links (R519 to R556). Each is the effect of its command, over the shared operations, and the end of a
command.
-/
namespace Sys2Proof.Machine
open Sys2Proof

/-- `CODEWORD_RECEIVE` (R524): A codeword is decoded; an uncorrectable one discards its flits and requests replay. -/
def execCodewordReceive (port : Nat) (word : Codeword) (waves : List (List Nat)) (s : State) : Host.Outcome State Fault Refusal :=
  .next (finish s (s.ifAwake (fun t => t.on (fun c => codewordReceive c port word waves))))

/-- `PACKET_RECEIVE` (R542): A complete packet is delivered locally or routed to its exit port, or found unreachable. -/
def execPacketReceive (port : Nat) (pkt : Packet) (s : State) : Host.Outcome State Fault Refusal :=
  .next (finish s (s.ifAwake (fun t => t.on (fun c => packetReceive c port pkt))))

/-- `ACK` (R534): An ACK releases acknowledged flits from the replay buffer. -/
def execAck (port seq : Nat) (s : State) : Host.Outcome State Fault Refusal :=
  .next (finish s (s.ifAwake (fun t => t.on (fun c => linkAck c port seq))))

/-- `NAK` (R534): A NAK resends flits from the given SEQ, going DOWN after 8 stalled replays. -/
def execNak (port seq : Nat) (s : State) : Host.Outcome State Fault Refusal :=
  .next (finish s (s.ifAwake (fun t => t.on (fun c => linkNak c port seq))))

/-- `CREDIT` (R531): A CREDIT message returns flits of a wadi and class. -/
def execCredit (port wadi cls flits : Nat) (s : State) : Host.Outcome State Fault Refusal :=
  .next (finish s (s.ifAwake (fun t => t.on (fun c => linkCredit c port wadi cls flits))))

/-- `HEARTBEAT` (R527): A link HEARTBEAT arrives and keeps the port alive. -/
def execHeartbeat (port : Nat) (s : State) : Host.Outcome State Fault Refusal :=
  .next (finish s (s.ifAwake (fun t => t.on (fun c => linkHeartbeat c port))))

/-- `HEARTBEAT_SEND` (R527): Each UP port sends a HEARTBEAT every 10 µs. -/
def execHeartbeatSend (port : Nat) (s : State) : Host.Outcome State Fault Refusal :=
  .next (finish s (s.ifAwake (fun t => t.on (fun c => heartbeatSend c port))))

/-- `IDENT` (R552): An IDENT during training checks the peer and may enter MISWIRED. -/
def execIdent (port node peer : Nat) (s : State) : Host.Outcome State Fault Refusal :=
  .next (finish s (s.ifAwake (fun t => t.on (fun c => linkIdent c port node peer))))

/-- `ABORT_END` (R537): An abort-end flit ends a forwarded packet, which is discarded. -/
def execAbortEnd (port seq wadi : Nat) (s : State) : Host.Outcome State Fault Refusal :=
  .next (finish s (s.ifAwake (fun t => t.on (fun c => abortEnd c port seq wadi))))

/-- `HEARTBEAT_TIMEOUT` (R536): 40 µs without a HEARTBEAT takes the port DOWN. -/
def execHeartbeatTimeout (port : Nat) (s : State) : Host.Outcome State Fault Refusal :=
  .next (finish s (s.ifAwake (fun t => t.on (fun c => heartbeatTimeout c port))))

/-- `LOSS_OF_SIGNAL` (R536): Signal lost on a wavelength for 1 µs takes the port DOWN. -/
def execLossOfSignal (port : Nat) (s : State) : Host.Outcome State Fault Refusal :=
  .next (finish s (s.ifAwake (fun t => t.on (fun c => signalLoss c port 2))))

/-- `LOSS_OF_ALIGNMENT` (R536): Codeword alignment lost for 1 µs takes the port DOWN. -/
def execLossOfAlignment (port : Nat) (s : State) : Host.Outcome State Fault Refusal :=
  .next (finish s (s.ifAwake (fun t => t.on (fun c => signalLoss c port 3))))

/-- `LIGHT_LOSS` (R522): A laser input leaving its window clears LIGHT_OK and takes UP ports DOWN. -/
def execLightLoss (input : Nat) (s : State) : Host.Outcome State Fault Refusal :=
  .next (finish s (lightLost s input))

/-- `PORT_RETRAIN` (R553): An enabled DOWN port retrains every 10 ms. -/
def execPortRetrain (port : Nat) (s : State) : Host.Outcome State Fault Refusal :=
  .next (finish s (s.ifAwake (fun t => t.on (fun c => portRetrain c port))))

/-- `RETRAIN` (R553): SEIF_PORT_CTRL.RETRAIN retrains the port at once. -/
def execRetrain (quarter word : Nat) (s : State) : Host.Outcome State Fault Refusal :=
  .next (finish s (s.hostWord (qoff quarter 8 0x64) (word ||| 2)))

/-- `TRAINING_COMPLETE` (R551): Port training completes and the port enters UP or MISWIRED. -/
def execTrainingComplete (port : Nat) (ok : Bool) (grants : List Nat) (s : State) : Host.Outcome State Fault Refusal :=
  .next (finish s (s.ifAwake (fun t => (t.on (fun c => trainingComplete c port ok grants)).trainedTime)))

/-- `SEIF_CREDIT` (R532): A write to SEIF_CREDIT raises or lowers an allotment or sets CREDIT_ERR. -/
def execSeifCredit (quarter word : Nat) (s : State) : Host.Outcome State Fault Refusal :=
  .next (finish s (s.hostWord (qoff quarter 8 0x70) word))

/-- `UNREACHABLE_NOTICE` (R548): An unreachable notice reaches the source and its sending descriptor completes 0x50. -/
def execUnreachableNotice (strand : Nat) (s : State) : Host.Outcome State Fault Refusal :=
  .next (finish s (s.ifAwake (fun t => t.on (fun c => { c with linkLost := insN c.linkLost strand }))))

end Sys2Proof.Machine
end

