-- ==== Sys2Proof/Machine/ExecManagement.lean ====
section
/-!
DEFINITION. The meanings of the commands of resets and the boot sequence, the host interface, attestation, SMBus (R671 to R727). Each is the effect of its
command, over the shared operations, and the end of a command.
-/
namespace Sys2Proof.Machine
open Sys2Proof

/-- `COLD_RESET` (R695): PWRGD or CRST_N low starts cold reset; on release the boot sequence runs its stages toward READY or FAILED. -/
def execColdReset (pins : BoardPins) (s : State) : Host.Outcome State Fault Refusal :=
  .next (finish s (coldReset s pins))

/-- `SUPPLY_CHECK` (R700): Stage 1 check of rails and reference clocks, repeated every 10 ms until it passes or fails 10 times. -/
def execSupplyCheck (check : SupplyCheck) (tests : BootTests) (s : State) : Host.Outcome State Fault Refusal :=
  .next (finish s (supplyCheck s check tests))

/-- `READY` (R715): The device reaches READY, locks the boot page and applies the image's fuse requests. -/
def execReady (ms : Nat) (s : State) : Host.Outcome State Fault Refusal :=
  .next (finish s (ready s ms))

/-- `WARM_RESET` (R689): PERST_N or HOST_RESET.WARM with KEY 0x5A resets the device, keeping DRAM, and reruns the warm boot stages. -/
def execWarmReset (s : State) : Host.Outcome State Fault Refusal :=
  .next (finish s (warmReset s))

/-- `FUNCTION_LEVEL_RESET` (R690): FLR resigns or aborts strands, discards queues, zero-fills memory and resets the job pages. -/
def execFunctionLevelReset (s : State) : Host.Outcome State Fault Refusal :=
  .next (finish s (functionReset s))

/-- `PCIE_LINK_TRAIN` (R672): Once PERST_N is high the PCIe link trains at the highest common rate and width. -/
def execPcieLinkTrain (partner : PciePartner) (config : PcieConfig) (s : State) : Host.Outcome State Fault Refusal :=
  .next (finish s (linkTrain s partner config))

/-- `UNSUPPORTED_REQUEST` (R675): An I/O, AtomicOp, locked or unmapped memory request completes with Unsupported Request and is logged in AER. -/
def execUnsupportedRequest (tag : Option Nat) (s : State) : Host.Outcome State Fault Refusal :=
  .next (finish s (s.ifAwake (fun t => unsupported t tag)))

/-- `HOST_MEMORY_WRITE` (R680): A host posted write through BAR 2 or BAR 4 takes effect in arrival order, mirrored and journaled. -/
def execHostMemoryWrite (bar4 : Bool) (off : Nat) (bytes : List Byte) (ep ecrcBad : Bool) (s : State) : Host.Outcome State Fault Refusal :=
  .next (finish s (memoryWrite s bar4 off bytes ep ecrcBad))

/-- `HOST_MEMORY_READ` (R682): A host read through BAR 2 or BAR 4 returns its completion within 1 ms, with EP set for poisoned data. -/
def execHostMemoryRead (bar4 : Bool) (off len tag : Nat) (s : State) : Host.Outcome State Fault Refusal :=
  .next (finish s (memoryRead s bar4 off len tag))

/-- `REGISTER_WRITE` (R12): A write to a register field without behaviour of its own acts by its access type and lock. -/
def execRegisterWrite (off value enables : Nat) (s : State) : Host.Outcome State Fault Refusal :=
  .next (finish s (s.hostRegister off value enables))

/-- `LATCHED_LO_READ` (R767): A read of a _LO register latches its _HI register for that reader. -/
def execLatchedLoRead (reader off tag : Nat) (s : State) : Host.Outcome State Fault Refusal :=
  .next (finish s (wordRead s reader off tag))

/-- `LOCK` (R13): A write of 1 to LOCK sets the page's lock bit until cold or warm reset. -/
def execLock (page : Nat) (s : State) : Host.Outcome State Fault Refusal :=
  .next (finish s (s.hostWord (page * 4096 + 0x1C) 1))

/-- `CLR_COUNTS` (R763): CLR_COUNTS clears the page's saturating and 64-bit counters and ERR_COUNT at one clock. -/
def execClrCounts (page : Nat) (s : State) : Host.Outcome State Fault Refusal :=
  .next (finish s (s.hostWord (page * 4096 + 0x08) 1))

/-- `INT_FORCE` (R762): A write to INT_FORCE sets the named INT_STATUS bits for test. -/
def execIntForce (page bits : Nat) (s : State) : Host.Outcome State Fault Refusal :=
  .next (finish s (s.hostWord (page * 4096 + 0x18) bits))

/-- `HOST_IRQ_EOI` (R686): A write to HOST_IRQ_EOI re-evaluates vectors and resends a message for a still pending condition. -/
def execHostIrqEoi (high : Bool) (vectors : Nat) (s : State) : Host.Outcome State Fault Refusal :=
  .next (finish s (s.hostWord (if high then Reg.hostIrqEoiHi else Reg.hostIrqEoiLo) vectors))

/-- `WATCH_FIRE` (R687): An armed event watch whose counter reaches THRESH fires, sets its status bit and clears ARM. -/
def execWatchFire (watch : Nat) (s : State) : Host.Outcome State Fault Refusal :=
  .next (finish s (s.ifLive (fun t => watchFire t watch)))

/-- `HOST_ATTEST_REQ` (R692): Setting HOST_ATTEST_CTRL.REQ starts an attestation report from the host's nonce. -/
def execHostAttestReq (s : State) : Host.Outcome State Fault Refusal :=
  .next (finish s (s.hostWord Reg.hostAttestCtrl 1))

/-- `ATTEST_DONE` (R720): The MC writes the signed report to the window, sets LENGTH and DONE or FAIL and raises ATTEST. -/
def execAttestDone (ok : Bool) (s : State) : Host.Outcome State Fault Refusal :=
  .next (finish s (attestDone s ok))

/-- `OWNER_PROG` (R718): SEC_OWNER_PROG.GO requests programming or revoking an owner slot or retiring the device. -/
def execOwnerProg (slot op : Nat) (s : State) : Host.Outcome State Fault Refusal :=
  .next (finish s (s.hostWord Reg.secOwnerProg (slot % 8 + op % 4 * 8 + 32)))

/-- `OWNER_PROG_DONE` (R718): The MC completes the owner-slot request within 5 ms and sets DONE or FAIL. -/
def execOwnerProgDone (s : State) : Host.Outcome State Fault Refusal :=
  .next (finish s (ownerDone s))

/-- `SMBUS_STATUS` (R707): SMBus command 0x01 returns BOOT_STATUS and BOOT_TESTS. -/
def execSmbusStatus (s : State) : Host.Outcome State Fault Refusal :=
  .next (finish s (s.smbusWords [Reg.bootStatus, Reg.bootTests]))

/-- `SMBUS_TRIP` (R707): SMBus command 0x02 returns PWR_TRIP. -/
def execSmbusTrip (s : State) : Host.Outcome State Fault Refusal :=
  .next (finish s (s.smbusWords [Reg.pwrTrip]))

/-- `SMBUS_IDENT` (R707): SMBus command 0x03 returns part, serial and security state. -/
def execSmbusIdent (s : State) : Host.Outcome State Fault Refusal :=
  .next (finish s (s.smbusWords [Reg.secPart, Reg.secSerialLo, Reg.secSerialHi, Reg.secState]))

/-- `SMBUS_TEMP` (R707): SMBus command 0x04 returns PWR_THERM. -/
def execSmbusTemp (s : State) : Host.Outcome State Fault Refusal :=
  .next (finish s (s.smbusWords [Reg.pwrTherm]))

/-- `SMBUS_ADDR` (R707): SMBus command 0x10 sets the BAR 0 offset for command 0x11. -/
def execSmbusAddr (off : Nat) (s : State) : Host.Outcome State Fault Refusal :=
  .next (finish s (smbusAddr s off))

/-- `SMBUS_READ` (R707): SMBus command 0x11 returns the register at the set offset within the permitted pages. -/
def execSmbusRead (s : State) : Host.Outcome State Fault Refusal :=
  .next (finish s (smbusRead s))

end Sys2Proof.Machine
end

