-- ==== Sys2Proof/Machine/ExecMatrix.lean ====
section
/-!
DEFINITION. The meanings of the commands of the matrix array and the sparse engines (R143 to R262). Each is the effect of its command, over the shared
operations, and the end of a command.
-/
namespace Sys2Proof.Machine
open Sys2Proof

/-- `MATMUL` (R159): Descriptor 0x10 runs a matrix product on the quarter's array. -/
def execMatmul (strand : Nat) (fails : List CheckFail) (s : State) : Host.Outcome State Fault Refusal :=
  .next (finish s (matmulRun s strand fails))

/-- `SPMM` (R229): Descriptor 0x18 multiplies a sparse A by B on the array or SME per segment. -/
def execSpmm (strand : Nat) (fails : List CheckFail) (slabs : List SlabFail) (s : State) : Host.Outcome State Fault Refusal :=
  .next (finish s (spmmRun s strand fails slabs))

/-- `MATMUL_S28` (R243): Descriptor 0x19 runs a product with 2-of-8 compressed B. -/
def execMatmulS28 (strand : Nat) (fails : List CheckFail) (s : State) : Host.Outcome State Fault Refusal :=
  .next (finish s (s28Run s strand fails))

/-- `SP_CONVERT` (R247): Descriptor 0x1A converts an operand between storage forms. -/
def execSpConvert (strand : Nat) (s : State) : Host.Outcome State Fault Refusal :=
  .next (finish s (convertRun s strand))

/-- `THRESH_TUNE` (R251): Every 4 steps the MC adjusts the dense-versus-sparse threshold. -/
def execThreshTune (quarter : Nat) (cmp : PathCompare) (s : State) : Host.Outcome State Fault Refusal :=
  .next (finish s (tuneThresh s quarter cmp))

/-- `MARGIN_ADAPT` (R260): After each 64 audits the MC raises or lowers the predictor margin. -/
def execMarginAdapt (s : State) : Host.Outcome State Fault Refusal :=
  .next (finish s (adaptMargin s))

end Sys2Proof.Machine
end

