-- ==== Sys2Proof/Machine/ExecMemory.lean ====
section
/-!
DEFINITION. The meanings of the commands of the memory system and data integrity (R451 to R518). Each is the effect of its command, over the shared
operations, and the end of a command.
-/
namespace Sys2Proof.Machine
open Sys2Proof

/-- `LAYOUT_CHANGE` (R456): A pending Erg layout takes effect when no strand runs, writing back and invalidating the cache. -/
def execLayoutChange (s : State) : Host.Outcome State Fault Refusal :=
  .next (finish s (s.ifLive (fun t => t.on (fun c => layoutChange c t.running))))

/-- `INTERLEAVE_CHANGE` (R462): A changed MEM_ILV bit takes effect, flushes the group and starts its zero fill. -/
def execInterleaveChange (group : Nat) (s : State) : Host.Outcome State Fault Refusal :=
  .next (finish s (s.ifLive (fun t => t.on (fun c => interleaveChange c group t.running))))

/-- `INTERLEAVE_FILL_END` (R462): The group's zero fill ends and waiting accesses proceed. -/
def execInterleaveFillEnd (group : Nat) (s : State) : Host.Outcome State Fault Refusal :=
  .next (finish s (s.ifLive (fun t => t.on (fun c => interleaveFillEnd c group))))

/-- `LAST_DROP` (R468): A LAST line whose count is zero and readers have completed is invalidated without write-back. -/
def execLastDrop (addr : Nat) (s : State) : Host.Outcome State Fault Refusal :=
  .next (finish s (s.ifLive (fun t => t.on (fun c => lastDrop c addr))))

/-- `HIDDEN_RETRAIN` (R479): Once per PERIOD_MS a channel retrains within a lengthened refresh window. -/
def execHiddenRetrain (chan margin : Nat) (lanes : List Nat) (s : State) : Host.Outcome State Fault Refusal :=
  .next (finish s (s.ifLive (fun t => t.on (fun c => hiddenRetrain c chan margin lanes))))

/-- `FULL_RETRAIN_END` (R480): A full retrain ends and parked requests are served, or the channel enters FAILED. -/
def execFullRetrainEnd (chan margin : Nat) (lanes : List Nat) (s : State) : Host.Outcome State Fault Refusal :=
  .next (finish s (s.ifLive (fun t => t.on (fun c => fullRetrainEnd c chan margin lanes))))

/-- `MEM_RETRAIN_REQ` (R481): A write of REQ asks for a full retrain of the selected channel. -/
def execMemRetrainReq (quarter word : Nat) (s : State) : Host.Outcome State Fault Refusal :=
  .next (finish s (s.hostWord (qoff quarter 6 0x6C) (word ||| 1)))

/-- `TG_START` (R483): MEM_TG_CTRL.START starts the selected channel's traffic generator. -/
def execTgStart (quarter word : Nat) (s : State) : Host.Outcome State Fault Refusal :=
  .next (finish s (s.hostWord (qoff quarter 6 0x80) (word / 8 * 8 + 1)))

/-- `TG_ALL` (R483): MEM_TG_CTRL.ALL starts all 64 generators of the quarter. -/
def execTgAll (quarter word : Nat) (s : State) : Host.Outcome State Fault Refusal :=
  .next (finish s (s.hostWord (qoff quarter 6 0x80) (word / 8 * 8 + 2)))

/-- `TG_STOP` (R483): MEM_TG_CTRL.STOP stops the generator after the current word. -/
def execTgStop (quarter word : Nat) (s : State) : Host.Outcome State Fault Refusal :=
  .next (finish s (s.hostWord (qoff quarter 6 0x80) (word / 8 * 8 + 4)))

/-- `TG_DONE` (R483): A generator run finishes and sets DONE and its error results. -/
def execTgDone (chan errors first lanes : Nat) (s : State) : Host.Outcome State Fault Refusal :=
  .next (finish s (s.ifLive (fun t => t.on (fun c => tgDone c chan errors first lanes))))

/-- `CORRECTION_WRITE` (R492): The queued write of a corrected DRAM burst is issued within 2 µs. -/
def execCorrectionWrite (addr : Nat) (s : State) : Host.Outcome State Fault Refusal :=
  .next (finish s (s.ifLive (fun t => t.on (fun c => correctionWrite c addr))))

/-- `ERG_CORRECTION_REWRITE` (R493): The Erg store rewrites a corrected word at the next free bank cycle. -/
def execErgCorrectionRewrite (addr : Nat) (s : State) : Host.Outcome State Fault Refusal :=
  .next (finish s (s.ifLive (fun t => t.on (fun c => ergRewrite c addr))))

/-- `BUCKET_LEAK` (R495): At each leak instant every unit's bucket level loses 1. -/
def execBucketLeak (quarter : Nat) (s : State) : Host.Outcome State Fault Refusal :=
  .next (finish s (s.ifLive (fun t => t.on (fun c => bucketLeak c quarter))))

/-- `MERGE_WINDOW_EXPIRE` (R501): A merge entry open 256 clocks performs its read-modify-write. -/
def execMergeWindowExpire (addr : Nat) (s : State) : Host.Outcome State Fault Refusal :=
  .next (finish s (s.ifLive (fun t => t.on (fun c => mergeExpire c addr))))

/-- `SCRUB_READ` (R504): A scrubber reads the next word in an idle cycle, correcting and poisoning. -/
def execScrubRead (quarter unit : Nat) (upset : BitVec 80) (s : State) : Host.Outcome State Fault Refusal :=
  .next (finish s (s.ifLive (fun t => t.on (fun c => scrubRead c quarter unit upset))))

/-- `SCRUB_LAP_END` (R507): A completed lap is reported and the MC adapts the scrub rate. -/
def execScrubLapEnd (quarter unit : Nat) (s : State) : Host.Outcome State Fault Refusal :=
  .next (finish s (s.ifLive (fun t => t.on (fun c => scrubLapEnd c quarter unit))))

/-- `LAP_SLOW` (R507): A running lap passing 4 × TARGET_S sets LAP_SLOW once. -/
def execLapSlow (quarter unit : Nat) (s : State) : Host.Outcome State Fault Refusal :=
  .next (finish s (s.ifLive (fun t => t.on (fun c => lapSlow c quarter unit))))

/-- `HISTORY_EXPIRE` (R508): A correction history entry frees 600 s after its last correction. -/
def execHistoryExpire (quarter unit : Nat) (s : State) : Host.Outcome State Fault Refusal :=
  .next (finish s (s.ifLive (fun t => t.on (fun c => historyExpire c quarter unit))))

/-- `ROW_REMAP` (R509): A failing row is copied to a spare at the next step boundary, or retired. -/
def execRowRemap (chan bank row : Nat) (s : State) : Host.Outcome State Fault Refusal :=
  .next (finish s (s.ifLive (fun t => t.on (fun c => rowRemap c chan bank row t.running))))

/-- `REPAIR_RECORD_WRITE` (R514): The MC writes the repair record to the older flash copy within 10 s. -/
def execRepairRecordWrite (ok : Bool) (s : State) : Host.Outcome State Fault Refusal :=
  .next (finish s (s.ifLive (fun t => t.on (fun c => repairWrite c ok))))

end Sys2Proof.Machine
end

