-- ==== Sys2Proof/Machine/ExecPowerControl.lean ====
section
/-!
DEFINITION. The meanings of the commands of power, droop and thermal control, and the pins (R639 to R670, R740 to R758). Each is the effect of its command,
over the shared operations, and the end of a command.
-/
namespace Sys2Proof.Machine
open Sys2Proof

/-- `CONTROL_PERIOD` (R642): At each 1 ms control period the MC allocates the cap and forms its frequency request. -/
def execControlPeriod (measure : PeriodMeasure) (s : State) : Host.Outcome State Fault Refusal :=
  .next (finish s (s.ifLive (fun t => controlPeriod t measure)))

/-- `AVS_SAMPLE` (R639): Every 100 µs the MC samples rail powers over AVSBus and recalibrates its estimate. -/
def execAvsSample (watts : List (Nat × Nat)) (s : State) : Host.Outcome State Fault Refusal :=
  .next (finish s (s.ifLive (fun t => avsSample t watts)))

/-- `POWER_ESTIMATE` (R647): Every 1 µs the power estimate is formed and COMPUTE is paced to the short-term limits. -/
def execPowerEstimate (watts : Nat) (s : State) : Host.Outcome State Fault Refusal :=
  .next (finish s (s.ifLive (fun t => powerEstimate t watts)))

/-- `FREQ_STEP` (R651): During a raise the job frequency steps up 25 MHz each microsecond. -/
def execFreqStep (s : State) : Host.Outcome State Fault Refusal :=
  .next (finish s (s.ifLive freqStep))

/-- `THERMAL_LOOP` (R664): Each 1 ms the device paces or stops work and adjusts refresh by temperature. -/
def execThermalLoop (tj : Nat) (temps : List Nat) (s : State) : Host.Outcome State Fault Refusal :=
  .next (finish s (s.ifLive (fun t => thermalLoop t tj temps)))

/-- `DROOP_DETECT` (R654): A droop sensor below threshold stretches the quarter's compute clock. -/
def execDroopDetect (reading : DroopReading) (s : State) : Host.Outcome State Fault Refusal :=
  .next (finish s (s.ifAwake (fun t => droopDetect t reading.quarter reading.mv)))

/-- `DROOP_END` (R654): Stretching ends 32 periods after the last sensor recovers. -/
def execDroopEnd (quarter : Nat) (s : State) : Host.Outcome State Fault Refusal :=
  .next (finish s (s.ifAwake (fun t => droopEnd t quarter)))

/-- `RAMP_ADMIT` (R656): A waiting start from idle is admitted once the ramp bucket holds its charge. -/
def execRampAdmit (s : State) : Host.Outcome State Fault Refusal :=
  .next (finish s (s.ifLive rampAdmit))

/-- `COLUMN_ENABLE` (R659): An admitted or idling array enables or disables one eighth of its columns every 500 ns. -/
def execColumnEnable (quarter : Nat) (s : State) : Host.Outcome State Fault Refusal :=
  .next (finish s (s.ifLive (fun t => columnEnable t quarter)))

/-- `THROTTLE_ASSERT` (R666): THROTTLE_N low for 1 µs lowers the cap in force. -/
def execThrottleAssert (s : State) : Host.Outcome State Fault Refusal :=
  .next (finish s (s.ifAwake throttleAssert))

/-- `THROTTLE_RELEASE` (R666): THROTTLE_N high for 1 µs restores the cap at the next control period. -/
def execThrottleRelease (s : State) : Host.Outcome State Fault Refusal :=
  .next (finish s (s.ifAwake throttleRelease))

/-- `THERMAL_TRIP` (R665): A sensor at 115 °C asserts THERMTRIP_N and holds the device in reset. -/
def execThermalTrip (sensor temp : Nat) (s : State) : Host.Outcome State Fault Refusal :=
  .next (finish s (if s.mgmt.held then s else thermalTrip s sensor temp))

/-- `AVS_TIMEOUT` (R740): An AVSBus command unanswered for 1 ms switches the rail to the on-die estimate and sets AVS_LOST. -/
def execAvsTimeout (rail : Nat) (s : State) : Host.Outcome State Fault Refusal :=
  .next (finish s (s.ifLive (fun t => avsTimeout t rail)))

/-- `GPIO_PULSE_END` (R747): A STEP-function GPIO returns low 1 µs after a boundary publication. -/
def execGpioPulseEnd (s : State) : Host.Outcome State Fault Refusal :=
  .next (finish s (pulseEnds s))

/-- `TREF_PPS_LOSS` (R750): Two consecutive TREF_PPS edges fail to arrive, so REF_OK falls and REF_LOST is raised on a disciplined root. -/
def execTrefPpsLoss (s : State) : Host.Outcome State Fault Refusal :=
  .next (finish s (s.ifAwake ppsLoss))

/-- `LIGHT_RETURN` (R705): Light returns to a laser input within its window, LIGHT_OK rises and its enabled ports that lacked light begin training. -/
def execLightReturn (input : Nat) (s : State) : Host.Outcome State Fault Refusal :=
  .next (finish s (lightBack s input))

end Sys2Proof.Machine
end

