-- ==== Sys2Proof/Machine/ExecTiming.lean ====
section
/-!
DEFINITION. The meanings of the commands of cluster time (R44 to R62). Each is the effect of its command, over the shared operations, and the end of a
command.
-/
namespace Sys2Proof.Machine
open Sys2Proof

/-- `TIME_MESSAGE_SEND` (R46): Each trained port sends a time message on wadi 1 once per microsecond. -/
def execTimeMessageSend (port : Nat) (s : State) : Host.Outcome State Fault Refusal :=
  .next (finish s (s.ifLive (fun t => timeSend t port)))

/-- `TIME_MESSAGE_RECEIVE` (R51): A received time message updates the offset, parent choice and ACQUIRE or LOCKED state. -/
def execTimeMessageReceive (port : Nat) (msg : TimeMsg) (offset : Int) (s : State) : Host.Outcome State Fault Refusal :=
  .next (finish s (s.ifLive (fun t => timeReceive t port msg offset)))

/-- `ROOT_YIELD` (R55): A root that hears a higher-ranking root stops acting as root within 1 µs and sets ROOT_CONFLICT. -/
def execRootYield (port : Nat) (s : State) : Host.Outcome State Fault Refusal :=
  .next (finish s (s.ifLive (fun t => rootYield t port)))

/-- `TREF_PPS_EDGE` (R46): A TREF_PPS rising edge steers a disciplined root toward the whole second and checks REF_OK. -/
def execTrefPpsEdge (cycles : Nat) (clk : Bool) (s : State) : Host.Outcome State Fault Refusal :=
  .next (finish s (s.ifAwake (fun t => ppsEdge t cycles clk)))

/-- `CT_SET_HI` (R56): A write to CT_SET_HI on a root with no strand started arms the cluster-time load. -/
def execCtSetHi (value : Nat) (s : State) : Host.Outcome State Fault Refusal :=
  .next (finish s (s.hostWord Reg.ctSetHi value))

/-- `PARENT_LOSS` (R52): 20 µs without a parent time message puts the follower in HOLDOVER to choose a new parent. -/
def execParentLoss (s : State) : Host.Outcome State Fault Refusal :=
  .next (finish s (s.ifLive parentLoss))

/-- `ROOT_LOSS` (R54): 1 ms without a time message from the root makes the best backup the root. -/
def execRootLoss (others : List (Nat × Nat)) (s : State) : Host.Outcome State Fault Refusal :=
  .next (finish s (s.ifLive (fun t => rootLoss t others)))

/-- `REF_CLK_LOSS` (R750): TREF_CLK absent for 10 µs drops REF_OK. -/
def execRefClkLoss (s : State) : Host.Outcome State Fault Refusal :=
  .next (finish s (s.ifAwake refClkLoss))

/-- `TIMED_EVENT` (R57): An event scheduled for cluster time T takes effect at the first clock edge at or after T, in the order of R60. -/
def execTimedEvent (s : State) : Host.Outcome State Fault Refusal :=
  .next (finish s (timedEvent s))

end Sys2Proof.Machine
end

