-- ==== Sys2Proof/Machine/ExecTraining.lean ====
section
/-!
DEFINITION. The meanings of the commands of training support, random numbers and copies (R423 to R476). Each is the effect of its command, over the shared
operations, and the end of a command.
-/
namespace Sys2Proof.Machine
open Sys2Proof

/-- `ACT_STASH` (R423): Descriptor 0x7E moves activations to the local, twin or host stash area. -/
def execActStash (strand : Nat) (s : State) : Host.Outcome State Fault Refusal :=
  .next (finish s (stashRun s strand))

/-- `ACT_FETCH` (R423): Descriptor 0x7F moves activations back from a stash area. -/
def execActFetch (strand : Nat) (s : State) : Host.Outcome State Fault Refusal :=
  .next (finish s (fetchRun s strand))

/-- `SPARE_ANNOUNCE` (R430): A twin's spare-area announcement arrives and updates TRN_TWIN_SPARE. -/
def execSpareAnnounce (units : Nat) (s : State) : Host.Outcome State Fault Refusal :=
  .next (finish s (announced s units))

/-- `RNG_ROUND` (R448): Descriptor 0x80 sets the strand's rounding context, a transaction member's at its completion (R443). -/
def execRngRound (strand : Nat) (s : State) : Host.Outcome State Fault Refusal :=
  .next (finish s (rngRun s 0x80 strand (fun x => if x.acc.txn.isSome then x else rngRound x (s.strand strand).steps)))

/-- `RNG_DERIVE` (R448): Descriptor 0x81 writes a derived key to memory. -/
def execRngDerive (strand : Nat) (s : State) : Host.Outcome State Fault Refusal :=
  .next (finish s (rngRun s 0x81 strand (fun x => rngDerive x (s.strand strand).steps)))

/-- `RNG_FILL` (R449): Descriptor 0x82 fills memory with uniform or normal values. -/
def execRngFill (strand : Nat) (s : State) : Host.Outcome State Fault Refusal :=
  .next (finish s (rngRun s 0x82 strand rngFill))

/-- `RNG_LANE_SEED` (R450): Descriptor 0x83 holds dispatch, waits for idle lanes and seeds every lane-keyed generator. -/
def execRngLaneSeed (strand : Nat) (s : State) : Host.Outcome State Fault Refusal :=
  .next (finish s (seedRun s strand))

/-- `COPY` (R473): Descriptor 0x70 copies rows of bytes. -/
def execCopy (strand : Nat) (s : State) : Host.Outcome State Fault Refusal :=
  .next (finish s (dmaRun s 0x70 strand dmaCopy))

/-- `FILL` (R473): Descriptor 0x71 fills a range with an 8-byte pattern. -/
def execFill (strand : Nat) (s : State) : Host.Outcome State Fault Refusal :=
  .next (finish s (dmaRun s 0x71 strand dmaFill))

/-- `PREFETCH` (R474): CACHE_OP 0 fetches absent lines with a hint. -/
def execPrefetch (strand : Nat) (s : State) : Host.Outcome State Fault Refusal :=
  .next (finish s (cacheRun s 0 strand cachePrefetch))

/-- `WRITEBACK` (R474): CACHE_OP 1 writes dirty sectors and keeps the lines. -/
def execWriteback (strand : Nat) (s : State) : Host.Outcome State Fault Refusal :=
  .next (finish s (cacheRun s 1 strand cacheWriteback))

/-- `DISCARD` (R474): CACHE_OP 2 invalidates lines wholly inside the range without write-back. -/
def execDiscard (strand : Nat) (s : State) : Host.Outcome State Fault Refusal :=
  .next (finish s (cacheRun s 2 strand cacheDiscard))

/-- `UNPIN` (R474): CACHE_OP 3 sets every KEEP line to hint 0. -/
def execUnpin (strand : Nat) (s : State) : Host.Outcome State Fault Refusal :=
  .next (finish s (cacheRun s 3 strand cacheUnpin))

/-- `SET_HINT` (R474): CACHE_OP 4 sets hint and count of present lines. -/
def execSetHint (strand : Nat) (s : State) : Host.Outcome State Fault Refusal :=
  .next (finish s (cacheRun s 4 strand cacheSetHint))

/-- `SKEW` (R476): Descriptor 0x73 writes an operand layout from a row-major matrix. -/
def execSkew (strand : Nat) (s : State) : Host.Outcome State Fault Refusal :=
  .next (finish s (dmaRun s 0x73 strand dmaSkew))

end Sys2Proof.Machine
end

