-- ==== Sys2Proof/Machine/ExecTwin.lean ====
section
/-!
DEFINITION. The meanings of the commands of the job and the twin (R595 to R638). Each is the effect of its command, over the shared operations, and the end
of a command.
-/
namespace Sys2Proof.Machine
open Sys2Proof

/-- `MIRROR_BLOCK` (R606): The twin writes an arriving mirror block at a + D and acknowledges it. -/
def execMirrorBlock (msg : MirrorMsg) (s : State) : Host.Outcome State Fault Refusal :=
  .next (finish s (s.ifServes (fun t => mirrorBlock t msg)))

/-- `MIRROR_ACK` (R608): A mirror acknowledgement drains the mirror queue and may permit the boundary vote. -/
def execMirrorAck (addr kind : Nat) (s : State) : Host.Outcome State Fault Refusal :=
  .next (finish s (s.ifServes (fun t => mirrorAck t addr kind)))

/-- `MIRROR_RESEND_REQUEST` (R613): A request from the twin re-queues a block found uncorrectable in its mirror area. -/
def execMirrorResendRequest (addr : Nat) (s : State) : Host.Outcome State Fault Refusal :=
  .next (finish s (s.ifServes (fun t => mirrorResend t addr)))

/-- `RESTART_READY` (R617): The leader counts a READY of the current restart and sends START when all have arrived. -/
def execRestartReady (node number : Nat) (s : State) : Host.Outcome State Fault Refusal :=
  .next (finish s (s.ifServes (fun t => restartReady t node number)))

/-- `RESTART_START` (R616): A START message sets T_R at which the job strands start again. -/
def execRestartStart (number time : Nat) (s : State) : Host.Outcome State Fault Refusal :=
  .next (finish s (s.ifServes (fun t => restartStart t number time)))

/-- `READY_TIMEOUT` (R618): 100 ms without every READY makes the leader send STOP. -/
def execReadyTimeout (s : State) : Host.Outcome State Fault Refusal :=
  .next (finish s (s.ifServes readyTimeout))

/-- `JOB_STOP` (R618): A STOP message halts the device's strands and enters STOPPED. -/
def execJobStop (s : State) : Host.Outcome State Fault Refusal :=
  .next (finish s (s.ifServes jobStop))

/-- `TWIN_HEARTBEAT_SEND` (R620): Each device of a formed pair sends a twin heartbeat every 10 µs. -/
def execTwinHeartbeatSend (s : State) : Host.Outcome State Fault Refusal :=
  .next (finish s (s.ifServes twinHeartbeatSend))

/-- `TWIN_HEARTBEAT` (R620): A twin heartbeat arrives and keeps HB_OK set. -/
def execTwinHeartbeat (s : State) : Host.Outcome State Fault Refusal :=
  .next (finish s (s.ifServes twinHeartbeat))

/-- `TWIN_LOSS` (R621): 200 µs without a twin heartbeat declares the twin LOST and requests failover. -/
def execTwinLoss (s : State) : Host.Outcome State Fault Refusal :=
  .next (finish s (s.ifServes twinLoss))

/-- `RESIGN` (R621): A RESIGN message from the twin declares it LOST at once. -/
def execResign (s : State) : Host.Outcome State Fault Refusal :=
  .next (finish s (s.ifServes resign))

/-- `TWIN_RESIGN` (R622): TWIN_CTRL.RESIGN makes the device send RESIGN, cancel strands and enter FENCED. -/
def execTwinResign (s : State) : Host.Outcome State Fault Refusal :=
  .next (finish s (s.hostWord Reg.twinCtrl 8))

/-- `FAILOVER_REQ` (R624): The leader accepts or refuses a failover request and broadcasts FAILOVER. -/
def execFailoverReq (lost stand : Nat) (formed : Bool) (s : State) : Host.Outcome State Fault Refusal :=
  .next (finish s (s.ifServes (fun t => failoverReq t lost stand formed)))

/-- `FAILOVER` (R625): A FAILOVER notice writes the alias entry, stages the takeover translation and restarts. -/
def execFailover (lost stand number : Nat) (refused : Bool) (s : State) : Host.Outcome State Fault Refusal :=
  .next (finish s (s.ifServes (fun t => failover t lost stand number refused)))

/-- `HANDBACK` (R635): A HANDBACK notice removes the alias, reverses the translation and restarts. -/
def execHandback (lost stand number : Nat) (s : State) : Host.Outcome State Fault Refusal :=
  .next (finish s (s.ifServes (fun t => handback t lost stand number)))

/-- `FORM` (R603): TWIN_CTRL.FORM starts forming the pair and its mirror fills. -/
def execForm (s : State) : Host.Outcome State Fault Refusal :=
  .next (finish s (s.hostWord Reg.twinCtrl 1))

/-- `DETACH` (R632): TWIN_CTRL.DETACH makes the device resign at the next boundary publication. -/
def execDetach (s : State) : Host.Outcome State Fault Refusal :=
  .next (finish s (s.hostWord Reg.twinCtrl 2))

/-- `ATTACH` (R633): TWIN_CTRL.ATTACH makes a replacement start the mirror and hand-back fills. -/
def execAttach (s : State) : Host.Outcome State Fault Refusal :=
  .next (finish s (s.hostWord Reg.twinCtrl 4))

/-- `FILL_END` (R635): A mirror or hand-back fill ends, leading to FORMED or HANDBACK at the next publication. -/
def execFillEnd (s : State) : Host.Outcome State Fault Refusal :=
  .next (finish s (s.ifServes fillEnd))

end Sys2Proof.Machine
end

