-- ==== Sys2Proof/Machine/Dispatch.lean ====
section
/-!
DEFINITION. The dispatch: one arm per command, each one direct call of its meaning.
-/
namespace Sys2Proof.Machine
open Sys2Proof

/-- The effect of a command on everything but the queue. -/
def exec (i : Instr) (s : State) : Host.Outcome State Fault Refusal :=
  match i with
  | .coldReset pins => Sys2Proof.Machine.execColdReset pins s
  | .supplyCheck check tests => Sys2Proof.Machine.execSupplyCheck check tests s
  | .ready ms => Sys2Proof.Machine.execReady ms s
  | .warmReset => Sys2Proof.Machine.execWarmReset s
  | .functionLevelReset => Sys2Proof.Machine.execFunctionLevelReset s
  | .pcieLinkTrain partner config => Sys2Proof.Machine.execPcieLinkTrain partner config s
  | .unsupportedRequest tag => Sys2Proof.Machine.execUnsupportedRequest tag s
  | .hostMemoryWrite bar4 off bytes ep ecrcBad => Sys2Proof.Machine.execHostMemoryWrite bar4 off bytes ep ecrcBad s
  | .hostMemoryRead bar4 off len tag => Sys2Proof.Machine.execHostMemoryRead bar4 off len tag s
  | .registerWrite off value enables => Sys2Proof.Machine.execRegisterWrite off value enables s
  | .latchedLoRead reader off tag => Sys2Proof.Machine.execLatchedLoRead reader off tag s
  | .lock page => Sys2Proof.Machine.execLock page s
  | .clrCounts page => Sys2Proof.Machine.execClrCounts page s
  | .intForce page bits => Sys2Proof.Machine.execIntForce page bits s
  | .hostIrqEoi high vectors => Sys2Proof.Machine.execHostIrqEoi high vectors s
  | .watchFire watch => Sys2Proof.Machine.execWatchFire watch s
  | .hostAttestReq => Sys2Proof.Machine.execHostAttestReq s
  | .attestDone ok => Sys2Proof.Machine.execAttestDone ok s
  | .ownerProg slot op => Sys2Proof.Machine.execOwnerProg slot op s
  | .ownerProgDone => Sys2Proof.Machine.execOwnerProgDone s
  | .smbusStatus => Sys2Proof.Machine.execSmbusStatus s
  | .smbusTrip => Sys2Proof.Machine.execSmbusTrip s
  | .smbusIdent => Sys2Proof.Machine.execSmbusIdent s
  | .smbusTemp => Sys2Proof.Machine.execSmbusTemp s
  | .smbusAddr off => Sys2Proof.Machine.execSmbusAddr off s
  | .smbusRead => Sys2Proof.Machine.execSmbusRead s
  | .timeMessageSend port => Sys2Proof.Machine.execTimeMessageSend port s
  | .timeMessageReceive port msg offset => Sys2Proof.Machine.execTimeMessageReceive port msg offset s
  | .rootYield port => Sys2Proof.Machine.execRootYield port s
  | .trefPpsEdge cycles clk => Sys2Proof.Machine.execTrefPpsEdge cycles clk s
  | .ctSetHi value => Sys2Proof.Machine.execCtSetHi value s
  | .parentLoss => Sys2Proof.Machine.execParentLoss s
  | .rootLoss others => Sys2Proof.Machine.execRootLoss others s
  | .refClkLoss => Sys2Proof.Machine.execRefClkLoss s
  | .timedEvent => Sys2Proof.Machine.execTimedEvent s
  | .start strand haltOnErr quarter => Sys2Proof.Machine.execStart strand haltOnErr quarter s
  | .stop strand => Sys2Proof.Machine.execStop strand s
  | .abort strand => Sys2Proof.Machine.execAbort strand s
  | .cpEventValue value => Sys2Proof.Machine.execCpEventValue value s
  | .cpEventAdd value => Sys2Proof.Machine.execCpEventAdd value s
  | .descriptorFetch strand => Sys2Proof.Machine.execDescriptorFetch strand s
  | .waitTimeEnd strand => Sys2Proof.Machine.execWaitTimeEnd strand s
  | .eventWaitSatisfied strand => Sys2Proof.Machine.execEventWaitSatisfied strand s
  | .descriptorTimeout strand => Sys2Proof.Machine.execDescriptorTimeout strand s
  | .descriptorComplete strand => Sys2Proof.Machine.execDescriptorComplete strand s
  | .strandWatchdog strand => Sys2Proof.Machine.execStrandWatchdog strand s
  | .stepWatchdog => Sys2Proof.Machine.execStepWatchdog s
  | .nop strand => Sys2Proof.Machine.execNop strand s
  | .jump strand => Sys2Proof.Machine.execJump strand s
  | .loop strand => Sys2Proof.Machine.execLoop strand s
  | .halt strand => Sys2Proof.Machine.execHalt strand s
  | .eventSet strand => Sys2Proof.Machine.execEventSet strand s
  | .stepMark strand => Sys2Proof.Machine.execStepMark strand s
  | .txnPrepare strand => Sys2Proof.Machine.execTxnPrepare strand s
  | .txnCommit strand => Sys2Proof.Machine.execTxnCommit strand s
  | .txnAbort strand => Sys2Proof.Machine.execTxnAbort strand s
  | .storeImm strand => Sys2Proof.Machine.execStoreImm strand s
  | .strandStart strand => Sys2Proof.Machine.execStrandStart strand s
  | .txnVote vote => Sys2Proof.Machine.execTxnVote vote s
  | .txnDecision src dec toTwin => Sys2Proof.Machine.execTxnDecision src dec toTwin s
  | .decisionAck group txn => Sys2Proof.Machine.execDecisionAck group txn s
  | .txnPublish => Sys2Proof.Machine.execTxnPublish s
  | .armTime page word => Sys2Proof.Machine.execArmTime page word s
  | .armDesc page word => Sys2Proof.Machine.execArmDesc page word s
  | .swapNow page word => Sys2Proof.Machine.execSwapNow page word s
  | .disarm page word => Sys2Proof.Machine.execDisarm page word s
  | .shadowSwap page => Sys2Proof.Machine.execShadowSwap page s
  | .matmul strand fails => Sys2Proof.Machine.execMatmul strand fails s
  | .spmm strand fails slabs => Sys2Proof.Machine.execSpmm strand fails slabs s
  | .matmulS28 strand fails => Sys2Proof.Machine.execMatmulS28 strand fails s
  | .spConvert strand => Sys2Proof.Machine.execSpConvert strand s
  | .threshTune quarter cmp => Sys2Proof.Machine.execThreshTune quarter cmp s
  | .marginAdapt => Sys2Proof.Machine.execMarginAdapt s
  | .sample strand => Sys2Proof.Machine.execSample strand s
  | .sampleRemoteRequest dst wadi req => Sys2Proof.Machine.execSampleRemoteRequest dst wadi req s
  | .sampleRemoteAnswer dst ans => Sys2Proof.Machine.execSampleRemoteAnswer dst ans s
  | .embLookup strand => Sys2Proof.Machine.execEmbLookup strand s
  | .embLookupRequest dst req => Sys2Proof.Machine.execEmbLookupRequest dst req s
  | .embLookupAnswer dst src ans => Sys2Proof.Machine.execEmbLookupAnswer dst src ans s
  | .embGrad strand => Sys2Proof.Machine.execEmbGrad strand s
  | .embBagGradient dst grad => Sys2Proof.Machine.execEmbBagGradient dst grad s
  | .embContribution dst contrib => Sys2Proof.Machine.execEmbContribution dst contrib s
  | .embFlush dst src table tag => Sys2Proof.Machine.execEmbFlush dst src table tag s
  | .updateWindowStage1 strand => Sys2Proof.Machine.execUpdateWindowStage1 strand s
  | .embForwardFlush dst src table tag => Sys2Proof.Machine.execEmbForwardFlush dst src table tag s
  | .updateWindowStage2 strand => Sys2Proof.Machine.execUpdateWindowStage2 strand s
  | .embUpdate strand => Sys2Proof.Machine.execEmbUpdate strand s
  | .embSync strand => Sys2Proof.Machine.execEmbSync strand s
  | .migrationSelect mean low => Sys2Proof.Machine.execMigrationSelect mean low s
  | .migrationCopy dst msg => Sys2Proof.Machine.execMigrationCopy dst msg s
  | .migrationVerdict table row isReady => Sys2Proof.Machine.execMigrationVerdict table row isReady s
  | .migrationNotice dst note => Sys2Proof.Machine.execMigrationNotice dst note s
  | .forwardEnd table row => Sys2Proof.Machine.execForwardEnd table row s
  | .laneLaunch strand => Sys2Proof.Machine.execLaneLaunch strand s
  | .groupDispatch strand => Sys2Proof.Machine.execGroupDispatch strand s
  | .deferredAddApply strand => Sys2Proof.Machine.execDeferredAddApply strand s
  | .laneSave strand => Sys2Proof.Machine.execLaneSave strand s
  | .laneRestore strand => Sys2Proof.Machine.execLaneRestore strand s
  | .add strand group fails => Sys2Proof.Machine.execAdd strand group fails s
  | .sub strand group fails => Sys2Proof.Machine.execSub strand group fails s
  | .mul strand group fails => Sys2Proof.Machine.execMul strand group fails s
  | .fma strand group fails => Sys2Proof.Machine.execFma strand group fails s
  | .fms strand group fails => Sys2Proof.Machine.execFms strand group fails s
  | .div strand group fails => Sys2Proof.Machine.execDiv strand group fails s
  | .sqrt strand group fails => Sys2Proof.Machine.execSqrt strand group fails s
  | .min strand group fails => Sys2Proof.Machine.execMin strand group fails s
  | .max strand group fails => Sys2Proof.Machine.execMax strand group fails s
  | .abs strand group fails => Sys2Proof.Machine.execAbs strand group fails s
  | .neg strand group fails => Sys2Proof.Machine.execNeg strand group fails s
  | .exp2 strand group fails => Sys2Proof.Machine.execExp2 strand group fails s
  | .log2 strand group fails => Sys2Proof.Machine.execLog2 strand group fails s
  | .rsqrt strand group fails => Sys2Proof.Machine.execRsqrt strand group fails s
  | .iadd strand group fails => Sys2Proof.Machine.execIadd strand group fails s
  | .isub strand group fails => Sys2Proof.Machine.execIsub strand group fails s
  | .imul strand group fails => Sys2Proof.Machine.execImul strand group fails s
  | .imacc strand group fails => Sys2Proof.Machine.execImacc strand group fails s
  | .ihigh strand group fails => Sys2Proof.Machine.execIhigh strand group fails s
  | .and strand group fails => Sys2Proof.Machine.execAnd strand group fails s
  | .or strand group fails => Sys2Proof.Machine.execOr strand group fails s
  | .xor strand group fails => Sys2Proof.Machine.execXor strand group fails s
  | .shl strand group fails => Sys2Proof.Machine.execShl strand group fails s
  | .shr strand group fails => Sys2Proof.Machine.execShr strand group fails s
  | .sar strand group fails => Sys2Proof.Machine.execSar strand group fails s
  | .imin strand group fails => Sys2Proof.Machine.execImin strand group fails s
  | .imax strand group fails => Sys2Proof.Machine.execImax strand group fails s
  | .bitcnt strand group fails => Sys2Proof.Machine.execBitcnt strand group fails s
  | .inshi strand group fails => Sys2Proof.Machine.execInshi strand group fails s
  | .mov strand group fails => Sys2Proof.Machine.execMov strand group fails s
  | .scalarIadd strand group fails => Sys2Proof.Machine.execScalarIadd strand group fails s
  | .scalarIsub strand group fails => Sys2Proof.Machine.execScalarIsub strand group fails s
  | .scalarImul strand group fails => Sys2Proof.Machine.execScalarImul strand group fails s
  | .scalarImacc strand group fails => Sys2Proof.Machine.execScalarImacc strand group fails s
  | .scalarIhigh strand group fails => Sys2Proof.Machine.execScalarIhigh strand group fails s
  | .scalarAnd strand group fails => Sys2Proof.Machine.execScalarAnd strand group fails s
  | .scalarOr strand group fails => Sys2Proof.Machine.execScalarOr strand group fails s
  | .scalarXor strand group fails => Sys2Proof.Machine.execScalarXor strand group fails s
  | .scalarShl strand group fails => Sys2Proof.Machine.execScalarShl strand group fails s
  | .scalarShr strand group fails => Sys2Proof.Machine.execScalarShr strand group fails s
  | .scalarSar strand group fails => Sys2Proof.Machine.execScalarSar strand group fails s
  | .scalarImin strand group fails => Sys2Proof.Machine.execScalarImin strand group fails s
  | .scalarImax strand group fails => Sys2Proof.Machine.execScalarImax strand group fails s
  | .scalarBitcnt strand group fails => Sys2Proof.Machine.execScalarBitcnt strand group fails s
  | .scalarInshi strand group fails => Sys2Proof.Machine.execScalarInshi strand group fails s
  | .scalarMov strand group fails => Sys2Proof.Machine.execScalarMov strand group fails s
  | .cvt strand group fails => Sys2Proof.Machine.execCvt strand group fails s
  | .i2f strand group fails => Sys2Proof.Machine.execI2f strand group fails s
  | .u2f strand group fails => Sys2Proof.Machine.execU2f strand group fails s
  | .f2i strand group fails => Sys2Proof.Machine.execF2i strand group fails s
  | .f2u strand group fails => Sys2Proof.Machine.execF2u strand group fails s
  | .feq strand group fails => Sys2Proof.Machine.execFeq strand group fails s
  | .flt strand group fails => Sys2Proof.Machine.execFlt strand group fails s
  | .fle strand group fails => Sys2Proof.Machine.execFle strand group fails s
  | .fne strand group fails => Sys2Proof.Machine.execFne strand group fails s
  | .fun strand group fails => Sys2Proof.Machine.execFun strand group fails s
  | .ieq strand group fails => Sys2Proof.Machine.execIeq strand group fails s
  | .ilt strand group fails => Sys2Proof.Machine.execIlt strand group fails s
  | .iltu strand group fails => Sys2Proof.Machine.execIltu strand group fails s
  | .sel strand group fails => Sys2Proof.Machine.execSel strand group fails s
  | .pand strand group fails => Sys2Proof.Machine.execPand strand group fails s
  | .por strand group fails => Sys2Proof.Machine.execPor strand group fails s
  | .pxor strand group fails => Sys2Proof.Machine.execPxor strand group fails s
  | .pandn strand group fails => Sys2Proof.Machine.execPandn strand group fails s
  | .p2s strand group fails => Sys2Proof.Machine.execP2s strand group fails s
  | .s2p strand group fails => Sys2Proof.Machine.execS2p strand group fails s
  | .ld strand group fails => Sys2Proof.Machine.execLd strand group fails s
  | .st strand group fails => Sys2Proof.Machine.execSt strand group fails s
  | .lde strand group fails => Sys2Proof.Machine.execLde strand group fails s
  | .ste strand group fails => Sys2Proof.Machine.execSte strand group fails s
  | .lds strand group fails => Sys2Proof.Machine.execLds strand group fails s
  | .ldse strand group fails => Sys2Proof.Machine.execLdse strand group fails s
  | .fence strand group fails => Sys2Proof.Machine.execFence strand group fails s
  | .xlPick strand group fails => Sys2Proof.Machine.execXlPick strand group fails s
  | .xlLag strand group fails => Sys2Proof.Machine.execXlLag strand group fails s
  | .xlLead strand group fails => Sys2Proof.Machine.execXlLead strand group fails s
  | .xlSwap strand group fails => Sys2Proof.Machine.execXlSwap strand group fails s
  | .xlFsum strand group fails => Sys2Proof.Machine.execXlFsum strand group fails s
  | .xlFmin strand group fails => Sys2Proof.Machine.execXlFmin strand group fails s
  | .xlFmax strand group fails => Sys2Proof.Machine.execXlFmax strand group fails s
  | .xlFpre strand group fails => Sys2Proof.Machine.execXlFpre strand group fails s
  | .xlIsum strand group fails => Sys2Proof.Machine.execXlIsum strand group fails s
  | .xlIpre strand group fails => Sys2Proof.Machine.execXlIpre strand group fails s
  | .xlVote strand group fails => Sys2Proof.Machine.execXlVote strand group fails s
  | .xlRead strand group fails => Sys2Proof.Machine.execXlRead strand group fails s
  | .rndp strand group fails => Sys2Proof.Machine.execRndp strand group fails s
  | .rndl strand group fails => Sys2Proof.Machine.execRndl strand group fails s
  | .rndu strand group fails => Sys2Proof.Machine.execRndu strand group fails s
  | .rndb strand group fails => Sys2Proof.Machine.execRndb strand group fails s
  | .aaddI strand group fails => Sys2Proof.Machine.execAaddI strand group fails s
  | .aaddF strand group fails => Sys2Proof.Machine.execAaddF strand group fails s
  | .aaddeI strand group fails => Sys2Proof.Machine.execAaddeI strand group fails s
  | .aaddeF strand group fails => Sys2Proof.Machine.execAaddeF strand group fails s
  | .bra strand group fails => Sys2Proof.Machine.execBra strand group fails s
  | .jmp strand group fails => Sys2Proof.Machine.execJmp strand group fails s
  | .jmps strand group fails => Sys2Proof.Machine.execJmps strand group fails s
  | .exit strand group fails => Sys2Proof.Machine.execExit strand group fails s
  | .laneNop strand group fails => Sys2Proof.Machine.execLaneNop strand group fails s
  | .flagsRd strand group fails => Sys2Proof.Machine.execFlagsRd strand group fails s
  | .flagsClr strand group fails => Sys2Proof.Machine.execFlagsClr strand group fails s
  | .actStash strand => Sys2Proof.Machine.execActStash strand s
  | .actFetch strand => Sys2Proof.Machine.execActFetch strand s
  | .spareAnnounce units => Sys2Proof.Machine.execSpareAnnounce units s
  | .rngRound strand => Sys2Proof.Machine.execRngRound strand s
  | .rngDerive strand => Sys2Proof.Machine.execRngDerive strand s
  | .rngFill strand => Sys2Proof.Machine.execRngFill strand s
  | .rngLaneSeed strand => Sys2Proof.Machine.execRngLaneSeed strand s
  | .copy strand => Sys2Proof.Machine.execCopy strand s
  | .fill strand => Sys2Proof.Machine.execFill strand s
  | .prefetch strand => Sys2Proof.Machine.execPrefetch strand s
  | .writeback strand => Sys2Proof.Machine.execWriteback strand s
  | .discard strand => Sys2Proof.Machine.execDiscard strand s
  | .unpin strand => Sys2Proof.Machine.execUnpin strand s
  | .setHint strand => Sys2Proof.Machine.execSetHint strand s
  | .skew strand => Sys2Proof.Machine.execSkew strand s
  | .allreduce strand => Sys2Proof.Machine.execAllreduce strand s
  | .reduceScatter strand => Sys2Proof.Machine.execReduceScatter strand s
  | .allgather strand => Sys2Proof.Machine.execAllgather strand s
  | .broadcast strand => Sys2Proof.Machine.execBroadcast strand s
  | .permute strand => Sys2Proof.Machine.execPermute strand s
  | .alltoall strand => Sys2Proof.Machine.execAlltoall strand s
  | .collectivePacket dst port pkt => Sys2Proof.Machine.execCollectivePacket dst port pkt s
  | .collectiveAbort dst group tag => Sys2Proof.Machine.execCollectiveAbort dst group tag s
  | .layoutChange => Sys2Proof.Machine.execLayoutChange s
  | .interleaveChange group => Sys2Proof.Machine.execInterleaveChange group s
  | .interleaveFillEnd group => Sys2Proof.Machine.execInterleaveFillEnd group s
  | .lastDrop addr => Sys2Proof.Machine.execLastDrop addr s
  | .hiddenRetrain chan margin lanes => Sys2Proof.Machine.execHiddenRetrain chan margin lanes s
  | .fullRetrainEnd chan margin lanes => Sys2Proof.Machine.execFullRetrainEnd chan margin lanes s
  | .memRetrainReq quarter word => Sys2Proof.Machine.execMemRetrainReq quarter word s
  | .tgStart quarter word => Sys2Proof.Machine.execTgStart quarter word s
  | .tgAll quarter word => Sys2Proof.Machine.execTgAll quarter word s
  | .tgStop quarter word => Sys2Proof.Machine.execTgStop quarter word s
  | .tgDone chan errors first lanes => Sys2Proof.Machine.execTgDone chan errors first lanes s
  | .correctionWrite addr => Sys2Proof.Machine.execCorrectionWrite addr s
  | .ergCorrectionRewrite addr => Sys2Proof.Machine.execErgCorrectionRewrite addr s
  | .bucketLeak quarter => Sys2Proof.Machine.execBucketLeak quarter s
  | .mergeWindowExpire addr => Sys2Proof.Machine.execMergeWindowExpire addr s
  | .scrubRead quarter unit upset => Sys2Proof.Machine.execScrubRead quarter unit upset s
  | .scrubLapEnd quarter unit => Sys2Proof.Machine.execScrubLapEnd quarter unit s
  | .lapSlow quarter unit => Sys2Proof.Machine.execLapSlow quarter unit s
  | .historyExpire quarter unit => Sys2Proof.Machine.execHistoryExpire quarter unit s
  | .rowRemap chan bank row => Sys2Proof.Machine.execRowRemap chan bank row s
  | .repairRecordWrite ok => Sys2Proof.Machine.execRepairRecordWrite ok s
  | .codewordReceive port word waves => Sys2Proof.Machine.execCodewordReceive port word waves s
  | .packetReceive port pkt => Sys2Proof.Machine.execPacketReceive port pkt s
  | .ack port seq => Sys2Proof.Machine.execAck port seq s
  | .nak port seq => Sys2Proof.Machine.execNak port seq s
  | .credit port wadi cls flits => Sys2Proof.Machine.execCredit port wadi cls flits s
  | .heartbeat port => Sys2Proof.Machine.execHeartbeat port s
  | .heartbeatSend port => Sys2Proof.Machine.execHeartbeatSend port s
  | .ident port node peer => Sys2Proof.Machine.execIdent port node peer s
  | .abortEnd port seq wadi => Sys2Proof.Machine.execAbortEnd port seq wadi s
  | .heartbeatTimeout port => Sys2Proof.Machine.execHeartbeatTimeout port s
  | .lossOfSignal port => Sys2Proof.Machine.execLossOfSignal port s
  | .lossOfAlignment port => Sys2Proof.Machine.execLossOfAlignment port s
  | .lightLoss input => Sys2Proof.Machine.execLightLoss input s
  | .portRetrain port => Sys2Proof.Machine.execPortRetrain port s
  | .retrain quarter word => Sys2Proof.Machine.execRetrain quarter word s
  | .trainingComplete port ok grants => Sys2Proof.Machine.execTrainingComplete port ok grants s
  | .seifCredit quarter word => Sys2Proof.Machine.execSeifCredit quarter word s
  | .unreachableNotice strand => Sys2Proof.Machine.execUnreachableNotice strand s
  | .mirrorBlock msg => Sys2Proof.Machine.execMirrorBlock msg s
  | .mirrorAck addr kind => Sys2Proof.Machine.execMirrorAck addr kind s
  | .mirrorResendRequest addr => Sys2Proof.Machine.execMirrorResendRequest addr s
  | .restartReady node number => Sys2Proof.Machine.execRestartReady node number s
  | .restartStart number time => Sys2Proof.Machine.execRestartStart number time s
  | .readyTimeout => Sys2Proof.Machine.execReadyTimeout s
  | .jobStop => Sys2Proof.Machine.execJobStop s
  | .twinHeartbeatSend => Sys2Proof.Machine.execTwinHeartbeatSend s
  | .twinHeartbeat => Sys2Proof.Machine.execTwinHeartbeat s
  | .twinLoss => Sys2Proof.Machine.execTwinLoss s
  | .resign => Sys2Proof.Machine.execResign s
  | .twinResign => Sys2Proof.Machine.execTwinResign s
  | .failoverReq lost stand formed => Sys2Proof.Machine.execFailoverReq lost stand formed s
  | .failover lost stand number refused => Sys2Proof.Machine.execFailover lost stand number refused s
  | .handback lost stand number => Sys2Proof.Machine.execHandback lost stand number s
  | .form => Sys2Proof.Machine.execForm s
  | .detach => Sys2Proof.Machine.execDetach s
  | .attach => Sys2Proof.Machine.execAttach s
  | .fillEnd => Sys2Proof.Machine.execFillEnd s
  | .controlPeriod measure => Sys2Proof.Machine.execControlPeriod measure s
  | .avsSample watts => Sys2Proof.Machine.execAvsSample watts s
  | .powerEstimate watts => Sys2Proof.Machine.execPowerEstimate watts s
  | .freqStep => Sys2Proof.Machine.execFreqStep s
  | .thermalLoop tj temps => Sys2Proof.Machine.execThermalLoop tj temps s
  | .droopDetect reading => Sys2Proof.Machine.execDroopDetect reading s
  | .droopEnd quarter => Sys2Proof.Machine.execDroopEnd quarter s
  | .rampAdmit => Sys2Proof.Machine.execRampAdmit s
  | .columnEnable quarter => Sys2Proof.Machine.execColumnEnable quarter s
  | .throttleAssert => Sys2Proof.Machine.execThrottleAssert s
  | .throttleRelease => Sys2Proof.Machine.execThrottleRelease s
  | .thermalTrip sensor temp => Sys2Proof.Machine.execThermalTrip sensor temp s
  | .avsTimeout rail => Sys2Proof.Machine.execAvsTimeout rail s
  | .gpioPulseEnd => Sys2Proof.Machine.execGpioPulseEnd s
  | .trefPpsLoss => Sys2Proof.Machine.execTrefPpsLoss s
  | .lightReturn input => Sys2Proof.Machine.execLightReturn input s
  | .twinFormExchange msg => Sys2Proof.Machine.execTwinFormExchange msg s
  | .embContributionAck dst table tag path => Sys2Proof.Machine.execEmbContributionAck dst table tag path s
  | .migrationCopyAck dst table row slot => Sys2Proof.Machine.execMigrationCopyAck dst table row slot s
  | .twinStashTransfer req => Sys2Proof.Machine.execTwinStashTransfer req s
  | .stashAnswer ans => Sys2Proof.Machine.execStashAnswer ans s
  | .hostReadCompletion strand off bytes bad => Sys2Proof.Machine.execHostReadCompletion strand off bytes bad s
  | .permuteAck dst group tag bytes => Sys2Proof.Machine.execPermuteAck dst group tag bytes s
  | .remapCopyEnd chan bank row => Sys2Proof.Machine.execRemapCopyEnd chan bank row s
  | .pcieLinkRecovery partner => Sys2Proof.Machine.execPcieLinkRecovery partner s
  | .laneReservedOpcode strand group => Sys2Proof.Machine.execLaneReservedOpcode strand group s

end Sys2Proof.Machine
end

