-- ==== Sys2Proof/Machine/Step.lean ====
section
/-!
DEFINITION. One step of the block: it takes the command at the front of its queue, or lets one nanosecond pass when none waits.
-/
namespace Sys2Proof.Machine
open Sys2Proof

/-- The clock's meaning (R44, R50): one nanosecond of cluster time passes, and what became due is done. DESIGN CHOICE, log entry 2. -/
def idle (s : State) : Host.Outcome State Fault Refusal := .next (finish s s.tick)

/-- One step: `exec` of the front command over the queue's rest; on an empty queue, one nanosecond. DESIGN CHOICE, log entry 2. -/
def step (s : State) : Host.Outcome State Fault Refusal :=
  match s.pending with
  | [] => idle s
  | c :: rest => exec c { s with pending := rest }

/-- The state with the command that the word spells at the front of its queue; unchanged where it spells none. -/
def State.withFetchWord (s : State) (nbits w : Nat) : State :=
  match decodeTableWord nbits w with
  | none => s
  | some c => { s with pending := c :: s.pending }

end Sys2Proof.Machine
end

