-- ==== Sys2Proof/Safety.lean ====
section
/-!
DEFINITION. What counts as a sound state and a sound step, and how claims say what a command leaves.
-/
namespace Sys2Proof.Machine
open Sys2Proof

/-! ### Invariants -/

/-- The canonical form of a memory: addresses strictly rise and no listed byte is zero, which is what an unlisted address reads as. -/
abbrev Memory.wf (m : List Host.Cell) : Prop := swf 0 m = true

/-- The invariant of every step: 64 strands (R66); event counters in canonical form, each a 32-bit value (R69); a lifecycle of at most four blown bits and a
security version of at most 64 (R716). -/
def State.Sound (s : State) : Prop :=
  s.ctl.strands.length = 64 ∧ swf 0 s.ctl.events = true ∧ (∀ e ∈ s.ctl.events, e.2 < 2 ^ 32) ∧ s.mgmt.fuses.lifecycle ≤ 4 ∧ s.mgmt.fuses.svnMin ≤ 64

/-- What burning fuses can do: the lifecycle, the minimum security version and the two slot masks only grow (R716, R717), and the secret, serial number, part and
vendor hashes stay. -/
def Fuses.Burned (f g : Fuses) : Prop :=
  f.lifecycle ≤ g.lifecycle ∧ f.svnMin ≤ g.svnMin ∧ f.programmed &&& g.programmed = f.programmed ∧ f.revoked &&& g.revoked = f.revoked
    ∧ g.uds = f.uds ∧ g.serial = f.serial ∧ g.part = f.part ∧ g.vendor = f.vendor ∧ g.vendorHash = f.vendorHash

/-! ### Commands -/

/-- Nothing is due in a state: what a command does there is its own effect alone. -/
def State.Calm (s : State) : Prop := s.quiet s.core.faults = true

/-- What the work of strand `k` in state `s` leaves when its engine answers `x`, before the end of the command settles it: the engine's machine, lane states and
record, the strand in a phase, and every other strand, event counter, register of time, host and management as before. -/
structure Left (s u : State) (k : Nat) (x : Dx) (phase : Phase) : Prop where
  core : u.core = { x.c with actAs := none }
  ctl : u.ctl = { s.ctl with strands := u.ctl.strands, lfsr := x.lfsr, served := u.ctl.served }
  phase : (u.strand k).phase = phase
  record : (u.strand k).comp = x.comp
  place : (u.strand k).pc = (s.strand k).pc ∧ (u.strand k).desc = (s.strand k).desc ∧ (u.strand k).steps = (s.strand k).steps
  others : ∀ j, j ≠ k → u.strand j = s.strand j
  rest : u.sync = s.sync ∧ u.host = s.host ∧ u.mgmt = s.mgmt ∧ u.pending = s.pending

/-- Strand `k`'s descriptor has run on its engine: it started now, and is done or goes on. One whose first code-5 draw an RNG_LANE_SEED holds (R450) has only begun: it stays ready,
and the engine has done nothing. -/
def Ran (s u : State) (k : Nat) (r : Dx × Bool) : Prop :=
  (if (s.dx k).held r.1 then Left s u k (s.dx k) .ready else Left s u k r.1 (if r.2 then .done else .busy))
    ∧ (u.strand k).tStart = some ((s.strand k).tStart.getD s.core.ct)

/-- An outside event has worked on strand `k`'s running descriptor: it is done, or goes on. -/
def Worked (s u : State) (k : Nat) (r : Dx × Bool) : Prop := Left s u k r.1 (if r.2 then .done else .busy)

/-- A message has been served for the gather engine or the sampler: the machine below the strands is what serving left, and nothing else has changed but the ramp limiter. -/
structure Served (s u : State) (x : Dx) : Prop where
  core : u.core = { x.c with actAs := none }
  ctl : u.ctl = { s.ctl with lfsr := x.lfsr }
  power : u.pwr = { s.pwr with ramp := u.pwr.ramp, columns := u.pwr.columns }
  rest : u.sync = s.sync ∧ u.host = s.host ∧ u.mgmt = s.mgmt ∧ u.pending = s.pending

/-- Whether the ramp limiter lets units start now for strand `k`, or for the messages of a claim (R656). -/
def State.Admits (s : State) (us : List Nat) (k : Nat) : Prop := (s.askUnits us k).2 = true

/-- Whether a message for a sampler or gather engine must wait: an emergency stop holds the engines (R664), or one before it waits. -/
def State.Blocked (s : State) (m : Msg) : Prop := s.pwr.emergency = true ∨ ∃ n ∈ s.core.inbox, claimOf n.body = claimOf m.body

/-- Whether a message for a sampler or gather engine is served at once: nothing holds it or what it writes, and the ramp limiter lets its unit start (R656). -/
def State.Takes (s : State) (m : Msg) : Prop :=
  ¬s.Blocked m ∧ (s.serveMsg m).core.stall = false ∧ s.Admits (s.msgUnit m).toList (claimOf m.body)

/-! ### Registers -/

/-- Registers whose write does something beside its value (R12): the device-page registers of their own, and of a quarter's pages the layout, balance, retrain,
traffic generator, bucket, spare and port controls. -/
def ownEffect (b off : Nat) : Bool :=
  if off / 4096 < 9 then
    [Reg.ctCfg, Reg.ctSetHi, Reg.pwrRamp, Reg.cpEventValue, Reg.cpEventAdd, Reg.cpTxnStage, Reg.trnSpareLo, Reg.trnSpareHi, Reg.hostIrqEoiLo, Reg.hostIrqEoiHi, Reg.hostReset,
     Reg.hostAttestCtrl, Reg.secOwnerProg, Reg.twinCtrl].contains off
  else
    [(0x15, 0x40), (0x13, 0x50), (0x13, 0x64), (0x13, 0x68), (0x16, 0x6C), (0x16, 0x80), (0x17, 0x44), (0x18, 0x50), (0x18, 0x64), (0x18, 0x70)].contains (b, off % 4096)

/-- A word-aligned BAR 0 offset that names the block register `d` of block `b` in quarter `q`, outside the page header, the strand registers and the MSI-X and report
windows. -/
structure Names (off b q : Nat) (d : RegDef) : Prop where
  word : off < 2 ^ 26 ∧ off % 4 = 0
  page : pageBlock (off / 4096) = some (b, q)
  block : 0x40 ≤ off % 4096 ∧ strandReg? off = none ∧ isHostTable off = false
  reg : regDef? off = some d

/-! ### Lane instructions -/

/-- The lane instructions with their group and operation (R375, R380, R384, R387, R390, R391, R395, R397, R398, R399). -/
def laneRows : List ((Nat → Nat → Nat → Instr) × Nat × Nat) :=
  [(Instr.add, 0, 0), (Instr.sub, 0, 1), (Instr.mul, 0, 2), (Instr.fma, 0, 3), (Instr.fms, 0, 4), (Instr.div, 0, 5), (Instr.sqrt, 0, 6), (Instr.min, 0,
      7), (Instr.max, 0, 8), (Instr.abs, 0, 9), (Instr.neg, 0, 10), (Instr.exp2, 0, 11), (Instr.log2, 0, 12), (Instr.rsqrt, 0, 13)]
    ++ [(Instr.iadd, 1, 0), (Instr.isub, 1, 1), (Instr.imul, 1, 2), (Instr.imacc, 1, 3), (Instr.ihigh, 1, 4), (Instr.and, 1, 5), (Instr.or, 1, 6),
      (Instr.xor, 1, 7), (Instr.shl, 1, 8), (Instr.shr, 1, 9), (Instr.sar, 1, 10), (Instr.imin, 1, 11), (Instr.imax, 1, 12), (Instr.bitcnt, 1, 13),
      (Instr.inshi, 1, 14), (Instr.mov, 1, 15)]
    ++ [(Instr.cvt, 2, 0), (Instr.i2f, 2, 1), (Instr.u2f, 2, 2), (Instr.f2i, 2, 3), (Instr.f2u, 2, 4)]
    ++ [(Instr.feq, 3, 0), (Instr.flt, 3, 1), (Instr.fle, 3, 2), (Instr.fne, 3, 3), (Instr.fun, 3, 4), (Instr.ieq, 3, 5), (Instr.ilt, 3, 6), (Instr.iltu, 3,
      7), (Instr.sel, 3, 8), (Instr.pand, 3, 9), (Instr.por, 3, 10), (Instr.pxor, 3, 11), (Instr.pandn, 3, 12), (Instr.p2s, 3, 13), (Instr.s2p, 3,
      14)]
    ++ [(Instr.ld, 4, 0), (Instr.st, 4, 1), (Instr.lde, 4, 2), (Instr.ste, 4, 3), (Instr.lds, 4, 4), (Instr.ldse, 4, 5), (Instr.fence, 4, 6)]
    ++ [(Instr.xlPick, 5, 0), (Instr.xlLag, 5, 1), (Instr.xlLead, 5, 2), (Instr.xlSwap, 5, 3), (Instr.xlFsum, 5, 4), (Instr.xlFmin, 5, 5), (Instr.xlFmax, 5,
      6), (Instr.xlFpre, 5, 7), (Instr.xlIsum, 5, 8), (Instr.xlIpre, 5, 9), (Instr.xlVote, 5, 10), (Instr.xlRead, 5, 11)]
    ++ [(Instr.rndp, 6, 0), (Instr.rndl, 6, 1), (Instr.rndu, 6, 2), (Instr.rndb, 6, 3)]
    ++ [(Instr.aaddI, 7, 0), (Instr.aaddF, 7, 1), (Instr.aaddeI, 7, 2), (Instr.aaddeF, 7, 3)]
    ++ [(Instr.bra, 8, 0), (Instr.jmp, 8, 1), (Instr.jmps, 8, 2), (Instr.exit, 8, 3), (Instr.laneNop, 8, 4), (Instr.flagsRd, 8, 5), (Instr.flagsClr, 8, 6)]
    ++ [(Instr.scalarIadd, 9, 0), (Instr.scalarIsub, 9, 1), (Instr.scalarImul, 9, 2), (Instr.scalarImacc, 9, 3), (Instr.scalarIhigh, 9, 4), (Instr.scalarAnd,
      9, 5), (Instr.scalarOr, 9, 6), (Instr.scalarXor, 9, 7), (Instr.scalarShl, 9, 8), (Instr.scalarShr, 9, 9), (Instr.scalarSar, 9, 10),
      (Instr.scalarImin, 9, 11), (Instr.scalarImax, 9, 12), (Instr.scalarBitcnt, 9, 13), (Instr.scalarInshi, 9, 14), (Instr.scalarMov, 9, 15)]

/-- The machine in which a thread group's instruction runs: its word has been fetched and counted (R351), the reruns of failed checks have been counted
(R363), and one free number is drawn. -/
def laneStart (s : State) (k : Nat) (r : LaneRun) (g : LaneGroup) (fails : Nat) : Lx :=
  let y := (laneChecks (((s.dx k).touch (r.codeAt g.pc) 8).core (fun c => c.inc64 (Reg.laneIssueLo r.quarter) 1)) r.quarter fails).1
  { x := y.core (fun c => { c with free := c.free + 1 }), run := r, g := g, undef := y.c.free }

/-- Thread group `g` of strand `k`'s launch issues the operation `op` of instruction group `grp` next: the device is live with no emergency stop, and the word is
that operation and not reserved. -/
structure Issues (s : State) (k gi : Nat) (r : LaneRun) (g : LaneGroup) (w : LWord) (grp op : Nat) : Prop where
  live : s.live = true
  calm : s.pwr.emergency = false
  busy : (s.strand k).phase = .busy
  next : laneNext (s.dx k) gi = some (r, g, w)
  word : w.grp = grp ∧ w.op = op ∧ w.reserved = false

/-- What an instruction leaves when its checks pass after `fails` failures: the group after the instruction and its fetch step, put back in its launch. -/
def Issued (s u : State) (k : Nat) (r : LaneRun) (g : LaneGroup) (w : LWord) (fails : Nat) : Prop :=
  let e := laneRunWord (laneStart s k r g fails) w
  Worked s u k (settleGroup e.1 e.2)

end Sys2Proof.Machine
end

