-- ==== Sys2Proof/Certificates/Slice0/Obligations.lean ====
section
/-!
DEFINITION. The statements that the provers prove. Completion statements give the state that a command leaves before the end of the command settles what is due
(`finish`); `Obligations.FinishOfQuiet` says that the end changes nothing when nothing is due.
-/
open Sys2Proof Sys2Proof.Machine

/-! ### The queue, steps, reset -/

/-- A step takes the command at the front of the queue and is its effect over the queue's rest; no command faults or is refused, in any state. -/
def Obligations.StepTakesFront : Prop :=
  ∀ (c : Instr) (rest : List Instr) (s : State), step { s with pending := c :: rest } = exec c { s with pending := rest } ∧ ∃ t : State, exec c s = .next t

/-- On an empty queue a step lets one nanosecond of the device's clock pass, and what became due is then done (R44, R46, R50). Cluster time never decreases and goes on by at
most 2; it goes on by 1 where neither an offset nor a frequency difference is being made good, and stands still while it waits for an earlier time to catch up. The time that
timers count goes on with it. That the clock is a step's effect on an empty queue is the model's choice (log entry 2). -/
def Obligations.IdlePasses : Prop :=
  ∀ s : State, s.pending = [] → ∃ u : State, step s = .next (finish s u)
    ∧ u = { s with core := { s.core with ct := u.core.ct, up := u.core.up },
                   sync := { s.sync with slew := u.sync.slew, slewTick := u.sync.slewTick, hold := u.sync.hold, freqAcc := u.sync.freqAcc, refTicks := s.sync.refTicks + 1, parentTicks := s.sync.parentTicks + 1 } }
    ∧ s.core.ct ≤ u.core.ct ∧ u.core.ct ≤ s.core.ct + 2 ∧ s.core.up ≤ u.core.up
    ∧ (s.sync.slew = 0 → s.sync.freqErr = 0 → s.sync.hold = 0 → s.core.ct + 1 < 2 ^ 64 → u.core.ct = s.core.ct + 1 ∧ u.core.up = s.core.up + 1 ∧ u.sync.slew = 0)
    ∧ (s.sync.hold = 0 → s.core.ct + 2 < 2 ^ 64 → u.core.up + s.core.ct = s.core.up + u.core.ct)
    ∧ (s.sync.hold ≠ 0 → u.core.ct = s.core.ct ∧ u.core.up = s.core.up + 1 ∧ u.sync.hold = s.sync.hold - 1)

/-- Every step from every state answers a next state, whose queue is the old one without its front command: no command adds, removes or reorders waiting
commands. -/
def Obligations.StepConsumesOne : Prop := ∀ s : State, ∃ t : State, step s = .next t ∧ t.pending = s.pending.tail

/-- The end of a command changes nothing when the command's effect leaves nothing due: no message, transaction, request of the job, lost link, waiting host read or
changed interrupt condition. -/
def Obligations.FinishOfQuiet : Prop := ∀ s t : State, t.quiet s.core.faults = true → finish s t = t

/-- The machine at the end of cold reset (R11): boot stage 1, no strand running, cluster time 0 and UNSYNC, nothing locked and nothing waiting, every memory byte
zero, every register at the value of its Reset column, and the calm and sound state that statements assume. -/
def Obligations.ResetState : Prop :=
  let s := State.reset
  s.core.fld Reg.bootStatus 0 4 = 1 ∧ (∀ k, k < 64 → (s.strand k).phase = .idle) ∧ s.running = false ∧ s.core.ct = 0 ∧ s.core.sync = 0
    ∧ s.mgmt.locks = [] ∧ s.pending = [] ∧ (∀ a, s.core.byteAt none a = 0) ∧ (∀ key, s.core.reg key = resetWord key)
    ∧ (∀ i, s.event i = 0) ∧ s.core.ilv = 0 ∧ s.Calm ∧ s.live = false ∧ s.awake = true

/-- The invariant holds at reset, and reset's memory is in canonical form. -/
def Obligations.SoundAtReset : Prop := State.reset.Sound ∧ Memory.wf State.reset.core.mem ∧ Memory.wf State.reset.core.dram

/-- Every step keeps the invariant. -/
def Obligations.StepKeepsSound : Prop := ∀ s t : State, s.Sound → step s = .next t → t.Sound

/-- No step unblows a fuse: the lifecycle only advances (R717), the minimum security version never falls, no slot is unprogrammed or unrevoked, and no other fuse
changes but the owner hashes. -/
def Obligations.FusesOnlyBurn : Prop := ∀ s t : State, step s = .next t → s.mgmt.fuses.Burned t.mgmt.fuses

/-- R13: a page's lock bit, once set, stays set in every command but a cold reset, unless the command has ended in a warm reset; a function-level reset clears none. -/
def Obligations.LocksHold : Prop :=
  ∀ (c : Instr) (s t : State) (p : Nat), exec c s = .next t → p ∈ s.mgmt.locks →
    p ∈ t.mgmt.locks ∨ (∃ b, c = .coldReset b) ∨ (c ≠ .functionLevelReset ∧ t.mgmt.warm = true ∧ t.mgmt.locks = [])

/-! ### Codes, maps and plain operations -/

/-- R490: the decision table over the syndromes of an 80-bit error pattern, and what it gives: no error is clean, every pattern of one or two errors is corrected,
and every pattern of exactly three is reported as uncorrectable. `corrected m a b` names the flipped positions as a pattern and by number. -/
def Obligations.EccTable : Prop :=
  (∀ e : BitVec 80, let p := syndromes e
    (p.1 = 0 ∧ p.2.1 = 0 ∧ p.2.2 = 0 → eccDecide e = .clean)
    ∧ (p.1 = 0 ∧ p.2.1 = 0 ∧ p.2.2 = 1 → eccDecide e = .corrected (2 ^ 79) 79 0xFF)
    ∧ (∀ i, i ≤ 78 → gfPow i = p.1 → gfPow (3 * i) = p.2.1 → p.2.2 = 1 → eccDecide e = .corrected (2 ^ i) i 0xFF)
    ∧ (∀ i, i ≤ 78 → gfPow i = p.1 → gfPow (3 * i) = p.2.1 → p.2.2 = 0 → eccDecide e = .corrected (2 ^ i + 2 ^ 79) i 79)
    ∧ (∀ i j, i < j → j ≤ 78 → gfPow i ^^^ gfPow j = p.1 → gfPow (3 * i) ^^^ gfPow (3 * j) = p.2.1 → p.2.2 = 0 →
        eccDecide e = .corrected (2 ^ i + 2 ^ j) i j)
    ∧ (¬(p.1 = 0 ∧ p.2.1 = 0) → (∀ i, i ≤ 78 → ¬(gfPow i = p.1 ∧ gfPow (3 * i) = p.2.1)) →
        (p.2.2 = 0 → ∀ i j, i < j → j ≤ 78 → ¬(gfPow i ^^^ gfPow j = p.1 ∧ gfPow (3 * i) ^^^ gfPow (3 * j) = p.2.1)) →
        eccDecide e = .uncorrectable))
  ∧ (∀ i, i < 80 → ∃ a b, eccDecide (BitVec.ofNat 80 (2 ^ i)) = .corrected (2 ^ i) a b)
  ∧ (∀ i j, i < j → j < 80 → ∃ a b, eccDecide (BitVec.ofNat 80 (2 ^ i + 2 ^ j)) = .corrected (2 ^ i + 2 ^ j) a b)
  ∧ (∀ i j k, i < j → j < k → k < 80 → eccDecide (BitVec.ofNat 80 (2 ^ i + 2 ^ j + 2 ^ k)) = .uncorrectable)

/-- R461: the map of a DRAM address to its channel and channel offset in both modes, that each is one-to-one between the addresses of a group and the cells of its
frames, that slice j of a QUARTER group is served by quarter j alone, and that every mode is DEVICE at reset. -/
def Obligations.InterleaveMap : Prop :=
  (∀ (ilv : BitVec 96) (k a : Nat), k < 96 → a < 2 ^ 32 → let x := a / 256
    (ilv.getLsbD k = false → dramChan ilv (k * 2 ^ 32 + a) =
      ((x % 256) ^^^ (x / 256 % 256) ^^^ (x / 65536) ^^^ k, k * 2 ^ 24 + x / 256 * 256 + a % 256))
    ∧ (ilv.getLsbD k = true → let y := x % 2 ^ 22
      dramChan ilv (k * 2 ^ 32 + a) =
        (a / 2 ^ 30 * 64 + ((y % 64) ^^^ (y / 64 % 64) ^^^ (y / 4096 % 64) ^^^ (y / 2 ^ 18) ^^^ (k % 64)), k * 2 ^ 24 + y / 64 * 256 + a % 256)))
  ∧ (∀ (ilv : BitVec 96) (a : Nat), a < dramEnd → (dramChan ilv a).1 < 256 ∧ (dramChan ilv a).2 / 2 ^ 24 = a / 2 ^ 32
      ∧ dramAddr ilv (dramChan ilv a).1 (dramChan ilv a).2 = a)
  ∧ (∀ (ilv : BitVec 96) (c o : Nat), c < 256 → o < 96 * 2 ^ 24 → dramAddr ilv c o < dramEnd ∧ dramChan ilv (dramAddr ilv c o) = (c, o))
  ∧ (∀ (ilv : BitVec 96) (k j a : Nat), k < 96 → j < 4 → a < 2 ^ 30 → ilv.getLsbD k = true → (dramChan ilv (k * 2 ^ 32 + j * 2 ^ 30 + a)).1 / 64 = j)
  ∧ State.reset.core.ilv = 0 ∧ (∀ i, i < 96 → State.reset.core.wantedIlv.getLsbD i = false)

/-- R513, R709: the bytes of a repair record are read back as the record they were made from, whatever its sequence number, its remap table of up to 65,536 entries and its
retirement list of up to 4,096 pages, with every entry's channel, bank, row, spare in use and bad-spare mask, and every page, at every value its field admits. -/
def Obligations.RepairRecord : Prop :=
  ∀ r : RepairCopy, r.seq < 2 ^ 32 → r.remaps.length ≤ 65536 → r.retired.length ≤ 4096 →
    (∀ m ∈ r.remaps, m.chan < 256 ∧ m.bank < 32 ∧ m.row < 65536 ∧ m.spare < 8 ∧ m.bad < 256) → (∀ p ∈ r.retired, p < 2 ^ 32) → readRepair (repairBytes r) = some r

/-- Bytes put in a memory read back, every other address keeps its byte, and a memory in canonical form stays so. A store of whole words to the Erg store below TOP (R452, R458)
that no host access before it waits for puts exactly its bytes in memory and leaves the DRAM cells alone. -/
def Obligations.BytesReadBack : Prop :=
  (∀ (m : List Host.Cell) (a : Nat) (bs : List Byte), (Memory.wf m → Memory.wf (putBytes m a bs)) ∧ getBytes (putBytes m a bs) a bs.length = bs
    ∧ ∀ b, b < a ∨ a + bs.length ≤ b → sget 0 (putBytes m a bs) b = sget 0 m b)
  ∧ (∀ (c : Core) (acc : Acc) (a q off : Nat) (bs : List Byte), place a = .erg q off → a % 8 = 0 → bs.length % 8 = 0 → off + bs.length ≤ c.top q →
    c.filling a bs.length = false → c.parkedAt a bs.length false = false → (c.store acc a bs).mem = putBytes c.mem a bs ∧ (c.store acc a bs).dram = c.dram ∧ ∀ b, (c.store acc a bs).byteAt none b = if a ≤ b ∧ b < a + bs.length then
      bs.getD (b - a) 0 else c.byteAt none b)

/-! ### Registers and the host -/

/-- A register that is written reads the written 32 bits, and every other register keeps its value; a register file in canonical form stays so. -/
def Obligations.RegistersReadBack : Prop :=
  ∀ (c : Core) (key v : Nat), (c.setReg key v).reg key = v % 2 ^ 32 ∧ (∀ j, j ≠ key → (c.setReg key v).reg j = c.reg j)
    ∧ (sorted 0 c.regs = true → sorted 0 (c.setReg key v).regs = true)

/-- REGISTER_WRITE of a whole word on a live device, to a register whose write does nothing beside its value (R12, R14): RW bits take the written value, RWL bits only while the
page is not locked, and each 1 clears a W1C bit; RWS bits go to the register's shadow copy instead; nothing else changes. A write that does not cover the word changes only
HOST_ERR.PARTIAL and the page's count of dropped writes (R677). -/
def Obligations.RegisterWrites : Prop :=
  (∀ (s : State) (off v b q : Nat) (d : RegDef), s.live = true → Names off b q d → ownEffect b off = false → v < 2 ^ 32 → (d.q0 = true → q = 0) →
    let key := s.core.regKey off
    let rw := d.rw ||| (if off / 4096 ∈ s.mgmt.locks then 0 else d.rwl)
    let plain := s.core.setReg key (((s.core.reg key &&& (0xFFFFFFFF - rw)) ||| (v &&& rw)) &&& (0xFFFFFFFF - (v &&& d.w1c)))
    (d.rws = 0 → exec (.registerWrite off v 15) s = .next (finish s { s with core := plain }))
    ∧ (d.rws ≠ 0 → ∃ u, exec (.registerWrite off v 15) s = .next (finish s u) ∧ u = { s with core := { plain with regs := u.core.regs } }
        ∧ sget (resetWord key &&& d.rws) u.core.regs (shadowKey off) = v &&& d.rws ∧ ∀ j, j ≠ shadowKey off → u.core.reg j = plain.reg j))
  ∧ (∀ (s : State) (off v e : Nat), s.live = true → e % 16 ≠ 15 →
    exec (.registerWrite off v e) s = .next (finish s (s.on (fun c => (c.hostError 0).dropWrite (off / 4096)))))

/-- LOCK (R13), INT_FORCE (R762) and CLR_COUNTS (R763) on a mapped page of a live device: the page's lock bit is set; the named bits that the page has are set in INT_STATUS;
every counting field of the page's block registers and ERR_COUNT become zero, the page's latched high halves go, and every register of another page and every other field keeps
its value, with the strands' ring wraps zero on the command page and the throttle durations zero on the power page. -/
def Obligations.PageCommands : Prop :=
  ∀ (s : State) (page b q : Nat), s.live = true → pageBlock page = some (b, q) →
    (exec (.lock page) s = .next (finish s { s with mgmt := { s.mgmt with locks := insN s.mgmt.locks page } }))
    ∧ (∀ bits, bits < 2 ^ 32 → exec (.intForce page bits) s = .next (finish s (s.on (fun c =>
        c.setReg (page * 4096 + 0x10) (c.reg (page * 4096 + 0x10) ||| (bits &&& intBits page))))))
    ∧ ∃ u, exec (.clrCounts page) s = .next (finish s u) ∧ u.mgmt = s.mgmt ∧ u.core.mem = s.core.mem ∧ u.ctl.events = s.ctl.events ∧ u.core.ct = s.core.ct
        ∧ (∀ key d, key < 2 ^ 41 → key % 2 ^ 26 / 4096 = page → d ∈ blockRegs b → d.off = key % 4096 → (d.q0 = true → q = 0) →
            u.core.reg key = if d.cnt = 0 then s.core.reg key else s.core.reg key &&& (0xFFFFFFFF - d.cnt))
        ∧ u.core.reg (page * 4096 + 0x2C) = 0 ∧ (∀ key, key % 2 ^ 26 / 4096 ≠ page → u.core.reg key = s.core.reg key)
        ∧ (∀ e ∈ u.core.latch, e ∈ s.core.latch ∧ ¬(e.1 % 2 ^ 44 % 2 ^ 26 / 4096 = page ∧ e.1 % 2 ^ 44 < 2 ^ 41))
        ∧ (page = 5 → ∀ k, (u.strand k).wraps = 0) ∧ (page = 6 → u.pwr.reasonNs = [0, 0, 0, 0, 0] ∧ u.pwr.reasonAt = s.core.up)
        ∧ (page ≠ 5 → u.ctl = s.ctl)

/-- R767: a read of a _LO register by a reader latches the _HI register's value for that reader, and the value that the other reader's _HI reads return does not
change. The host reads (reader 0) on a live device; the value returns to it as a completion. -/
def Obligations.HighHalvesLatch : Prop :=
  ∀ (s : State) (off b q tag : Nat) (lo hi : RegDef), s.live = true → Names off b q lo → Names (off + 4) b q hi → hi.hi = true →
    ∀ reader, reader ≤ 1 → ∃ u, exec (.latchedLoRead reader off tag) s = .next (finish s u)
      ∧ u.peek reader (off + 4) = s.highHalf (off + 4)
      ∧ (∀ other o, other ≤ 1 → other ≠ reader → o < 2 ^ 26 → u.peek other o = s.peek other o)
      ∧ (reader = 0 → u.core.wire = s.core.wire ++ [{ dst := 0, wadi := 0, body := .readCompletion tag (leBytes 4 (s.peek 0 off)) false }])

/-- HOST_MEMORY_WRITE and HOST_MEMORY_READ on a live device (R680 to R683), and UNSUPPORTED_REQUEST (R675): a posted write that waits for nothing stores its bytes in the
window's memory; one that meets a fill or the bytes of a waiting access waits behind it (R462, R480); a read that waits for nothing returns the bytes as a reader sees them, with EP set when the read found an error or a block of them is poisoned; a request outside the BAR or of an
unsupported kind is logged and, when it is no posted one, completed as unsupported. -/
def Obligations.HostMemory : Prop :=
  ∀ (s : State), s.live = true →
    (∀ bar4 off bytes a, s.winAddr bar4 off bytes.length = some a → inLog a = false →
      let waits := s.core.filling a bytes.length || s.core.parkedAt a bytes.length false
      (waits = false → (s.core.store { q := 0, src := 2 } a bytes).stall = false →
        exec (.hostMemoryWrite bar4 off bytes false false) s = .next (finish s (s.on (fun c => c.store { q := 0, src := 2 } a bytes))))
      ∧ (waits = true → exec (.hostMemoryWrite bar4 off bytes false false) s
        = .next (finish s (s.on (fun c => { c with parked := c.parked ++ [{ addr := a, len := bytes.length, data := some (bytes, false) }] })))))
    ∧ (∀ bar4 off n tag a, s.awake = true → s.winAddr bar4 off n = some a → inLog a = false → s.core.readWaits a n = false →
      let r := s.core.read { q := 0, src := 2 } a n
      r.1.stall = false → ∃ ep, exec (.hostMemoryRead bar4 off n tag) s = .next (finish s ({ s with core := r.1 }.toHost (.readCompletion tag r.2.2 ep)))
        ∧ (r.2.2 ≠ [] → (ep = true ↔ r.2.1 ≠ 0 ∨ ∃ i, i < (a + n - 1) / 64 - a / 64 + 1 ∧ a / 64 + i ∈ r.1.poison)))
    ∧ (∀ bar4 off n tag, s.awake = true → s.winAddr bar4 off n = none → exec (.hostMemoryRead bar4 off n tag) s = exec (.unsupportedRequest (some tag)) s)
    ∧ (∀ bar4 off bytes ep, s.awake = true → s.winAddr bar4 off bytes.length = none → exec (.hostMemoryWrite bar4 off bytes ep false) s = exec (.unsupportedRequest none) s)
    ∧ (s.awake = true → ∀ tag, ∃ u, exec (.unsupportedRequest tag) s = .next (finish s u) ∧ u.host = { s.host with aer := insN s.host.aer 1 }
        ∧ u.core = { s.core with wire := s.core.wire ++ match tag with | some t => [{ dst := 0, wadi := 0, body := .unsupported t }] | none => [] }
        ∧ u.ctl = s.ctl ∧ u.sync = s.sync ∧ u.pwr = s.pwr ∧ u.mgmt = s.mgmt)

/-- The resets, of R689, R690 and R695. COLD_RESET of a device that no trip holds leaves every memory byte zero, every lock open, every register but PWR_TRIP and the straps at its
reset value, boot stage 1, the fuses, the flash as the board has it and the queue; PWR_TRIP stays while power stays. WARM_RESET of an awake device does the same, but that DRAM
keeps the values in its cells once dirty lines are written back, each at its address in DEVICE mode, the Erg store reads zero, and PWR_TRIP, the flash and the set points stay.
FUNCTION_LEVEL_RESET of a live device leaves every strand IDLE, DRAM zero, memory listed only where management state lies, no transaction, line, event or report, every lock and
fuse as it was, and the device FENCED when it was in a job with a FORMED pair. -/
def Obligations.Resets : Prop :=
  (∀ s b, s.mgmt.held = false → ∃ u, exec (.coldReset b) s = .next (finish s u) ∧ u.mgmt = { fuses := s.mgmt.fuses, flash := b.flash } ∧ u.core.mem = [] ∧ u.core.dram = []
      ∧ u.core.fld Reg.bootStatus 0 4 = 1 ∧ u.ctl = {} ∧ u.sync = {} ∧ u.pwr = {} ∧ u.host = {} ∧ u.core.ct = 0 ∧ u.core.lines = [] ∧ u.core.txns = [] ∧ u.pending = s.pending
      ∧ (∀ key, key ≠ Reg.pwrTrip → key ≠ Reg.pinState → u.core.reg key = resetWord key)
      ∧ u.core.reg Reg.pwrTrip = (if b.powerLost = true then resetWord Reg.pwrTrip else s.core.reg Reg.pwrTrip % 2 ^ 32)
      ∧ u.core.fld Reg.pinState 4 2 = b.smbAddr % 4)
  ∧ (∀ s, s.awake = true → let d := s.core.drainCache
      ∃ u, exec .warmReset s = .next (finish s u) ∧ u.mgmt = { fuses := s.mgmt.fuses, flash := s.mgmt.flash, warm := true }
      ∧ u.core.mem = u.core.dram ∧ (∀ e ∈ u.core.mem, e.1 < dramEnd) ∧ (Memory.wf d.dram → ∀ a, a < dramEnd → sget 0 u.core.mem (regroup d.ilv a) = sget 0 d.dram a)
      ∧ u.ctl = {} ∧ u.sync = {} ∧ u.host = {} ∧ u.core.ct = 0 ∧ u.core.lines = [] ∧ u.core.txns = [] ∧ u.pwr = { volts := s.pwr.volts } ∧ u.pending = s.pending
      ∧ u.core.fld Reg.bootStatus 0 4 = 1 ∧ u.core.fld Reg.bootStatus 17 1 = 1 ∧ u.core.reg Reg.pwrTrip = s.core.reg Reg.pwrTrip % 2 ^ 32
      ∧ (∀ key, key ≠ Reg.pwrTrip → key ≠ Reg.pinState → key ≠ Reg.bootStatus → u.core.reg key = resetWord key))
  ∧ (∀ s, s.live = true → ∃ u, exec .functionLevelReset s = .next (finish s u) ∧ (∀ k, (u.strand k).phase = .idle)
      ∧ (∀ e ∈ u.core.mem, flrKeeps e.1 = true) ∧ (∀ a, a < dramEnd → sget 0 u.core.mem a = 0) ∧ u.core.dram = [] ∧ u.core.txns = [] ∧ u.core.lines = [] ∧ u.ctl.events = []
      ∧ u.mgmt.attestAt = none ∧ u.mgmt.locks = s.mgmt.locks ∧ u.mgmt.fuses = s.mgmt.fuses
      ∧ (s.core.inJob = true → s.core.pair = 2 → u.core.jobState = 3))

/-- SUPPLY_CHECK at boot stage 1, of R700: a failed check is counted and the tenth leaves the device FAILED, stage 15 with its code and DETAIL; a passed one runs the stages that
follow, and leaves stage 10 with the boot done, or stage 15. READY, of R715 and R722: after stage 10 the device reaches stage 11 with BOOT_TIME set, its interrupt raised, the
boot page locked and the image's fuse requests applied. -/
def Obligations.Boot : Prop :=
  (∀ s k t, s.mgmt.held = false → s.core.fld Reg.bootStatus 0 4 = 1 →
    let drawn : State := { s with core := { s.core with free := s.core.free + 1 } }
    (∀ code detail, s.supplyFault k = some (code, detail) → s.mgmt.supplyFails < 9 →
        exec (.supplyCheck k t) s = .next (finish s { drawn with mgmt := { s.mgmt with supplyFails := s.mgmt.supplyFails + 1 } }))
    ∧ (∀ code detail, s.supplyFault k = some (code, detail) → 9 ≤ s.mgmt.supplyFails → ∃ u, exec (.supplyCheck k t) s = .next (finish s u)
        ∧ u.core.fld Reg.bootStatus 0 4 = 15 ∧ u.core.fld Reg.bootStatus 8 8 = code % 256 ∧ u.core.reg Reg.bootDetail = detail % 2 ^ 32
        ∧ u.mgmt = { s.mgmt with supplyFails := s.mgmt.supplyFails + 1 } ∧ u.core.mem = s.core.mem ∧ u.ctl = s.ctl)
    ∧ (s.supplyFault k = none → ∃ u, exec (.supplyCheck k t) s = .next (finish s u)
        ∧ u = runStages (stages s.mgmt.warm t) ({ drawn with mgmt := { s.mgmt with supplyFails := 0 } }.stage 2)
        ∧ (u.core.fld Reg.bootStatus 0 4 = 10 ∧ u.mgmt.bootDone = true ∨ u.core.fld Reg.bootStatus 0 4 = 15)))
  ∧ (∀ s ms, s.mgmt.bootDone = true → s.mgmt.held = false → s.core.fld Reg.bootStatus 0 4 = 10 → ∃ u, exec (.ready ms) s = .next (finish s u)
      ∧ u.core.fld Reg.bootStatus 0 4 = 11 ∧ u.core.reg Reg.bootTime = ms % 2 ^ 32 ∧ (u.core.reg 0x10).testBit 0 = true
      ∧ u.mgmt = { s.mgmt with locks := insN s.mgmt.locks 0, fuses := requestFuses s.mgmt.fuses s.mgmt.image }
      ∧ u.core.mem = s.core.mem ∧ u.ctl = s.ctl ∧ u.sync = s.sync ∧ u.pwr = s.pwr ∧ u.host = s.host)

/-- HOST_ATTEST_REQ and ATTEST_DONE (R692, R720), OWNER_PROG and OWNER_PROG_DONE (R718) on a live device: a request is remembered with its time, and BUSY is set; the MC's
completion of an attestation clears BUSY and raises ATTEST, with the signed report in the window, its LENGTH and DONE when it could sign, and FAIL when it could not; the
completion of an owner-slot request burns the fuses that R718 gives and sets DONE, or sets FAIL when the security page is locked or R718 names a reason. -/
def Obligations.SecurityRequests : Prop :=
  ∀ s : State, s.live = true →
    (s.core.fld Reg.hostAttestCtrl 1 1 = 0 → ∃ u, exec .hostAttestReq s = .next (finish s u) ∧ u.mgmt = { s.mgmt with attestAt := some s.core.up }
        ∧ u.core.fld Reg.hostAttestCtrl 1 1 = 1 ∧ u.core.mem = s.core.mem)
    ∧ (∀ t, s.mgmt.attestAt = some t → ∃ u, exec (.attestDone false) s = .next (finish s u) ∧ u.mgmt = { s.mgmt with attestAt := none }
        ∧ u.core = ((s.core.setBit Reg.hostAttestCtrl 1 false).raise 2 2).setBit Reg.hostAttestCtrl 3 true ∧ u.ctl = s.ctl ∧ u.host = s.host)
    ∧ (∀ t, s.mgmt.attestAt = some t → ∃ u, exec (.attestDone true) s = .next (finish s u) ∧ u.mgmt = { s.mgmt with attestAt := none } ∧ u.core.mem = s.core.mem
        ∧ u.core.fld Reg.hostAttestCtrl 1 1 = 0 ∧ u.core.fld Reg.hostAttestCtrl 2 1 = 1 ∧ u.core.fld Reg.hostAttestCtrl 16 11 = 416 ∧ (u.core.reg 0x2010).testBit 2 = true
        ∧ ∀ i, i < 104 → u.core.reg (0x2C00 + 4 * i) = ofLE ((s.report.drop (4 * i)).take 4))
    ∧ (∀ slot op, s.mgmt.ownerAt = none → ∃ u, exec (.ownerProg slot op) s = .next (finish s u) ∧ u.mgmt = { s.mgmt with ownerAt := some s.core.up } ∧ u.core.mem = s.core.mem)
    ∧ (∀ t, s.mgmt.ownerAt = some t → ∃ u, exec .ownerProgDone s = .next (finish s u) ∧ u.mgmt.ownerAt = none
        ∧ let done := if 1 ∈ s.mgmt.locks then none
            else ownerFuses s.mgmt.fuses (max 4 (s.core.fld Reg.secOwnerProg 0 3)) (s.core.fld Reg.secOwnerProg 3 2) (s.core.regBytes Reg.secOwnerHash 8)
          u.mgmt.fuses = done.getD s.mgmt.fuses
          ∧ u.core = if done.isSome then (s.core.setBit Reg.secOwnerProg 6 true).raise 1 0 else (s.core.setBit Reg.secOwnerProg 7 true).raise 1 1)

/-- R718 of the fuses themselves: an owner slot is programmed only in VENDOR or OWNED and only once, and the first one advances VENDOR to OWNED; a slot is revoked only when
programmed; OP 2 retires the device. -/
def Obligations.OwnerSlots : Prop :=
  ∀ (f : Fuses) (slot : Nat) (hash : List Byte), 4 ≤ slot → slot < 8 →
    ((f.lifecycle = 0 ∨ 3 ≤ f.lifecycle) → ∀ op, ownerFuses f slot op hash = none)
    ∧ (f.lifecycle = 1 ∨ f.lifecycle = 2 →
        (f.programmed.getLsbD slot = true → ownerFuses f slot 0 hash = none)
        ∧ (f.programmed.getLsbD slot = false → ∃ g, ownerFuses f slot 0 hash = some g ∧ g.programmed = f.programmed ||| BitVec.ofNat 8 (2 ^ slot)
            ∧ g.lifecycle = 2 ∧ (f.ownerHash.length = 4 → nth [] g.ownerHash (slot - 4) = hash) ∧ f.Burned g)
        ∧ (f.programmed.getLsbD slot = false → ownerFuses f slot 1 hash = none)
        ∧ (f.programmed.getLsbD slot = true → ∃ g, ownerFuses f slot 1 hash = some g ∧ g.revoked = f.revoked ||| BitVec.ofNat 8 (2 ^ slot) ∧ g.lifecycle = f.lifecycle)
        ∧ ∃ g, ownerFuses f slot 2 hash = some g ∧ g.lifecycle = 3 ∧ g.programmed = f.programmed ∧ g.revoked = f.revoked)

/-- SMBus commands (of R707): each block read returns the words it names, in any state; SMBUS_ADDR keeps the offset for SMBUS_READ, which reads the boot, security and power
pages as the MC sees them, and gives zero elsewhere. A read changes no register. -/
def Obligations.Smbus : Prop :=
  ∀ s : State,
    let words (offs : List Nat) : Host.Outcome State Fault Refusal := .next (finish s (s.on (fun c => { c with wire := c.wire ++
      [{ dst := 0, wadi := 0, body := .smbus ((offs.map (fun o => leBytes 4 (s.peek 1 o))).flatten) }] })))
    exec .smbusStatus s = words [Reg.bootStatus, Reg.bootTests] ∧ exec .smbusTrip s = words [Reg.pwrTrip]
    ∧ exec .smbusIdent s = words [Reg.secPart, Reg.secSerialLo, Reg.secSerialHi, Reg.secState] ∧ exec .smbusTemp s = words [Reg.pwrTherm]
    ∧ (∀ off, exec (.smbusAddr off) s = .next (finish s { s with mgmt := { s.mgmt with smbOffset := off % 2 ^ 32 } }))
    ∧ (let off := s.mgmt.smbOffset / 4 * 4
       (off / 4096 = 0 ∨ off / 4096 = 1 ∨ off / 4096 = 6 → ∃ u, exec .smbusRead s = .next (finish s u)
          ∧ u = { s with core := { s.core with latch := u.core.latch, wire := s.core.wire ++ [{ dst := 0, wadi := 0, body := .smbus (leBytes 4 (s.peek 1 off)) }] } })
       ∧ (¬(off / 4096 = 0 ∨ off / 4096 = 1 ∨ off / 4096 = 6) → exec .smbusRead s = .next (finish s (s.on (fun c => { c with wire := c.wire ++
          [{ dst := 0, wadi := 0, body := .smbus (leBytes 4 0) }] })))))

/-- PCIE_LINK_TRAIN and PCIE_LINK_RECOVERY (R672, R673, R694) on an awake device: the link takes the highest rate among 2.5, 16, 32 and 64 GT/s and the widest of 1, 4 and 8 lanes
that its partner offers, 2.5 GT/s or one lane where the partner offers only others, and flit mode as R673 says; a change raises LINK; training takes the function's configuration;
a recovery is counted. HOST_IRQ_EOI (R686) sends the message of each named vector whose condition is still 1, where nothing masks messages. WATCH_FIRE (R687): an armed watch
whose counter holds its threshold sets its status bit and is disarmed; the counter keeps its value. -/
def Obligations.LinkVectorsWatches : Prop :=
  (∀ p : PciePartner, (∃ x ∈ p.rates, x ∈ [1, 2, 3, 4, 5, 6]) → p.widths ≠ [] → let l := linkRate p
    (∀ x ∈ p.rates, x ∈ [1, 4, 5, 6] → x ≤ l.1) ∧ (l.1 ∈ p.rates ∧ l.1 ∈ [1, 4, 5, 6] ∨ l.1 = 1 ∧ ∀ x ∈ p.rates, x ∉ [1, 4, 5, 6])
    ∧ (∀ x ∈ p.widths, x ∈ [1, 4, 8] → x ≤ l.2) ∧ (l.2 ∈ p.widths ∧ l.2 ∈ [1, 4, 8] ∨ l.2 = 1 ∧ ∀ x ∈ p.widths, x ∉ [1, 4, 8]))
  ∧ ∀ s : State,
    (∀ p g, s.awake = true → ∃ u, exec (.pcieLinkTrain p g) s = .next (finish s u)
      ∧ u.host = { s.host with bme := g.bme, mps := g.mps, mrrs := g.mrrs, msixEn := g.msixEn, fmask := g.fmask, bar2 := max 28 (min 39 g.bar2) }
      ∧ u.core.fld Reg.hostLink 0 3 = (linkRate p).1 ∧ u.core.fld Reg.hostLink 4 4 = (linkRate p).2
      ∧ u.core.fld Reg.hostLink 8 1 = (if (linkRate p).1 = 6 ∨ (linkRate p).1 ≠ 0 ∧ p.flit = true then 1 else 0)
      ∧ (s.core.fld Reg.hostLink 0 3 ≠ (linkRate p).1 ∨ s.core.fld Reg.hostLink 4 4 ≠ (linkRate p).2 → (u.core.reg 0x2010).testBit 0 = true)
      ∧ u.ctl = s.ctl ∧ u.mgmt = s.mgmt ∧ u.core.mem = s.core.mem)
    ∧ (∀ p, s.awake = true → s.core.fld Reg.hostLink 0 3 ≠ 0 →
        exec (.pcieLinkRecovery p) s = .next (finish s (s.on (fun c => (c.incFld Reg.hostLink 16 16 1).setLink p))))
    ∧ (∀ high vecs, s.live = true → vecs < 2 ^ 32 → ∃ u, exec (.hostIrqEoi high vecs) s = .next (finish s u) ∧ u.ctl = s.ctl ∧ u.host = s.host ∧ u.mgmt = s.mgmt
        ∧ (s.host.msixEn = true → s.host.fmask = false → s.host.bme = true → (∀ v, v < 64 → s.core.fld (msixKey v 3) 0 1 = 0) →
            (u.core.wire.drop s.core.wire.length).map (fun m => m.body) = ((((List.range 32).filter (fun i => vecs.testBit i)).map (fun i => i + if high then 32 else 0)).filter
              (fun v => v ∈ s.core.conditions)).map (fun v => Body.msix v (s.core.reg (msixKey v 0) + s.core.reg (msixKey v 1) * 2 ^ 32) (s.core.reg (msixKey v 2)))))
    ∧ (∀ n, s.live = true → s.core.fld (bankKey n Reg.hostWatchCfg) 31 1 = 1 →
        s.core.reg (bankKey n Reg.hostWatchThresh) ≤ s.event (s.core.fld (bankKey n Reg.hostWatchCfg) 0 12) →
        exec (.watchFire n) s = .next (finish s (s.on (fun c => (c.setBit (bankKey n Reg.hostWatchCfg) 31 false).setBit Reg.hostWatchStatus n true))))

/-! ### Cluster time -/

/-- TIME_MESSAGE_SEND (of R46, R552) on a trained port of a node that has an identifier, which last sent at least a microsecond ago and can send at once, puts one time message on
the wire to its neighbour, before anything else that waits there, with this device's time, sync state, hop count and root; before that, without an identifier or on a port that has
not trained it sends nothing. TIME_MESSAGE_RECEIVE (of R51) on a trained port keeps the message; a root, and a receiver of an unranked message, does nothing else; a follower
whose fixed parent it is takes the offset, one hop more than its parent, and leaves UNSYNC and HOLDOVER. That CT_OFFSET holds the offset modulo 2^32 is the model's choice (log
entry 117). A port that has not trained takes none. -/
def Obligations.TimeMessages : Prop :=
  ∀ (s : State) (p : Nat), s.live = true →
    (s.core.trained p = false → exec (.timeMessageSend p) s = .next (finish s s) ∧ ∀ m offset, exec (.timeMessageReceive p m offset) s = .next (finish s s))
    ∧ (s.core.node = 0xFFFF → exec (.timeMessageSend p) s = .next (finish s s))
    ∧ (s.core.trained p = true →
      let x := s.core.port p
      let sent := TimeMsg.mk s.core.ct s.core.sync (s.core.fld Reg.ctState 16 8) s.rootSeen.1 s.rootSeen.2
      let hop := sget 0 s.core.seif.hopTx (portGroup (s.core.portRole p) * 16 + 1)
      (x.timeSent ≠ 0 → s.core.up < x.timeSent + 1000 → exec (.timeMessageSend p) s = .next (finish s s))
      ∧ (x.timeSent = 0 ∨ x.timeSent + 1000 ≤ s.core.up → s.core.node ≠ 0xFFFF → p < s.core.seif.ports.length → sget 0 x.credits 2 ≠ 0 → x.replay.length < 2048 →
        (∀ e ∈ x.entries, e.msg.wadi = 1 → e.unsent = 0) → ∃ u rest, exec (.timeMessageSend p) s = .next (finish s u)
        ∧ u.core.wire = s.core.wire ++ { dst := s.core.fld (portKey p Reg.seifPeer) 0 16, wadi := 1, port := some p, loop := s.core.looped p, hopseq := some hop, body := Body.timeMessage sent } :: rest
        ∧ ((∀ e ∈ x.entries, e.unsent = 0) → rest = []) ∧ u.core.mem = s.core.mem ∧ u.core.ct = s.core.ct ∧ u.sync = s.sync ∧ u.ctl = s.ctl)
      ∧ (∀ m offset, ∃ u, exec (.timeMessageReceive p m offset) s = .next (finish s u) ∧ sfind u.sync.heard p = some (m, s.core.up) ∧ u.ctl = s.ctl ∧ u.core.mem = s.core.mem
        ∧ (s.core.isRoot = true ∨ m.hops = 0xFF → u = { s with sync := { s.sync with heard := sput s.sync.heard p (m, s.core.up) } })
        ∧ (s.core.isRoot = false → m.hops < 0xFF → s.core.fld Reg.ctCfg 3 1 = 0 → s.core.fld Reg.ctCfg 4 5 = p →
            u.core.reg Reg.ctOffset = ofSigned 32 offset % 2 ^ 32 ∧ u.core.fld Reg.ctState 16 8 = m.hops + 1 ∧ u.sync.parentAt = s.core.up ∧ u.core.sync ≠ 0
              ∧ u.core.sync ≠ 3 ∧ u.sync.following = true)))

/-- Losses and changes of the time source (R46, R52, R54, R55, R62, R750): a root that hears a higher-ranking root stops acting as root and sets ROOT_CONFLICT; the best
backup becomes root after 1 ms without the root, its time without a step, but not while ports still train and no root has been heard of; a follower of a fixed parent without its
messages for 20 µs enters HOLDOVER; a lost reference drops REF_OK. -/
def Obligations.TimeSources : Prop :=
  ∀ s : State,
    (∀ p m t, s.live = true → sfind s.sync.heard p = some (m, t) → s.core.isRoot = true → m.rootRole ≠ 0 → m.hops ≠ 0xFF →
      ranksBefore (m.rootRole, m.root) (s.core.role, s.core.node) = true →
      ∃ u, exec (.rootYield p) s = .next (finish s u) ∧ u.core.isRoot = false ∧ u.core.sync = 0 ∧ (u.core.reg 0x4010).testBit 5 = true ∧ u.core.ct = s.core.ct)
    ∧ (∀ others, s.live = true → s.core.isRoot = false → s.core.role = 2 → s.sync.rootAt + 1000000 ≤ s.core.up → s.sync.rootSeen = true ∨ s.core.anyTraining = false →
      others.any (fun o => ranksBefore o (s.core.fld Reg.ctCfg 12 4, s.core.node)) = false →
      ∃ u, exec (.rootLoss others) s = .next (finish s u) ∧ u.core.isRoot = true ∧ u.core.sync = 2 ∧ u.core.fld Reg.ctState 16 8 = 0 ∧ u.core.ct = s.core.ct
        ∧ u.sync.following = false ∧ u.sync.slew = 0)
    ∧ (∀ others, s.live = true → s.sync.rootSeen = false → s.core.anyTraining = true → exec (.rootLoss others) s = .next (finish s s))
    ∧ (s.live = true → s.core.isRoot = false → s.sync.following = true → s.sync.parentAt + 20000 ≤ s.core.up → s.core.fld Reg.ctCfg 3 1 = 0 →
      ∃ u, exec .parentLoss s = .next (finish s u) ∧ u.core.sync = 3 ∧ u.sync.following = false ∧ u.sync.good = 0 ∧ u.core.ct = s.core.ct)
    ∧ (s.awake = true → ∃ u, exec .refClkLoss s = .next (finish s u) ∧ u.core.fld Reg.pinState 2 1 = 0 ∧ u.core.fld Reg.ctState 3 1 = 0
        ∧ u.sync = { s.sync with ppsGood := 0 } ∧ u.ctl = s.ctl ∧ u.core.ct = s.core.ct)
    ∧ (s.awake = true → ∃ u, exec .trefPpsLoss s = .next (finish s u) ∧ u.core.fld Reg.pinState 3 1 = 0 ∧ u.core.fld Reg.ctState 3 1 = 0
        ∧ u.sync = { s.sync with ppsGood := 0, ppsBad := 2 } ∧ u.ctl = s.ctl ∧ u.core.ct = s.core.ct)

/-- TREF_PPS_EDGE and CT_SET_HI (R44, R46, R56): a second good edge in a row sets REF_OK; an edge steers a disciplined root to the nearest whole second, or loads the time that an
armed CT_SET gives; on a root that follows no reference and has started no strand, the write of CT_SET_HI loads the time at once. A load of a later time is a step; of an earlier
one, cluster time stands still until that time has caught up, which is the model's reading (log entry 13). -/
def Obligations.TimeReference : Prop :=
  ∀ s : State,
    let loads (v : Nat) (u : State) : Prop := u.sync.setArmed = none ∧ (s.core.ct ≤ v → v < 2 ^ 64 → u.core.ct = v ∧ u.sync.hold = 0)
      ∧ (v < s.core.ct → u.core.ct = s.core.ct ∧ u.sync.hold = s.core.ct - v)
    (∀ cycles, s.awake = true → 9999990 ≤ cycles → cycles ≤ 10000010 → 1 ≤ s.sync.ppsGood →
      ∃ u, exec (.trefPpsEdge cycles true) s = .next (finish s u) ∧ u.core.fld Reg.ctState 3 1 = 1 ∧ u.sync.ppsGood = s.sync.ppsGood + 1 ∧ u.sync.ppsBad = 0
        ∧ (s.core.isRoot = true → s.core.fld Reg.ctCfg 2 1 = 1 → s.sync.setArmed = none → u.core.ct = s.core.ct
            ∧ u.sync.slew = (((s.core.ct + 500000000) / 1000000000 * 1000000000 : Nat) : Int) - s.core.ct)
        ∧ (∀ v, s.core.isRoot = true → s.core.fld Reg.ctCfg 2 1 = 1 → s.sync.setArmed = some v → s.ctl.started = false → loads v u))
    ∧ (∀ v, s.live = true → v < 2 ^ 32 → s.core.isRoot = true → s.ctl.started = false → s.core.fld Reg.ctCfg 2 1 = 0 →
      ∃ u, exec (.ctSetHi v) s = .next (finish s u) ∧ loads (s.core.reg Reg.ctSetLo + v * 2 ^ 32) u)

/-- TIMED_EVENT (R57, R60) takes the first event that is due: publications in ascending identifier, then shadow swaps in ascending page, then a frequency change, then
starts in ascending strand, those of earlier edges of the compute clock first. -/
def Obligations.TimedEvents : Prop :=
  ∀ (s : State) (t kind key : Nat), s.awake = true → (t, kind, key) ∈ s.dueEvents →
    (∀ e ∈ s.dueEvents, t < e.1 ∨ t = e.1 ∧ (kind < e.2.1 ∨ kind = e.2.1 ∧ key ≤ e.2.2)) →
    exec .timedEvent s = .next (finish s (if kind = 0 then s.publish key else if kind = 1 then s.swapDue key else if kind = 2 then s.freqNow else s.waitOver key))

/-! ### Strands -/

/-- The control descriptors that only steer their strand (of R79, R80): NOP, JUMP, LOOP, HALT and STEP_MARK are done at once; JUMP names TARGET as the next descriptor; LOOP loads,
counts down and jumps, or falls through, by its level's counter; HALT stops the strand with reason 1 after it; STEP_MARK counts a step and restarts the step watchdog. Nothing
else changes. -/
def Obligations.SteeringDescriptors : Prop :=
  ∀ (s : State) (k : Nat),
    let t := s.strand k
    let ends (f : Strand → Strand) : State := s.setStrand k (fun t => f { t with phase := .done, tStart := some s.core.ct })
    (s.control k 0x00 = true → exec (.nop k) s = .next (finish s (ends id)))
    ∧ (s.control k 0x01 = true → exec (.jump k) s = .next (finish s (ends (fun t => { t with next := some (t.f 24 0 18) }))))
    ∧ (s.control k 0x02 = true → let lv := t.f 32 0 2; let count := t.f 28 0 32; let c := nth (0, false) t.loops lv; let n := if c.2 then c.1 else count
        exec (.loop k) s = .next (finish s (ends (fun t =>
          if count = 0 then { t with loops := setNth t.loops lv (n, true), next := some (t.f 24 0 18) }
          else if n ≠ 0 then { t with loops := setNth t.loops lv (n - 1, true), next := some (t.f 24 0 18) }
          else { t with loops := setNth t.loops lv (0, false) }))))
    ∧ (s.control k 0x03 = true → exec (.halt k) s = .next (finish s (ends (fun t => { t with haltNext := 1 }))))
    ∧ (s.control k 0x05 = true → exec (.stepMark k) s = .next (finish s ({ s with ctl := { s.ctl with stepWdog := s.core.ct } }.setStrand k
        (fun t => { t with phase := .done, tStart := some s.core.ct, steps := (t.steps + 1) % 2 ^ 32 }))))

/-- EVENT_SET (of R79) sets COUNT counters from FIRST to VALUE and no other; CP_EVENT_VALUE and CP_EVENT_ADD (of R89) set the selected counter and add to it, saturating;
EVENT_WAIT_SATISFIED (of R73, R74) reduces the counter by WAIT_COUNT and lets the descriptor go on, the lowest strand that can be served first. No other counter, strand or
memory changes. -/
def Obligations.EventCounters : Prop :=
  ∀ (s : State),
    (∀ k, s.control k 0x04 = true → let t := s.strand k; ∃ u, exec (.eventSet k) s = .next (finish s u)
      ∧ (∀ i, u.event i = if t.f 24 0 12 ≤ i ∧ i < t.f 24 0 12 + t.f 26 0 16 ∧ i < 4096 then t.f 28 0 32 else s.event i)
      ∧ u.strand k = { t with phase := .done, tStart := some s.core.ct } ∧ (∀ j, j ≠ k → u.strand j = s.strand j) ∧ u.core = s.core ∧ u.mgmt = s.mgmt)
    ∧ (∀ v, s.live = true → v < 2 ^ 32 → ∃ u, exec (.cpEventValue v) s = .next (finish s u) ∧ u.event (s.core.fld Reg.cpEventSel 0 12) = v
        ∧ (∀ j, j ≠ s.core.fld Reg.cpEventSel 0 12 → u.event j = s.event j) ∧ (∀ j, u.strand j = s.strand j) ∧ u.core.mem = s.core.mem)
    ∧ (∀ v, s.live = true → v < 2 ^ 32 → ∃ u, exec (.cpEventAdd v) s = .next (finish s u)
        ∧ u.event (s.core.fld Reg.cpEventSel 0 12) = min (2 ^ 32 - 1) (s.event (s.core.fld Reg.cpEventSel 0 12) + v)
        ∧ (∀ j, j ≠ s.core.fld Reg.cpEventSel 0 12 → u.event j = s.event j) ∧ (∀ j, u.strand j = s.strand j) ∧ u.core.mem = s.core.mem)
    ∧ (∀ k, s.live = true → (s.strand k).phase = .waitEvent → let i := (s.strand k).f 4 0 12; let n := (s.strand k).f 4 12 20
        (s.event i < n → exec (.eventWaitSatisfied k) s = .next (finish s s))
        ∧ (n ≤ s.event i → s.event i < 2 ^ 32 →
          ((∃ j, j < k ∧ s.eventReady j = true ∧ (s.strand j).f 4 0 12 = i) → exec (.eventWaitSatisfied k) s = .next (finish s s))
          ∧ ((∀ j, j < k → ¬(s.eventReady j = true ∧ (s.strand j).f 4 0 12 = i)) →
            ∃ u, exec (.eventWaitSatisfied k) s = .next (finish s u) ∧ u.event i = s.event i - n ∧ (∀ j, j ≠ i → u.event j = s.event j)
              ∧ u.strand k = { s.strand k with phase := .ready } ∧ (∀ j, j ≠ k → u.strand j = s.strand j) ∧ u.core = s.core)))

/-- START, STOP, ABORT (of R85, R88) and STRAND_START (of R79, R82): START and STRAND_START put a strand that does not run at its first descriptor, its ring head, wraps, steps
and loop counters zero, fetching at once or when the stagger offset has passed (R662); STOP makes a running strand halt after its current descriptor; ABORT cancels its descriptor
with the statuses of R85, unless a publication has fixed its completion, or stops a strand between descriptors with reason 3; STRAND_START of a strand that runs is reported and
does nothing else. -/
def Obligations.StrandControl : Prop :=
  ∀ (s : State), s.live = true →
    let off := s.core.stagger
    let starts (u : State) (j index : Nat) : Prop := (u.strand j).phase = (if off = 0 then Phase.fetch else Phase.waitTime) ∧ (off ≠ 0 → (u.strand j).startAt = s.core.ct + off)
      ∧ (u.strand j).pc = index ∧ (u.strand j).head = 0 ∧ (u.strand j).wraps = 0 ∧ (u.strand j).steps = 0 ∧ (u.strand j).loops = List.replicate 4 (0, false)
      ∧ (u.strand j).stopping = false ∧ u.ctl.started = true
    (∀ k h q, k < 64 → k < s.ctl.strands.length → (s.strand k).active = false → ∃ u, exec (.start k h q) s = .next (finish s u)
      ∧ starts u k (s.core.fld (strandKey k 4) 0 18) ∧ u.quarter k = q % 4 ∧ (∀ j, j ≠ k → u.strand j = s.strand j) ∧ u.core.mem = s.core.mem)
    ∧ (∀ k, k < 64 → (s.strand k).active = true → ∃ u, exec (.stop k) s = .next (finish s u) ∧ u.strand k = { s.strand k with stopping := true }
        ∧ (∀ j, j ≠ k → u.strand j = s.strand j) ∧ u.core.mem = s.core.mem)
    ∧ (∀ k, k < 64 → (s.strand k).active = true → let t := s.strand k; let between := t.phase = .fetch ∨ t.phase = .waitTime ∧ t.startAt ≠ 0
        ∃ u, exec (.abort k) s = .next (finish s u) ∧ (∀ j, j ≠ k → u.strand j = s.strand j) ∧ u.core.mem = s.core.mem
        ∧ (between → (u.strand k).phase = .halted ∧ (u.strand k).haltReason = 3)
        ∧ (¬between → (u.strand k).haltNext = 3
            ∧ (t.comp.tEnd = none → (u.strand k).phase = .done ∧ (u.strand k).comp.cancelled = true
                ∧ (u.strand k).comp.status = max t.comp.status (if t.txn?.isSome then 0x21 else 0x20))
            ∧ (t.comp.tEnd.isSome = true → (u.strand k).phase = t.phase ∧ (u.strand k).comp = t.comp)))
    ∧ (∀ k, s.control k 0x0B = true → let j := (s.strand k).f 24 0 6; j < s.ctl.strands.length → ∃ u, exec (.strandStart k) s = .next (finish s u)
        ∧ (u.strand k).phase = .done ∧ (∀ i, i ≠ k → i ≠ j → u.strand i = s.strand i)
        ∧ ((s.strand j).active = true → (j ≠ k → u.strand j = s.strand j) ∧ u.strand k = { s.strand k with phase := .done, tStart := some s.core.ct, comp :=
            { (s.strand k).comp with startIgnored := true } })
        ∧ ((s.strand j).active = false → starts u j ((s.strand k).f 28 0 18) ∧ (u.strand k).comp = (s.strand k).comp))

/-- DESCRIPTOR_FETCH and WAIT_TIME_END (of R63 to R66, R71, R76, R85, R772): a fetch beyond the program region faults the strand with reason 8; one that cannot be read ends with
the read's status; one of a reserved opcode faults with reason 5 and one that names another strand with 6; every other is held and its header acts: a member opens its transaction,
or ends with 0x21 in an aborted one; a start that is late is counted and noted, after the timed events that come before it (R60), one to come is waited for, and an event is waited for after it. A strand told to stop
halts with reason 2 in place of a fetch. A wait for time ends at its time, after the timed events that come before it, or, for a collective without a timed-event entry (R59), when
it gets one. -/
def Obligations.FetchAndWait : Prop :=
  ∀ (s : State) (k : Nat), s.live = true →
    ((s.strand k).phase = .fetch → ((s.strand k).stopping = true → exec (.descriptorFetch k) s = .next (finish s (s.stopStrand k 2 false))) ∧ ((s.strand k).stopping = false →
      let a := s.core.program.1 + 64 * (s.strand k).pc
      let r := s.core.read { q := s.quarter k, strand := some k, index := (s.strand k).pc } a 64
      let d := BitVec.ofNat 512 (ofLE r.2.2)
      (s.core.program.2 < a + 64 → exec (.descriptorFetch k) s = .next (finish s (s.stopStrand k 8 true)))
      ∧ (a + 64 ≤ s.core.program.2 → r.2.1 ≠ 0 → ∃ u, exec (.descriptorFetch k) s = .next (finish s u) ∧ (u.strand k).phase = .done ∧ (u.strand k).comp.status = r.2.1
          ∧ (u.strand k).fetchFailed = true ∧ u.core = r.1)
      ∧ (a + 64 ≤ s.core.program.2 → r.2.1 = 0 →
          (dfld d 0 0 8 ∉ opcodes → exec (.descriptorFetch k) s = .next (finish s ({ s with core := r.1 }.stopStrand k 5 true)))
          ∧ (dfld d 0 0 8 ∈ opcodes → dfld d 3 0 6 ≠ k → exec (.descriptorFetch k) s = .next (finish s ({ s with core := r.1 }.stopStrand k 6 true)))
          ∧ (dfld d 0 0 8 ∈ opcodes → dfld d 3 0 6 = k →
              let s2 : State := { s with core := r.1 }.setStrand k (fun t => { t with desc := d, comp := {}, fetchFailed := false, next := none, tStart := none, sawPoison := false })
              (s2.startsLate k = false → exec (.descriptorFetch k) s = .next (finish s (s2.header k)))
              ∧ (s2.startsLate k = true → exec (.descriptorFetch k) s = .next (finish s ((s2.before (s2.edge s2.core.ct, 3, k)).header k)))))))
    ∧ (let t := s.strand k
       let u := s.header k
       let after : Phase := if t.f 1 2 1 = 1 ∧ t.f 4 12 20 ≠ 0 then .waitEvent else .ready
       k < s.ctl.strands.length → (∀ j, j ≠ k → u.strand j = s.strand j)
        ∧ (t.txn? = none → t.f 1 1 1 = 0 → u.strand k = { t with tOut := s.core.ct, phase := after } ∧ u.core = s.core)
        ∧ (t.txn? = none → t.f 1 1 1 = 1 → s.startTime t < s.core.ct → (u.strand k).phase = after ∧ (u.strand k).tOut = s.core.ct ∧ (u.strand k).comp.late = true
            ∧ u.core = s.core.lateEvent)
        ∧ (t.txn? = none → t.f 1 1 1 = 1 → s.core.ct ≤ s.startTime t → u.strand k =
            { t with tOut := s.core.ct, phase := .waitTime, entry := isCollective t.op && !s.noEntry } ∧ u.core = s.core)
        ∧ (∀ id, t.txn? = some id → (∃ x, u.core.txn? id = some x ∧ x.opened = true)
            ∧ ∀ x, s.core.txn? id = some x → x.aborted = true → (u.strand k).phase = .done ∧ (u.strand k).comp.status = 0x21))
    ∧ ((s.strand k).phase = .waitTime →
        let w := s.wakeTime k
        (s.core.ct < w ∨ (s.strand k).needsEntry = true → exec (.waitTimeEnd k) s = .next (finish s s))
        ∧ (w ≤ s.core.ct → (s.strand k).needsEntry = false → exec (.waitTimeEnd k) s = .next (finish s ((s.before (s.edge w, 3, k)).waitOver k))
            ∧ ((∀ e ∈ s.dueEvents, s.edge w < e.1 ∨ s.edge w = e.1 ∧ (3 < e.2.1 ∨ 3 = e.2.1 ∧ k ≤ e.2.2)) → s.before (s.edge w, 3, k) = s)
            ∧ ((s.strand k).startAt ≠ 0 → s.waitOver k = s.setStrand k (fun t => { t with phase := .fetch, startAt := 0, tWdog := s.core.ct }))
            ∧ ((s.strand k).startAt = 0 → let u := s.waitOver k
                (u.strand k).phase = (if (s.strand k).f 1 2 1 = 1 ∧ (s.strand k).f 4 12 20 ≠ 0 then Phase.waitEvent else .ready) ∧ (u.strand k).tOut = s.core.ct
                ∧ u.core = s.core ∧ ∀ j, j ≠ k → u.strand j = s.strand j)))

/-- How descriptors end (of R76, R77, R83, R86, R87, R104): one past its timeout ends with at least 0x20, or 0x21 for TXN_COMMIT, which aborts its transaction where that is not
decided; a completion leaves the strand with no current descriptor, going on or stopped; its record is stored in the strand's ring slot, whose head goes on; a strand in RUN or
WAIT_EVENT that completes nothing for STRAND_WDOG is cancelled for reason 7; the step watchdog raises STEP_WDOG, aborts the job's step, and starts anew. -/
def Obligations.DescriptorEnds : Prop :=
  ∀ (s : State) (k : Nat), s.live = true →
    let t := s.strand k
    let waits := t.phase = .waitEvent ∨ t.phase = .ready ∨ t.phase = .busy ∨ t.phase = .waitTime ∧ t.needsEntry = true
    (waits → t.op ≠ 0x07 → s.timeoutFrom k + s.timeout k ≤ s.core.ct →
      exec (.descriptorTimeout k) s = .next (finish s (s.endDesc k 0x20)) ∧ ((s.endDesc k 0x20).strand k).phase = .done
        ∧ 0x20 ≤ ((s.endDesc k 0x20).strand k).comp.status)
    ∧ (waits → t.op = 0x07 → s.timeoutFrom k + s.timeout k ≤ s.core.ct → ∃ u, exec (.descriptorTimeout k) s = .next (finish s u) ∧ (u.strand k).phase = .done
        ∧ 0x21 ≤ (u.strand k).comp.status
        ∧ ∀ x, s.core.txn? (t.f 24 0 8) = some x → x.decided = false → x.opened = true → ∀ y, u.core.txn? (t.f 24 0 8) = some y → y.aborted = true)
    ∧ (waits → s.core.ct < s.timeoutFrom k + s.timeout k → exec (.descriptorTimeout k) s = .next (finish s s))
    ∧ (t.phase ≠ .waitTime → s.timeoutFrom k = t.tOut) ∧ (t.phase = .waitTime → s.timeoutFrom k = s.startTime t)
    ∧ (t.phase = .done → ∃ u, exec (.descriptorComplete k) s = .next (finish s u)
        ∧ (u.strand k).desc = 0 ∧ (u.strand k).comp = {} ∧ (u.strand k).phase ≠ .done ∧ (∀ j, j ≠ k → t.txn? = none → t.op ≠ 6 → t.op ≠ 7 → u.strand j = s.strand j)
        ∧ (t.haltNext = 1 → (u.strand k).phase = .halted ∧ (u.strand k).haltReason = 1))
    ∧ (let lg := s.core.fld (strandKey k 0x14) 0 5
       let off := s.core.fld (strandKey k 0x10) 6 25 * 64
       let slot := off % 2 ^ 29 + 64 * (t.head % 2 ^ max 4 (min 16 lg))
       let u := s.writeRecord k
       (lg = 0 → u = s) ∧ (k < s.ctl.strands.length → lg ≠ 0 → (u.strand k).head = (t.head + 1) % 2 ^ 32 ∧ (∀ j, j ≠ k → u.strand j = s.strand j)
        ∧ (slot + 64 ≤ 2 ^ 29 → slot + 64 ≤ s.core.top (off / 2 ^ 29) → s.core.filling (ergAddr (off / 2 ^ 29) slot) 64 = false →
            s.core.parkedAt (ergAddr (off / 2 ^ 29) slot) 64 false = false → ∀ b, u.core.byteAt none b = if ergAddr (off / 2 ^ 29) slot ≤ b ∧ b < ergAddr (off / 2 ^ 29) slot + 64
            then (t.record k s.core.ct).getD (b - ergAddr (off / 2 ^ 29) slot) 0 else s.core.byteAt none b)
        ∧ (2 ^ 29 ≤ slot → u.core.mem = s.core.mem)))
    ∧ (let ms := if s.core.fld Reg.cpWdog 0 16 = 0 then 100 else s.core.fld Reg.cpWdog 0 16
       (t.state = 1 ∨ t.state = 3 → t.tWdog + ms * 1000000 ≤ s.core.ct → ∃ u, exec (.strandWatchdog k) s = .next (finish s u) ∧ (∀ j, j ≠ k → u.strand j = s.strand j)
          ∧ (t.phase = .fetch → (u.strand k).phase = .faulted ∧ (u.strand k).haltReason = 7)
          ∧ (t.phase ≠ .fetch → (u.strand k).haltNext = 7 ∧ (t.comp.tEnd.isSome = true → (u.strand k).comp = t.comp)
              ∧ (t.comp.tEnd = none → (u.strand k).comp.cancelled = true ∧ (u.strand k).phase = .done ∧ (u.strand k).comp.status = max t.comp.status (if t.txn?.isSome then 0x21 else 0x20))))
       ∧ (¬(t.state = 1 ∨ t.state = 3) ∨ s.core.ct < t.tWdog + ms * 1000000 → exec (.strandWatchdog k) s = .next (finish s s)))
    ∧ (s.running = true → s.ctl.stepWdog + (if s.core.fld Reg.cpWdog 16 16 = 0 then 1000 else s.core.fld Reg.cpWdog 16 16) * 1000000 ≤ s.core.ct →
        ∃ u, exec .stepWatchdog s = .next (finish s u) ∧ u.core = { s.core.raise 5 2 with job := { s.core.job with abortDue := s.core.job.abortDue || s.core.inJob } }
          ∧ u.ctl = { s.ctl with stepWdog := s.core.ct } ∧ u.mgmt = s.mgmt ∧ u.sync = s.sync ∧ u.pwr = s.pwr)

/-! ### Stores, transactions, shadow sets -/

/-- STORE_IMM (of R79, R81, R92, R94): each of up to three 64-bit values is written, in order and at ascending addresses, and the descriptor is done. A value for memory goes to
memory, or is staged, as its bytes; one for register space is two words, each of which is dropped, counted and reported where no Step page lets it be written, staged in the
member's transaction while a unit is left, and else takes effect as a register write. -/
def Obligations.StoresImmediate : Prop :=
  ∀ (s : State) (k : Nat),
    (s.control k 0x0A = true → let t := s.strand k
      exec (.storeImm k) s = .next (finish s (((List.range (min (t.f 32 0 8) 3)).foldl (fun (u : State) i => u.storeWord k (t.f 24 0 64 / 8 * 8 + 8 * i) (t.f (40 + 8 * i) 0 64)) s).setStrand
        k (fun t => { t with phase := .done, tStart := some s.core.ct }))))
    ∧ ∀ a v, v < 2 ^ 64 →
      ((∀ off, place a ≠ .reg off) → s.storeWord k a v = s.withDx k ((s.dx k).write a (leBytes 8 v)))
      ∧ (∀ off, place a = .reg off → s.storeWord k a v = (s.storeReg k off (v % 2 ^ 32)).storeReg k (off + 4) (v / 2 ^ 32))
      ∧ ∀ off w, k < s.ctl.strands.length →
        (stepMayWrite off = false → (s.storeReg k off w).core = s.core.dropWrite (off / 4096) ∧ ((s.storeReg k off w).strand k).comp.storeDropped = true)
        ∧ (stepMayWrite off = true → (s.strand k).txn? = none → s.storeReg k off w = (s.beforeSwap off w).writeWord off w)
        ∧ (∀ id x, stepMayWrite off = true → (s.strand k).txn? = some id → s.core.txn? id = some x →
            unitsIn (insN x.units (s.quarter k * 2 ^ 60 + 2 ^ 59 + off)) (s.quarter k) ≤ s.core.stageLimit (s.quarter k) →
            ∃ y, (s.storeReg k off w).core.txn? id = some y ∧ y.stageRegs = x.stageRegs ++ [(off, w)] ∧ (s.storeReg k off w).core.regs = s.core.regs)
        ∧ (∀ id x, stepMayWrite off = true → (s.strand k).txn? = some id → s.core.txn? id = some x →
            s.core.stageLimit (s.quarter k) < unitsIn (insN x.units (s.quarter k * 2 ^ 60 + 2 ^ 59 + off)) (s.quarter k) →
            (s.storeReg k off w).core = s.core ∧ 0x21 ≤ ((s.storeReg k off w).strand k).comp.status)

/-- TXN_PREPARE, TXN_COMMIT and TXN_ABORT (of R79, R95, R96, R100, R101): a prepare or commit waits at its transaction, which it names whether or not a member has been fetched;
a local commit of an aborted transaction ends with 0x21; an abort of an open transaction marks it and discards what it has staged; an abort that names no open transaction does
nothing else than end. -/
def Obligations.TransactionDescriptors : Prop :=
  ∀ (s : State) (k : Nat),
    let t := s.strand k
    let id := t.f 24 0 8
    (s.control k 0x06 = true → ∃ u w, exec (.txnPrepare k) s = .next (finish s u) ∧ (u.strand k).phase = .busy ∧ (∃ x, u.core.txn? id = some x ∧ w ∈ x.waiters)
        ∧ w.kind = .participant ∧ w.strand = k ∧ w.coord = t.f 26 0 16 ∧ w.group = t.f 28 0 16 ∧ w.needed = t.f 32 0 32 ∧ u.core.mem = s.core.mem ∧ u.core.regs = s.core.regs
        ∧ (∀ j, j ≠ k → u.strand j = s.strand j))
    ∧ (s.control k 0x07 = true → t.f 25 0 1 = 1 ∨ (∀ x, s.core.txn? id = some x → x.aborted = false) → ∃ u w, exec (.txnCommit k) s = .next (finish s u) ∧ (u.strand k).phase = .busy
        ∧ (∃ x, u.core.txn? id = some x ∧ w ∈ x.waiters) ∧ w.kind = (if t.f 25 0 1 = 0 then .localCommit else .coordinator) ∧ w.strand = k ∧ w.pubTime = t.f 40 0 64
        ∧ w.voters = t.f 32 0 32 ∧ w.needed = t.f 28 0 32 ∧ w.group = t.f 26 0 16 ∧ u.core.mem = s.core.mem ∧ u.core.regs = s.core.regs ∧ (∀ j, j ≠ k → u.strand j = s.strand j))
    ∧ (∀ x, s.control k 0x07 = true → t.f 25 0 1 = 0 → s.core.txn? id = some x → x.aborted = true → exec (.txnCommit k) s = .next (finish s (s.setStrand k
        (fun t => { t with phase := .done, tStart := some s.core.ct, comp := { t.comp with status := max t.comp.status 0x21 } }))))
    ∧ (∀ x, s.control k 0x08 = true → s.core.txn? id = some x → x.opened = true → x.aborted = false → x.decided = false → ∃ u,
        exec (.txnAbort k) s = .next (finish s u) ∧ (u.strand k).phase = .done ∧ u.core.mem = s.core.mem
          ∧ ∀ y, u.core.txn? id = some y → y.aborted = true ∧ y.stage = [] ∧ y.stageRegs = [] ∧ y.notices = [])
    ∧ (s.control k 0x08 = true → (∀ x, s.core.txn? id = some x → x.opened = false) → exec (.txnAbort k) s = .next (finish s (s.setStrand k
        (fun t => { t with phase := .done, tStart := some s.core.ct }))))

/-- Messages of global commits (of R97, R101, R102, R103, R614, R615) at a device that serves: a vote is kept with its arrival, replacing the node's earlier one, but one to abort
the running job's boundary step makes the leader decide to abort at once; an abort decision discards the transaction that was prepared for its group; a commit decision sets that
one's publication time, publishes it at once where the time has passed, after the timed events before it, and discards it where it is marked aborted; one taken before changes
nothing, which is the model's reading (log entry 122); a twin keeps what it is sent and acknowledges it; its
acknowledgement sends a held decision on; TXN_PUBLISH publishes the first publication due, after the timed events before it, and a publication closes its transaction and
completes those that wait for it. -/
def Obligations.TransactionMessages : Prop :=
  ∀ s : State, s.serves = true →
    (∀ v : Vote, v.handBack = false →
        let kept := s.ctl.votes.filter (fun x => !(x.1.group == v.group && x.1.txn == v.txn && x.1.node == v.node))
        let ends := v.commit = false ∧ s.core.isBoundary v.txn = true ∧ s.core.isLeader = true ∧ s.core.inJob = true
        (¬ends → exec (.txnVote v) s = .next (finish s { s with ctl := { s.ctl with votes := kept ++ [(v, s.core.ct)] } }))
        ∧ (ends → s.core.job.phase = .none → (∀ t, s.core.txn? v.txn = some t → t.decision = none) → exec (.txnVote v) s = .next (finish s (s.decideAbort v.group v.txn s.core.leaderSrc))))
    ∧ (∀ v : Vote, v.handBack = true → exec (.txnVote v) s = .next (finish s (s.onJob (fun j => { j with handBackAsk := some (v.node, v.txn) }))))
    ∧ (∀ src d x, d.commit = true → s.core.txn? d.txn = some x → x.decision = none → x.awaits d.group = true →
        let decided (u : State) : State := (u.on (fun c => c.setTxn d.txn (fun t => { t with decision := some (true, d.time), freq := if c.isBoundary d.txn then some d.freq else none }))).onJob
          (fun j => { j with decided := j.decided.filter (fun e => e.1 != (d.group, d.txn)) ++ [((d.group, d.txn), d.time)] })
        let again := ((d.group, d.txn), d.time) ∈ s.core.job.decided
        (again → exec (.txnDecision src d false) s = .next (finish s s))
        ∧ (¬again → x.aborted = false → s.core.ct ≤ d.time → s.noEntry = false → exec (.txnDecision src d false) s = .next (finish s (decided s)))
        ∧ (¬again → x.aborted = false → s.core.ct ≤ d.time → s.noEntry = true → exec (.txnDecision src d false) s =
            .next (finish s { s with ctl := { s.ctl with decWait := s.ctl.decWait ++ [d] } }))
        ∧ (¬again → x.aborted = false → d.time < s.core.ct →
            exec (.txnDecision src d false) s = .next (finish s (((decided (s.before (s.edge s.core.ct, 0, d.txn))).on Core.lateEvent).publish d.txn)))
        ∧ (¬again → x.aborted = true → exec (.txnDecision src d false) s = .next (finish s (s.discardTxn d.txn))))
    ∧ (∀ src d, (∀ x, s.core.txn? d.txn = some x → x.awaits d.group = false) → d.commit = true ∨ s.core.isBoundary d.txn = false ∨ s.core.inJob = false →
        exec (.txnDecision src d false) s = .next (finish s s))
    ∧ (∀ src d x, d.commit = false → s.core.isBoundary d.txn = false ∨ s.core.inJob = false → s.core.txn? d.txn = some x → x.awaits d.group = true →
        exec (.txnDecision src d false) s = .next (finish s (s.discardTxn d.txn)))
    ∧ (∀ src d, ∃ u : State, exec (.txnDecision src d true) s = .next (finish s (u.takeDecision d)) ∧ (src, d) ∈ u.core.job.kept
        ∧ u.core.out = s.core.out ++ [{ dst := src, wadi := 0, body := .decisionAck d.group d.txn }] ∧ u.ctl = s.ctl ∧ u.core.txns = s.core.txns)
    ∧ (∀ h, h ∈ s.core.job.held → s.core.job.held.find? (fun x => x.dec.group == h.dec.group && x.dec.txn == h.dec.txn) = some h →
        ∃ u, exec (.decisionAck h.dec.group h.dec.txn) s = .next (finish s u) ∧ h ∉ u.core.job.held
          ∧ u.core.out = s.core.out ++ (h.nodes.filter (fun n => n != s.core.node)).map (fun n => { dst := n, wadi := 0, body := .decision h.dec, src := h.src }))
    ∧ (∀ time id, s.live = true → (time, 0, id) ∈ s.dueEvents → (∀ e ∈ s.dueEvents, e.2.1 = 0 → time < e.1 ∨ time = e.1 ∧ id ≤ e.2.2) →
        exec .txnPublish s = .next (finish s ((s.before (time, 0, id)).publish id)))
    ∧ (∀ id x time, s.core.txn? id = some x → x.decision = some (true, time) → s.core.deferred id = false → (s.publish id).core.txn? id = none
        ∧ ∀ w ∈ x.waiters, w.strand < 64 → w.strand < s.ctl.strands.length → ((s.publish id).strand w.strand).phase = .done
            ∧ ((s.publish id).strand w.strand).comp.tEnd.isSome = true)

/-- ARM_TIME, ARM_DESC, SWAP_NOW, DISARM and SHADOW_SWAP (of R105 to R109) on a mapped page of a live device. One write of SHADOW_CTRL names STRAND and acts in order: DISARM
clears both arms; ARM_TIME latches a time not yet passed, and for a time that has passed swaps at once, leaves nothing armed, sets LATE and counts it; ARM_DESC arms the next
SWAP_AFTER descriptor of STRAND; SWAP_NOW copies the shadow set. A write that swaps at once follows the timed events that come before it (R60). An armed swap whose time has come fires after the timed events that come before it, and clears both arms. -/
def Obligations.ShadowCommands : Prop :=
  ∀ (s : State) (page b q : Nat), s.live = true → pageBlock page = some (b, q) →
    let key := page * 4096 + 0x20
    let time := s.core.reg (page * 4096 + 0x24) + s.core.reg (page * 4096 + 0x28) * 2 ^ 32
    let wrote (v : Nat) : Host.Outcome State Fault Refusal := .next (finish s ((s.beforeSwap key v).hostWrite key v 15))
    (∀ w, w < 2 ^ 32 → exec (.armTime page w) s = wrote (w ||| 1) ∧ exec (.armDesc page w) s = wrote (w ||| 2) ∧ exec (.swapNow page w) s = wrote (w ||| 4)
        ∧ exec (.disarm page w) s = wrote (w ||| 8))
    ∧ (∀ v, v < 2 ^ 32 → s.hostWrite key v 15 = s.shadowWrite page v
        ∧ (v.testBit 2 = false → ¬(v.testBit 0 = true ∧ time < s.core.ct) → s.beforeSwap key v = s)
        ∧ ((∀ e ∈ s.dueEvents, s.edge s.core.ct < e.1 ∨ s.edge s.core.ct = e.1 ∧ (1 < e.2.1 ∨ 1 = e.2.1 ∧ page ≤ e.2.2)) → s.beforeSwap key v = s))
    ∧ (∀ v, let u := s.shadowWrite page v
        let late := v.testBit 0 = true ∧ time < s.core.ct
        u.core.mem = s.core.mem ∧ u.ctl.strands = s.ctl.strands ∧ u.core.fld key 8 6 = v / 256 % 64
        ∧ (v.testBit 0 = true → s.core.ct ≤ time → (u.core.reg key).testBit 0 = true ∧ sfind u.ctl.armTime page = some time)
        ∧ (late → (u.core.reg key).testBit 0 = false ∧ (u.core.reg key).testBit 1 = false ∧ (u.core.reg key).testBit 5 = true ∧ sfind u.ctl.armTime page = none
            ∧ u.core.reg Reg.ctLateCount = s.core.lateEvent.reg Reg.ctLateCount)
        ∧ (v.testBit 1 = true → ¬late → (u.core.reg key).testBit 1 = true)
        ∧ (v.testBit 3 = true → v.testBit 0 = false → (u.core.reg key).testBit 0 = false ∧ sfind u.ctl.armTime page = none)
        ∧ (v.testBit 3 = true → v.testBit 1 = false → (u.core.reg key).testBit 1 = false)
        ∧ (v.testBit 0 = false → v.testBit 3 = false → u.ctl = s.ctl))
    ∧ (∀ w, w % 64 = 0 → w < 2 ^ 14 → s.beforeSwap key (w ||| 4) = s → exec (.swapNow page w) s = .next (finish s (s.on (fun c => (c.setFld key 8 6 (w / 256)).swapPage page))))
    ∧ (∀ t, sfind s.ctl.armTime page = some t → (s.core.ct < t → exec (.shadowSwap page) s = .next (finish s s))
        ∧ (t ≤ s.core.ct → exec (.shadowSwap page) s = .next (finish s ((s.before (s.edge t, 1, page)).swapDue page))
          ∧ ((∀ e ∈ s.dueEvents, s.edge t < e.1 ∨ s.edge t = e.1 ∧ (1 < e.2.1 ∨ 1 = e.2.1 ∧ page ≤ e.2.2)) → s.before (s.edge t, 1, page) = s)
          ∧ let u := s.swapDue page
            sfind u.ctl.armTime page = none ∧ (u.core.reg key).testBit 0 = false ∧ (u.core.reg key).testBit 1 = false ∧ u.core.mem = s.core.mem ∧ u.ctl.strands = s.ctl.strands))

/-! ### Engines -/

/-- The matrix commands (of R151, R159, R181, R229, R243, R247, R251, R260): a descriptor whose turn has come runs on its engine once the ramp limiter admits the units that it
gives work, and is done with what the engine leaves; the array notes its STAT and SHADOW_DRAIN where the descriptor took clocks of it; a product on a faulty array is done with
0x40 and no other effect. The two policies of the MC change the sparse policies alone. -/
def Obligations.MatrixDescriptors : Prop :=
  ∀ (s : State) (k : Nat),
    let t := s.strand k
    let q := s.quarter k
    let prev := sget 0 s.core.arrayPrev q
    (∀ fails, s.engineRun k 0x10 = true → s.arrayDead q = false → s.Admits [unitArray q] k → ∃ u, exec (.matmul k fails) s = .next (finish s u)
        ∧ Ran s u k ((matmul (s.dx k) t.det prev fails).ran (s.dx k) (t.f 24 0 2), true))
    ∧ (∀ c op fails, (c, op) ∈ [(Instr.matmul k, 0x10), (Instr.matmulS28 k, 0x19)] → s.engineRun k op = true → s.arrayDead q = true →
        ∃ u, exec (c fails) s = .next (finish s u) ∧ Ran s u k ((s.dx k).st 0x40, true) ∧ u.core = { s.core with actAs := none })
    ∧ (∀ fails, s.engineRun k 0x19 = true → s.arrayDead q = false → s.Admits [unitArray q] k → ∃ u, exec (.matmulS28 k fails) s = .next (finish s u)
        ∧ Ran s u k ((matmulS28 (s.dx k) prev fails).ran (s.dx k) 0, true))
    ∧ (∀ fails slabs, s.engineRun k 0x18 = true →
        let y := (spmm (s.dx k) prev fails slabs).ran (s.dx k) 0
        let array := y.c.reg64 (Reg.arrayBusyLo q) ≠ s.core.reg64 (Reg.arrayBusyLo q)
        let sme := y.c.fld (Reg.smeSegments q) 16 16 ≠ s.core.fld (Reg.smeSegments q) 16 16 ∨ y.c.reg64 (Reg.smeMatchLo q) ≠ s.core.reg64 (Reg.smeMatchLo q)
        s.Admits ((if array then [unitArray q] else []) ++ if sme then [unitSme q] else []) k → ∃ u, exec (.spmm k fails slabs) s = .next (finish s u) ∧ Ran s u k (y, true))
    ∧ (s.engineRun k 0x1A = true → ∃ u, exec (.spConvert k) s = .next (finish s u) ∧ Ran s u k (spConvert (s.dx k), true))
    ∧ (∀ cmp, s.live = true → exec (.threshTune k cmp) s = .next (finish s (s.on (fun c => threshTune c k cmp)))
        ∧ threshTune s.core k cmp = { s.core with policy := (threshTune s.core k cmp).policy })
    ∧ (s.live = true → exec .marginAdapt s = .next (finish s (s.on marginAdapt)) ∧ (marginAdapt s.core).mem = s.core.mem ∧ (marginAdapt s.core).regs = s.core.regs)

/-- The sampling commands (of R278, R293, R294): SAMPLE runs on the sampler and is done, or waits for remote rows; a request is served in the quarter that serves graphs and its
answer goes back to the node that asked, with no row where no quarter serves; an answer goes on with the strand that waits for it. A message waits while an emergency stop holds
the sampler or one before it waits (R664). -/
def Obligations.Sampling : Prop :=
  ∀ s : State,
    (∀ k, s.engineRun k 0x40 = true → s.Admits [unitSampler (s.quarter k)] k → ∃ u, exec (.sample k) s = .next (finish s u)
        ∧ Ran s u k (sampLeft k (sample (s.dx k) k (s.strand k).steps)))
    ∧ (∀ dst wadi r, s.serves = true → s.Takes { dst := dst, wadi := wadi, body := .sampleRequest r } → s.sampQ (s.serveAs dst) = none → ∃ u, exec (.sampleRemoteRequest dst wadi r) s = .next (finish s u)
        ∧ Served s u ((s.dev 0 (s.serveAs dst)).send r.node wadi (.sampleAnswer { strand := r.strand, l := r.l, v := r.v, edges := none, poison := false })))
    ∧ (∀ dst wadi r q, s.serves = true → s.Takes { dst := dst, wadi := wadi, body := .sampleRequest r } → s.sampQ (s.serveAs dst) = some q → ∃ u, exec (.sampleRemoteRequest dst wadi r) s = .next (finish s u)
        ∧ let p := sampleServe (s.dev q (s.serveAs dst)) r
          Served s u (p.1.send r.node wadi (.sampleAnswer { strand := r.strand, l := r.l, v := r.v, edges := p.2, poison := p.1.acc.poison })))
    ∧ (∀ dst wadi r, s.serves = true → let m : Msg := { dst := dst, wadi := wadi, body := .sampleRequest r }
        s.Blocked m → exec (.sampleRemoteRequest dst wadi r) s = .next (finish s (s.on (fun c => { c with inbox := c.inbox ++ [m] }))))
    ∧ (∀ dst a r, s.serves = true → s.Takes { dst := dst, wadi := 0, body := .sampleAnswer a } → s.core.samps.find? (fun x => x.strand == a.strand) = some r → s.strandFor a.strand dst = true → (s.strand a.strand).phase = .busy →
        ∃ u, exec (.sampleRemoteAnswer dst a) s = .next (finish s u)
          ∧ Worked s u a.strand (sampLeft a.strand (sampleAnswer (s.dx a.strand) (s.strand a.strand).steps r a)))

/-- The embedding descriptors and the two stages of an update window (of R311, R323, R325, R328, R335): each runs on the gather engine when its turn has come; EMB_GRAD waits for its
gradients; EMB_UPDATE starts and waits, and goes on as its window's stages close, at stage 2 once the ramp limiter admits the engine and unless an RNG_LANE_SEED holds its first draw; EMB_SYNC outside a transaction does nothing else, and in one waits for its verdicts. -/
def Obligations.EmbeddingDescriptors : Prop :=
  ∀ (s : State) (k : Nat),
    let t := s.strand k
    let unit := unitGather (s.quarter k)
    let working := s.live = true ∧ s.pwr.emergency = false ∧ t.op = 0x32 ∧ t.phase = .busy
    (s.engineRun k 0x30 = true → s.Admits [unit] k → ∃ u, exec (.embLookup k) s = .next (finish s u) ∧ Ran s u k (embLookup (s.dx k) k t.det))
    ∧ (s.engineRun k 0x31 = true → s.Admits [unit] k → ∃ u, exec (.embGrad k) s = .next (finish s u) ∧ Ran s u k (embGrad (s.dx k) k, false))
    ∧ (s.mayRun k (fun o => o == 0x32) = true → s.Admits [unit] k → ∃ u, exec (.embUpdate k) s = .next (finish s u) ∧ Ran s u k (s.dx k, false))
    ∧ (s.engineRun k 0x33 = true → t.txn? = none → ∃ u, exec (.embSync k) s = .next (finish s u) ∧ Ran s u k (s.dx k, true))
    ∧ (s.engineRun k 0x33 = true → t.txn?.isSome = true → ∃ u, exec (.embSync k) s = .next (finish s u)
        ∧ let y := syncVerdicts (s.dx k) (s.core.reg Reg.jobStep)
          Ran s u k (if verdictsIn y then (syncFinish y (s.core.reg Reg.jobStep), true) else (y, false)))
    ∧ (working →
        (stage1Ready s.core.emb (t.f 24 0 8) (t.f 26 0 16) (t.f 28 0 17) (s.actOf k).isSome = true →
          ∃ u, exec (.updateWindowStage1 k) s = .next (finish s u) ∧ Worked s u k (closeStage1 (s.dx k) (t.f 24 0 8) (t.f 26 0 16), false))
        ∧ (stage1Ready s.core.emb (t.f 24 0 8) (t.f 26 0 16) (t.f 28 0 17) (s.actOf k).isSome = false →
          ∃ u, exec (.updateWindowStage1 k) s = .next (finish s u) ∧ Worked s u k (s.dx k, false)))
    ∧ (working →
        (stage2Ready (s.dx k) (t.f 24 0 8) (t.f 26 0 16) = true → s.Admits [unit] k → ∃ u, exec (.updateWindowStage2 k) s = .next (finish s u)
          ∧ let y := embUpdate ((s.dx k).emb (fun e => e.setWindow { (e.window (t.f 24 0 8) (t.f 26 0 16) (s.actOf k).isSome) with stage2 := true }))
            Worked s u k (if (s.dx k).held y then (s.dx k, false) else (y, true)))
        ∧ (stage2Ready (s.dx k) (t.f 24 0 8) (t.f 26 0 16) = false → exec (.updateWindowStage2 k) s = .next (finish s s)))

/-- Messages to the gather engine (of R314, R315, R324 to R326, R333, R334, R336) at a device that serves: each is served as the node it names and changes only the machine below
the strands, or waits while an emergency stop holds the engine or one before it waits (R664); a group's partial goes to the strand that waits for it; an acknowledgement counts at
the node that sent the contribution and is passed on by a forwarder; a selection of migrations follows a window boundary once; a verdict replaces an older one and lets an EMB_SYNC
that waits for it go on. -/
def Obligations.EmbeddingMessages : Prop :=
  ∀ (s : State) (dst : Nat), s.serves = true →
    let x := s.dev s.embQ (s.serveAs dst)
    let own := s.dev s.embQ (s.serveAs s.core.node)
    let waits (c : Instr) (m : Msg) : Prop := s.Blocked m → exec c s = .next (finish s (s.on (fun c => { c with inbox := c.inbox ++ [m] })))
    let served (c : Instr) (b : Body) (src : Option Nat) (y : Dx) : Prop := let m : Msg := { dst := dst, wadi := 0, body := b, src := src }
      (s.Takes m → ∃ u, exec c s = .next (finish s u) ∧ Served s u y) ∧ waits c m
    let done (c : Instr) (y : Dx) : Prop := ∃ u, exec c s = .next (finish s u) ∧ Served s u y
    (∀ r, served (.embLookupRequest dst r) (.embRequest r) none (embServeReq x r))
    ∧ (∀ src serve r vals poison, served (.embLookupAnswer dst src (.row serve r vals poison)) (.embAnswer (.row serve r vals poison)) (some src) (rowIn x serve r vals poison))
    ∧ (∀ src node k g n d v p, let a : EmbAns := .group node k g n d v p
        let m : Msg := { dst := dst, wadi := 0, body := .embAnswer a, src := some src }
        waits (.embLookupAnswer dst src a) m ∧ (s.Takes m → s.strandFor k dst = true → (s.strand k).phase = .busy →
          ∃ u, exec (.embLookupAnswer dst src a) s = .next (finish s u) ∧ Worked s u k (lookupAnswer (s.dx k) k src a)))
    ∧ (∀ g, served (.embBagGradient dst g) (.bagGrad g) none (expandGrad x g))
    ∧ (∀ c, served (.embContribution dst c) (.contrib c) none (contribIn x c))
    ∧ (∀ src table tag, served (.embFlush dst src table tag) (.embFlush table tag) (some src) (x.emb (fun e =>
        let w := e.window table tag x.c.actAs.isSome; e.setWindow { w with flushes := insN w.flushes src })))
    ∧ (∀ src table tag, served (.embForwardFlush dst src table tag) (.forwardFlush table tag) (some src) (x.emb (fun e =>
        let w := e.window table tag x.c.actAs.isSome; e.setWindow { w with forwards := insN w.forwards src })))
    ∧ (∀ table tag n, x.c.isMe n = true → served (.embContributionAck dst table tag [n]) (.contribAck table tag [n]) none (x.emb (fun e =>
        let w := e.window table tag (n != x.c.node); e.setWindow { w with unacked := w.unacked - 1 })))
    ∧ (∀ table tag f n rest, x.c.isMe n = false ∨ rest ≠ [] →
        served (.embContributionAck dst table tag (f :: n :: rest)) (.contribAck table tag (f :: n :: rest)) none (x.send n 13 (.contribAck table tag (n :: rest))))
    ∧ (∀ mean low, (s.core.emb.selDue = true → done (.migrationSelect mean low) (migrationSelect own mean low))
        ∧ (s.core.emb.selDue = false → exec (.migrationSelect mean low) s = .next (finish s s)))
    ∧ (∀ m, served (.migrationCopy dst m) (.migCopy m) none (migrationCopy x m))
    ∧ (∀ table r slot, served (.migrationCopyAck dst table r slot) (.migCopyAck table r slot) none (migrationAck x table r slot))
    ∧ (∀ n, served (.migrationNotice dst n) (.migNotice n) none (x.emb (fun e => { e with notes := e.notes ++ [n] })))
    ∧ (∀ table r, done (.forwardEnd table r) (forwardEnd own table r))
    ∧ (∀ table r ok,
        let kept := s.core.emb.verdicts.filter (fun v => !(v.1 == table && v.2.1 == r))
        let s1 : State := s.on (fun c => { c with emb := { c.emb with verdicts := kept ++ [(table, r, ok)] } })
        ((∀ k, k < 64 → ¬((s.strand k).op = 0x33 ∧ (s.strand k).phase = .busy)) → exec (.migrationVerdict table r ok) s = .next (finish s s1))
        ∧ (∀ k, k < 64 → (s.strand k).op = 0x33 → (s.strand k).phase = .busy → (∀ j, j < 64 → j ≠ k → ¬((s.strand j).op = 0x33 ∧ (s.strand j).phase = .busy)) →
            ∃ u, exec (.migrationVerdict table r ok) s = .next (finish s u)
              ∧ Worked s1 u k (if verdictsIn (s1.dx k) then (syncFinish (s1.dx k) (s.core.reg Reg.jobStep), true) else (s1.dx k, false))))

/-! ### Lane processors -/

/-- Launches on the lane processors (of R345 to R347, R353, R359, R363 to R370, R375): a launch stands open with no group dispatched, or is done at once with no groups or a
faulty quarter; a group is dispatched to the next processor with room, with the registers of R347; deferred adds are applied once no group is left, and complete the
launch; LANE_SAVE ends the launch it saves; LANE_RESTORE runs on its image; a reserved opcode stops the group and ends the launch with 0x20. -/
def Obligations.LaneLaunches : Prop :=
  (∀ (s : State) (k : Nat),
    let t := s.strand k
    (s.engineRun k 0x50 = true → s.core.lanesFaulty (s.quarter k) = false → t.f 28 0 24 ≠ 0 → ∃ u r, exec (.laneLaunch k) s = .next (finish s u) ∧ (u.strand k).phase = .busy
        ∧ u.core.lanes = s.core.lanes ++ [r] ∧ r.strand = k ∧ r.quarter = s.quarter k ∧ r.desc = t.desc ∧ r.resident = [] ∧ r.saved = [] ∧ r.next = 0 ∧ r.adds = []
        ∧ u.core.mem = s.core.mem)
    ∧ (s.engineRun k 0x50 = true → s.core.lanesFaulty (s.quarter k) = true → ∃ u, exec (.laneLaunch k) s = .next (finish s u) ∧ (u.strand k).phase = .done
        ∧ 0x40 ≤ (u.strand k).comp.status ∧ u.core.lanes = s.core.lanes)
    ∧ (∀ r p, s.live = true → s.pwr.emergency = false → t.phase = .busy → s.core.launch? k = some r → s.core.nextProc r = some p → r.left = true →
        s.core.dispatchOpen r p = true → (s.askUnit (unitLane r.quarter p) k).2 = true → ∃ u, exec (.groupDispatch k) s = .next (finish s u)
          ∧ Worked s u k (groupDispatch (s.dx k)))
    ∧ (∀ r, s.live = true → s.pwr.emergency = false → t.phase = .busy → s.core.launch? k = some r → r.resident = [] → r.left = false →
        ∃ u, exec (.deferredAddApply k) s = .next (finish s u) ∧ Worked s u k (deferredApply (s.dx k)) ∧ (u.strand k).phase = .done ∧ u.core.launch? k = none)
    ∧ (∀ r, s.engineRun k 0x51 = true → s.core.launch? (t.f 24 0 6) = some r → t.f 24 0 6 ≠ k → t.f 24 0 6 < s.ctl.strands.length →
        ∃ u, exec (.laneSave k) s = .next (finish s u) ∧ (u.strand k).phase = .done ∧ u.core.launch? (t.f 24 0 6) = none
          ∧ (u.strand (t.f 24 0 6)).phase = .done ∧ 0x20 ≤ (u.strand (t.f 24 0 6)).comp.status ∧ (u.strand (t.f 24 0 6)).comp.cancelled = true)
    ∧ (s.engineRun k 0x51 = true → s.core.launch? (t.f 24 0 6) = none → ∃ u, exec (.laneSave k) s = .next (finish s u) ∧ Ran s u k ((laneSave (s.dx k)).1, true))
    ∧ (s.engineRun k 0x52 = true → ∃ u, exec (.laneRestore k) s = .next (finish s u) ∧ Ran s u k (laneRestore (s.dx k)))
    ∧ (∀ gi r g w, s.live = true → s.pwr.emergency = false → t.phase = .busy → laneNext (s.dx k) gi = some (r, g, w) → w.reserved = true →
        ∃ u, exec (.laneReservedOpcode k gi) s = .next (finish s u) ∧ (u.strand k).phase = .done ∧ 0x20 ≤ (u.strand k).comp.status ∧ u.core.launch? k = none
          ∧ u.core.fld (Reg.laneFault r.quarter) 1 2 = 3))
  ∧ (∀ (r : LaneRun) (g p : Nat), let n := r.newGroup g p
      sget 0 n.s 0 = g ∧ sget 0 n.s 1 = r.groups ∧ sget 0 n.s 2 = r.off 36 ∧ sget 0 n.s 3 = (r.off 40 + g * r.scratch) % 2 ^ 32 ∧ (∀ i, 4 ≤ i → sget 0 n.s i = 0)
        ∧ n.active = 0xFFFFFFFF ∧ n.exited = 0 ∧ n.flags = 0 ∧ n.pc = 0 ∧ n.stack = [] ∧ (∀ t, t < 32 → sfind n.v t = some t))

/-- Every lane instruction issues (of R351, R363, R373, R375): when the next word of a resident group is the operation of the command's row, the group runs it, counted as one
issue, and goes on, exits or stops by the fetch step that follows. One or two failed checks rerun it: its status is at least 0x10, its RETRIES at least their number. A third
failure runs nothing: the launch ends with at least 0x40 and the quarter's lane processors are faulty. -/
def Obligations.LaneIssues : Prop :=
  ∀ (s : State) (k gi : Nat) (r : LaneRun) (g : LaneGroup) (w : LWord) (c : Nat → Nat → Nat → Instr) (grp op : Nat), (c, grp, op) ∈ laneRows →
    Issues s k gi r g w grp op →
      (∀ fails, fails < 3 → ∃ u, exec (c k gi fails) s = .next (finish s u) ∧ Issued s u k r g w fails)
      ∧ (∀ fails, 0 < fails → fails < 3 → 0x10 ≤ (laneStart s k r g fails).x.comp.status ∧ fails ≤ (laneStart s k r g fails).x.comp.retries)
      ∧ (∀ fails, 3 ≤ fails → ∃ u, exec (c k gi fails) s = .next (finish s u) ∧ (u.strand k).phase = .done ∧ 0x40 ≤ (u.strand k).comp.status ∧ u.core.launch? k = none
          ∧ u.core.lanesFaulty r.quarter = true)

/-- R384: the operations of groups 1 and 9 are the 32-bit operations of the table (addition, subtraction, low product, multiply-accumulate and high product; bitwise
operations; shifts by the low five bits of b; signed minimum and maximum; the count of ones; IMM inserted in bits [31:16]; the second source), whatever FMT and RND hold. In
group 1 each enabled thread's V register takes the operation of that thread's V registers; in group 9 the S register takes the operation of S registers, once for the group
when a thread is enabled. Every other register, and everything outside the registers of that class, is unchanged. -/
def Obligations.LaneIntegers : Prop :=
  (∀ (l : Lx) (i : LWord),
    (∀ r t, t < 32 → (laneInt l i).v r t = if (l.enabled i).testBit t ∧ l.vname r = l.vname i.dst
        then intOp i.op (l.v i.s1 t) (l.ib i t) (l.v i.s3 t) (l.v i.dst t) i.imm % 2 ^ 32 else l.v r t)
    ∧ laneInt l i = { l with g := { l.g with v := (laneInt l i).g.v } }
    ∧ (∀ r, (laneScalar l i).s r = if l.enabled i ≠ 0 ∧ r % 32 = i.dst % 32
        then intOp i.op (l.s i.s1) (if i.k = 2 then i.simm else l.s i.s2) (l.s i.s3) (l.s i.dst) i.imm % 2 ^ 32 else l.s r)
    ∧ laneScalar l i = { l with g := { l.g with s := (laneScalar l i).g.s } }
    ∧ (i.grp = 1 → ∀ t, l.ib i t = if i.k = 1 then l.s i.s2 else if i.k = 2 then i.simm else l.v i.s2 t))
  ∧ (∀ (a b c d : BitVec 32) (i : BitVec 16), let op (n : Nat) : Nat := intOp n a.toNat b.toNat c.toNat d.toNat i.toNat
    op 0 = (a + b).toNat ∧ op 1 = (a - b).toNat ∧ op 2 = (a * b).toNat ∧ op 3 = (a * b + c).toNat ∧ op 4 = a.toNat * b.toNat / 2 ^ 32
    ∧ op 5 = (a &&& b).toNat ∧ op 6 = (a ||| b).toNat ∧ op 7 = (a ^^^ b).toNat ∧ op 8 = (a <<< (b.toNat % 32)).toNat ∧ op 9 = (a >>> (b.toNat % 32)).toNat
    ∧ op 10 = (a.sshiftRight (b.toNat % 32)).toNat ∧ op 11 = (if a.toInt ≤ b.toInt then a else b).toNat ∧ op 12 = (if a.toInt ≤ b.toInt then b else a).toNat
    ∧ op 13 = ((List.range 32).filter (fun j => a.getLsbD j)).length ∧ op 14 = ((d &&& 0xFFFF#32) ||| (i.zeroExtend 32 <<< 16)).toNat ∧ op 15 = b.toNat)

/-- What floating-point instructions leave (of R378, R380 to R383, R385): each enabled thread's destination, a register or an FP64 pair, takes the rounded result of its own sources;
other vector registers keep their values; the exception word gains exactly the flags that enabled threads raise; ABS and NEG change the sign bit alone. -/
def Obligations.LaneFloats : Prop :=
  (∀ (l : Lx) (i : LWord), let rnd := (l.round i (decide (i.op ≤ 6))).2
    (i.fmt ≠ 0 → i.op ≤ 10 → ∀ r t, t < 32 → (laneArith l i).v r t = if (l.enabled i).testBit t ∧ l.vname r = l.vname i.dst
        then (arith i.op 1 (rnd.at_ false t) (l.v i.s1 t) (l.fb i t) (l.v i.s3 t)).1 % 2 ^ 32 else l.v r t)
    ∧ (11 ≤ i.op → ∀ r t, t < 32 → (laneArith l i).v r t = if (l.enabled i).testBit t ∧ l.vname r = l.vname i.dst then (transc i.op (l.v i.s1 t)).1 % 2 ^ 32 else l.v r t)
    ∧ (i.fmt = 0 → i.op ≤ 10 → ∀ t, t < 32 → (l.enabled i).testBit t = true → let x := (arith i.op 0 (rnd.at_ false t) (l.w i.s1 t) (l.fb i t) (l.w i.s3 t)).1
        (i.dst < l.run.vregs → (laneArith l i).w i.dst t = x % 2 ^ 64) ∧ (l.run.vregs ≤ i.dst → (laneArith l i).v 0 t = x / 2 ^ 32 % 2 ^ 32))
    ∧ (∀ j, (laneArith l i).g.flags.testBit j = (l.g.flags.testBit j || (l.threads i).any (fun t =>
        (if 11 ≤ i.op then transc i.op (l.v i.s1 t) else arith i.op i.ffmt (rnd.at_ false t) (l.fsrc i i.s1 t) (l.fb i t) (l.fsrc i i.s3 t)).2.testBit j))))
  ∧ (∀ (r : Rnd) (a b c : Nat), a < 2 ^ 32 → (arith 9 1 r a b c) = (a % 2 ^ 31, 0) ∧ arith 10 1 r a b c = (a ^^^ 2 ^ 31, 0))
  ∧ (∀ (r : Rnd) (a b c : Nat), a < 2 ^ 64 → (arith 9 0 r a b c) = (a % 2 ^ 63, 0) ∧ arith 10 0 r a b c = (a ^^^ 2 ^ 63, 0))

/-- What compares, select and predicate instructions leave (of R390): an enabled thread's bit of the destination predicate takes the relation, other bits and predicates are
unchanged, and so are the vector and scalar registers; SEL gives each enabled thread a or b by its bit of the predicate that SRC3 names; P2S and S2P copy a predicate and a
scalar whole. How a predicate operation reads K = 1 and 2, and the width of SEL's immediate, are the model's choice, log entry 106. -/
def Obligations.LaneCompares : Prop :=
  ∀ (l : Lx) (i : LWord), l.g.p.length = 8 →
    let puts (rel : Nat → Bool) : Prop := (∀ t, t < 32 → ((laneCmp l i).p i.dst).testBit t = if (l.enabled i).testBit t then rel t else (l.p i.dst).testBit t)
      ∧ (∀ r, r % 8 ≠ i.dst % 8 → (laneCmp l i).p r = l.p r) ∧ (laneCmp l i).g.v = l.g.v ∧ (laneCmp l i).g.s = l.g.s ∧ (laneCmp l i).x = l.x
    let x (t : Nat) : Fp := decodeBits i.ffmt (l.fsrc i i.s1 t)
    let y (t : Nat) : Fp := decodeBits i.ffmt (l.fb i t)
    let un (t : Nat) : Bool := x t == .nan || y t == .nan
    let q : Nat := if i.k = 1 then l.is i else if i.k = 2 then i.simm else l.p i.s2
    let b (t : Nat) : Nat := if i.k = 1 then (if i.fmt = 0 then l.sw i.s2 else l.s i.s2) else if i.k = 2 then i.simm else l.fsrc i i.s2 t
    let sel (t : Nat) : Nat := if (l.p i.s3).testBit t then l.fsrc i i.s1 t else b t
    (i.op = 0 → puts (fun t => !un t && Fp.eq (x t) (y t))) ∧ (i.op = 1 → puts (fun t => !un t && Fp.lt (x t) (y t)))
    ∧ (i.op = 2 → puts (fun t => !un t && Fp.le (x t) (y t))) ∧ (i.op = 3 → puts (fun t => un t || !Fp.eq (x t) (y t))) ∧ (i.op = 4 → puts un)
    ∧ (i.op = 5 → puts (fun t => l.v i.s1 t == l.ib i t)) ∧ (i.op = 6 → puts (fun t => decide (toSigned 32 (l.v i.s1 t) < toSigned 32 (l.ib i t))))
    ∧ (i.op = 7 → puts (fun t => decide (l.v i.s1 t < l.ib i t)))
    ∧ (i.op = 8 → i.fmt ≠ 0 → ∀ r t, t < 32 → (laneCmp l i).v r t = if (l.enabled i).testBit t ∧ l.vname r = l.vname i.dst then sel t % 2 ^ 32 else l.v r t)
    ∧ (i.op = 8 → i.fmt = 0 → i.dst < l.run.vregs → ∀ t, t < 32 → (l.enabled i).testBit t = true → (laneCmp l i).w i.dst t = sel t % 2 ^ 64)
    ∧ (i.op = 8 → laneCmp l i = { l with g := { l.g with v := (laneCmp l i).g.v } })
    ∧ (i.op = 9 → puts (fun t => (l.p i.s1).testBit t && q.testBit t)) ∧ (i.op = 10 → puts (fun t => (l.p i.s1).testBit t || q.testBit t))
    ∧ (i.op = 11 → puts (fun t => (l.p i.s1).testBit t != q.testBit t)) ∧ (i.op = 12 → puts (fun t => (l.p i.s1).testBit t && !q.testBit t))
    ∧ (i.op = 13 → ∀ r, (laneCmp l i).s r = if l.enabled i ≠ 0 ∧ r % 32 = i.dst % 32 then l.p i.s1 % 2 ^ 32 else l.s r)
    ∧ (i.op = 14 → ∀ r, (laneCmp l i).p r = if l.enabled i ≠ 0 ∧ r % 8 = i.dst % 8 then l.s i.s1 % 2 ^ 32 else l.p r)

/-- Control and divergence (of R353, R399, R400): a branch that all or none of the active threads take moves the index; one that splits them pushes the pending threads over the
reconvergence entry, whose indexes are of 22 bits (R342), or joins the pending entry on top, and stops the group where the stack would pass 64 entries; JMP, JMPS, EXIT and the exception word act as the table says;
the fetch that follows ends with threads active away from their reconvergence index, or with the group's exit. -/
def Obligations.LaneControl : Prop :=
  (∀ (l : Lx) (i : LWord), i.grp = 8 →
    let g := l.g
    let target := laneTarget g.pc (toSigned 16 i.imm)
    let back := laneReturn g.pc (toSigned 14 (field i.w 26 14))
    let next := (g.pc + 1) % 2 ^ 22
    let t := g.active &&& l.p i.pred
    let rest := g.active &&& (t ^^^ 0xFFFFFFFF)
    let becomes (h : LaneGroup) : Prop := laneCtl l i = some { l with g := h }
    (i.op = 0 → t = g.active → becomes { g with pc := target })
    ∧ (i.op = 0 → t ≠ g.active → t = 0 → becomes { g with pc := g.pc + 1 })
    ∧ (i.op = 0 → t ≠ g.active → t ≠ 0 → (∀ m m2 st, g.stack = (1, m, next) :: (0, m2, back) :: st → becomes { g with stack := (1, m ||| rest, next) :: (0, m2, back) :: st, active := t, pc := target })
        ∧ ((∀ m m2 st, g.stack ≠ (1, m, next) :: (0, m2, back) :: st) →
            (g.stack.length ≤ 62 → becomes { g with stack := (1, rest, next) :: (0, g.active, back) :: g.stack, active := t, pc := target })
            ∧ (62 < g.stack.length → laneRunWord l i = (l, .stops 1))))
    ∧ (i.op = 1 → becomes { g with pc := target }) ∧ (i.op = 2 → becomes { g with pc := l.s i.s1 % 2 ^ 22 })
    ∧ (i.op = 3 → becomes { g with exited := g.exited ||| t, active := g.active &&& ((g.exited ||| t) ^^^ 0xFFFFFFFF), pc := g.pc + 1 })
    ∧ (i.op = 4 → becomes { g with pc := g.pc + 1 })
    ∧ (i.op = 5 → ∃ m, laneCtl l i = some m ∧ m.g.pc = g.pc + 1 ∧ ∀ r, m.s r = if t ≠ 0 ∧ r % 32 = i.dst % 32 then g.flags % 2 ^ 32 else l.s r)
    ∧ (i.op = 6 → becomes { g with pc := g.pc + 1, flags := if t = 0 then g.flags else g.flags &&& (i.imm % 32 ^^^ 0xFFFFFFFF) }))
  ∧ (∀ (g : LaneGroup), g.stack.length ≤ 64 → let r := laneFetch 130 g
      (r.2 = .goes → r.1.active ≠ 0 ∧ ∀ e, r.1.stack.find? (fun e => e.1 == 0) = some e → e.2.2 ≠ r.1.pc) ∧ (r.2 = .exits → r.1.active = 0 ∧ r.1.stack = [])
      ∧ r.2 ≠ .stops 1 ∧ r.1.exited = g.exited ∧ r.1.v = g.v ∧ r.1.s = g.s)

/-- Lane memory and cross-lane instructions (of R354, R391 to R397): a store by threads that all point outside the job's own memory writes nothing, and a load there writes 0; SHFL
gives each enabled thread the source of the thread its index names; VOTE gathers the enabled threads whose source is not zero; the draw of group 6 is the position-keyed one. -/
def Obligations.LaneMemoryAndCross : Prop :=
  ∀ (l : Lx) (i : LWord),
    (∀ erg, i.fmt ≠ 7 → (∀ t ∈ l.threads i, l.mine (l.addr i erg false t / laneWidth i.fmt * laneWidth i.fmt) (laneWidth i.fmt) = false) →
      (laneStore l i erg).x.c.mem = l.x.c.mem ∧ (laneStore l i erg).x.c.dram = l.x.c.dram ∧ (laneStore l i erg).g = l.g
      ∧ (i.fmt ≠ 0 → ∀ t, t < 32 → (l.enabled i).testBit t = true → (laneLoad l i erg).v i.dst t = 0)
      ∧ (laneLoad l i erg).x.c.mem = l.x.c.mem)
    ∧ (i.op = 0 → i.fmt ≠ 0 → ∀ r t, t < 32 → (laneCross l i).v r t = if (l.enabled i).testBit t ∧ l.vname r = l.vname i.dst then l.v i.s1 (l.ib i t % 32) % 2 ^ 32 else l.v r t)
    ∧ (i.op = 10 → i.fmt ≠ 0 → l.enabled i ≠ 0 → ∀ t, t < 32 → ((laneCross l i).s i.dst).testBit t = ((l.enabled i).testBit t && l.v i.s1 t != 0))
    ∧ (i.op = 0 → i.dst < l.run.vregs → ∀ t, t < 32 → (l.enabled i).testBit t = true →
        (laneDraws l i).w i.dst t = pk l.run.key (i.imm * 2 ^ 48 + l.w i.s1 t % 2 ^ 48) % 2 ^ 64)
    ∧ (i.op = 3 → l.g.p.length = 8 → ∀ t, t < 32 → ((laneDraws l i).p i.dst).testBit t = if (l.enabled i).testBit t then decide (l.w i.s1 t / 2 ^ 32 < l.ib i t) else (l.p i.dst).testBit t)

/-! ### Training support, copies, collectives -/

/-- Training descriptors, random numbers and copies (of R423 to R431, R447 to R450, R473 to R476): RNG_ROUND sets the strand's rounding context, a transaction member's at its completion, and nothing else in the machine;
RNG_DERIVE writes the derived key; RNG_LANE_SEED seeds every lane of its quarter, or waits for resident groups; the others run on their engine once the ramp limiter admits it.
A transfer with the host while Bus Master Enable is 0 ends with 0x20. -/
def Obligations.TrainingDescriptors : Prop :=
  ∀ (s : State) (k : Nat),
    let t := s.strand k
    let q := s.quarter k
    let key := if t.f 24 0 2 = 0 then t.f 40 0 64 else kd (t.f 40 0 64) 0xFFFD ((t.f 28 0 32 + if t.f 24 2 1 = 1 then t.steps else 0) % 2 ^ 32)
    let runs (c : Instr) (op : Nat) (us : List Nat) (y : Dx × Bool) : Prop := s.engineRun k op = true → s.Admits us k → ∃ u, exec c s = .next (finish s u) ∧ Ran s u k y
    let named := if t.f 24 4 3 ≥ 5 then 1 else t.f 24 4 3
    let rounds (u : State) : Prop := (u.strand k).rkey = BitVec.ofNat 64 key ∧ (u.strand k).rstream = BitVec.ofNat 16 (t.f 26 0 16) ∧ (u.strand k).rpos = BitVec.ofNat 48 (t.f 32 0 48)
        ∧ u.core = { s.core with actAs := none }
    (s.engineRun k 0x80 = true → ∃ u, exec (.rngRound k) s = .next (finish s u) ∧ (u.strand k).phase = .done ∧ u.core = { s.core with actAs := none }
        ∧ (t.txn? = none → rounds u)
        ∧ (t.txn?.isSome = true → (u.strand k).rkey = t.rkey ∧ (u.strand k).rstream = t.rstream ∧ (u.strand k).rpos = t.rpos))
    ∧ (t.op = 0x80 → t.txn?.isSome = true → t.tStart.isSome = true → t.comp.status < 0x20 → t.comp.cancelled = false → rounds (s.completeWork k))
    ∧ runs (.rngDerive k) 0x81 [] ((s.dx k).write (t.f 32 0 48 / 8 * 8) (leBytes 8 key), true)
    ∧ runs (.rngFill k) 0x82 [] (rngFill (s.dx k), true)
    ∧ (s.engineRun k 0x83 = true → s.core.residentGroups q = 0 → ∃ u, exec (.rngLaneSeed k) s = .next (finish s u) ∧ (u.strand k).phase = .done
        ∧ (∀ unit lane, unit < 134 → lane < 32 → let v := kd (t.f 40 0 64) 0xFFFA (laneKey q unit lane) % 2 ^ 32
            laneState u.ctl.lfsr (laneKey q unit lane) = if v = 0 then 1 else v))
    ∧ (s.engineRun k 0x83 = true → s.core.residentGroups q ≠ 0 → ∃ u, exec (.rngLaneSeed k) s = .next (finish s u) ∧ (u.strand k).phase = .busy
        ∧ (∃ h ∈ u.core.laneSeed, h.2 = k) ∧ u.ctl.lfsr = s.ctl.lfsr)
    ∧ runs (.actStash k) 0x7E [unitDma q] (actStash (s.dx k) s.host.bme s.host.mps)
    ∧ runs (.actFetch k) 0x7F [unitDma q] (actFetch (s.dx k) s.host.bme s.host.mrrs)
    ∧ (∀ c op, (c, op) ∈ [(Instr.actStash k, 0x7E), (Instr.actFetch k, 0x7F)] → s.engineRun k op = true → s.Admits [unitDma q] k → t.f 24 0 2 = 2 → s.host.bme = false →
        ∃ u, exec c s = .next (finish s u) ∧ (u.strand k).phase = .done ∧ 0x20 ≤ (u.strand k).comp.status ∧ u.core.stash = s.core.stash ∧ u.core.mem = s.core.mem)
    ∧ runs (.copy k) 0x70 [unitDma q] (dmaCopy (s.dx k), true) ∧ runs (.fill k) 0x71 [unitDma q] (dmaFill (s.dx k), true)
    ∧ runs (.skew k) 0x73 [unitDma q] (dmaSkew (s.dx k), true)
    ∧ (named = 0 → runs (.prefetch k) 0x72 [unitDma q] (cachePrefetch (s.dx k), true)) ∧ (named = 1 → runs (.writeback k) 0x72 [unitDma q] (cacheWriteback (s.dx k), true))
    ∧ (named = 2 → runs (.discard k) 0x72 [unitDma q] (cacheDiscard (s.dx k), true)) ∧ (named = 3 → runs (.unpin k) 0x72 [unitDma q] (cacheUnpin (s.dx k), true))
    ∧ (named = 4 → runs (.setHint k) 0x72 [unitDma q] (cacheSetHint (s.dx k), true))

/-- Messages of training support (of R426, R427, R430, R431): an announcement is kept, with VALID while the pair is formed, and raises SPARE_CHANGE when the register changes;
the twin's transfers are served on this device's spare area and answered to the twin; answers go on with the transfer of the strand they name. -/
def Obligations.TrainingMessages : Prop :=
  ∀ s : State,
    (∀ n, s.serves = true → let v := n % 65536 + if s.core.pair = 2 ∨ s.core.pair = 5 then 65536 else 0
      ∃ u, exec (.spareAnnounce n) s = .next (finish s u) ∧ u.core.reg Reg.trnTwinSpare = v ∧ u.core.mem = s.core.mem ∧ u.ctl = s.ctl
        ∧ (s.core.reg Reg.trnTwinSpare ≠ v → (u.core.reg 0x8010).testBit 1 = true))
    ∧ (∀ r, s.serves = true → ∃ u b, exec (.twinStashTransfer r) s = .next (finish s u) ∧ Served s u (twinStash (s.dev 0 none) r)
      ∧ u.core.out.getLast? = some b ∧ b.dst = s.core.twin ∧ b.wadi = 14)
    ∧ (∀ k n, s.serves = true → (s.strand k).phase = .busy → ∃ u, exec (.stashAnswer (.ack k n)) s = .next (finish s u) ∧ Worked s u k (stashAnswer (s.dx k) (.ack k n)))
    ∧ (∀ k off bs p, s.serves = true → (s.strand k).phase = .busy → ∃ u, exec (.stashAnswer (.data k off bs p)) s = .next (finish s u)
      ∧ Worked s u k (stashAnswer (s.dx k) (.data k off bs p)))
    ∧ (∀ k off bs bad, s.live = true → (s.strand k).phase = .busy → ∃ u, exec (.hostReadCompletion k off bs bad) s = .next (finish s u)
      ∧ Worked s u k (hostReadDone (s.dx k) s.host.mrrs off bs bad))

/-- Collectives (of R558 to R567, R585 to R589, R599): one starts on its quarter while fewer than 16 are open there, and waits otherwise; a reduction of an older epoch is done with
0x20 and opens none; a packet goes on with the open collective of its GROUP and TAG, or, before that or during an emergency stop, is parked while its quarter's area has room, which frees the
receive buffer, and else stays there and holds its credits; an abort packet ends it with at least 0x50, or is kept for one that has not started; an acknowledgement counts for PERMUTE. -/
def Obligations.Collectives : Prop :=
  (∀ (s : State) (k : Nat) (c : Nat → Instr) (op : Nat),
    (c, op) ∈ [(Instr.allreduce, 0x60), (Instr.reduceScatter, 0x61), (Instr.allgather, 0x62), (Instr.broadcast, 0x63), (Instr.permute, 0x64), (Instr.alltoall, 0x65)] →
    s.engineRun k op = true →
      let older := isReduction op && epochOlder ((s.strand k).f 46 0 16) (s.core.fld Reg.jobEpoch 0 16)
      (16 ≤ collOpenCount s.core (s.quarter k) → exec (c k) s = .next (finish s s))
      ∧ (collOpenCount s.core (s.quarter k) < 16 → older = false → ∃ u, exec (c k) s = .next (finish s u) ∧ Ran s u k (collStart (s.dx k) op (s.strand k).det))
      ∧ (collOpenCount s.core (s.quarter k) < 16 → older = true → ∃ u, exec (c k) s = .next (finish s u) ∧ (u.strand k).phase = .done ∧ 0x20 ≤ (u.strand k).comp.status
          ∧ u.core.coll = s.core.coll ∧ u.core.mem = s.core.mem ∧ (u.core.reg 0x7010).testBit 8 = true ∧ ∀ j, j ≠ k → u.strand j = s.strand j))
  ∧ (∀ (s : State) (dst port : Nat) (p : CollPkt), s.serves = true →
    let slot := (s.core.takeArrived port p.wadi).2
    let came : State := { s with core := (s.core.takeArrived port p.wadi).1 }
    let s1 := came.on (fun c => c.freeHeld port p.wadi slot)
    (∀ r, collMatch s.core dst p.group p.tag = some r → s.pwr.emergency = false → (s.strand r.strand).phase = .busy → (collTake (s1.dx r.strand) r port p).1.c.stall = false →
      ∃ u, exec (.collectivePacket dst port p) s = .next (finish s u) ∧ Worked s1 u r.strand (collTake (s1.dx r.strand) r port p))
    ∧ (collMatch s.core dst p.group p.tag = none ∨ s.pwr.emergency = true →
      let room := ((s.core.coll.parked.filter (fun e => e.1 == port % 4)).map (fun e => parkBytes e.2.2)).sum + parkBytes p ≤ min (s.core.fld (Reg.collParkSize (port % 4)) 0 7) 64 * 2 ^ 20
      let keeps (u : State) : Prop := u.core.mem = s.core.mem ∧ u.core.regs = s.core.regs ∧ u.ctl = s.ctl
      (room → ∃ u, exec (.collectivePacket dst port p) s = .next (finish s u) ∧ u.core.coll = { s.core.coll with parked := s.core.coll.parked ++ [(port % 4, dst, p)] } ∧ keeps u
          ∧ ∀ cls n, slot = some (cls, n) → cls < 2 → port < s.core.seif.ports.length →
            sget 0 (u.core.port port).held (2 * p.wadi + cls) = sget 0 (s.core.port port).held (2 * p.wadi + cls) - n)
      ∧ (¬room → ∃ u, exec (.collectivePacket dst port p) s = .next (finish s u) ∧ u.core.coll =
            { s.core.coll with stuck := s.core.coll.stuck ++ [{ port := port, dst := dst, pkt := p, cls := (slot.getD (0, 0)).1, flits := (slot.getD (0, 0)).2 }] }
          ∧ keeps u ∧ (u.core.port port).held = (s.core.port port).held ∧ u.core.wire = s.core.wire)))
  ∧ (∀ (s : State) (dst group tag : Nat) (r : CollRun), s.serves = true → collMatch s.core dst group tag = some r → (s.strand r.strand).phase = .busy →
    (∃ u, exec (.collectiveAbort dst group tag) s = .next (finish s u) ∧ Worked s u r.strand (collAborted (s.dx r.strand) r, true) ∧ 0x50 ≤ (u.strand r.strand).comp.status)
    ∧ (r.op = 0x64 → ∀ bytes, ∃ u, exec (.permuteAck dst group tag bytes) s = .next (finish s u) ∧ Worked s u r.strand (permuteAck (s.dx r.strand) r bytes)))
  ∧ (∀ (s : State) (dst group tag : Nat), s.serves = true → collMatch s.core dst group tag = none →
    exec (.collectiveAbort dst group tag) s = .next (finish s (s.on (fun c => { c with coll :=
      { c.coll with aborts := c.coll.aborts.filter (fun e => e != (dst, group, tag)) ++ [(dst, group, tag)] } }))) ∧ ∀ bytes, exec (.permuteAck dst group tag bytes) s = .next (finish s s))

/-! ### The memory system -/

/-- Layout, interleave, LAST lines and merge windows (of R456, R462, R468, R501) on a live device: layouts and interleave modes change only while no strand runs; a change of a
group's mode flips its bit and leaves the group zero; a LAST line without uses or readers leaves the cache without write-back; an expired merge entry performs its write. -/
def Obligations.MemoryChanges : Prop :=
  ∀ s : State, s.live = true →
    (s.running = true → exec .layoutChange s = .next (finish s s) ∧ ∀ g, exec (.interleaveChange g) s = .next (finish s s))
    ∧ (s.running = false → exec .layoutChange s = .next (finish s (s.on (fun c => c.layoutDue.foldl Core.applyLayout c))))
    ∧ (∀ g, s.running = false → g < 96 → s.core.wantedIlv.getLsbD g ≠ s.core.ilv.getLsbD g →
        ∃ u, exec (.interleaveChange g) s = .next (finish s u) ∧ (∀ j, j < 96 → u.core.ilv.getLsbD j = if j = g then !s.core.ilv.getLsbD j else s.core.ilv.getLsbD j)
          ∧ (∀ a, g * 2 ^ 32 ≤ a → a < (g + 1) * 2 ^ 32 → sget 0 u.core.mem a = 0 ∧ sget 0 u.core.dram a = 0) ∧ g ∈ u.core.ilvFill ∧ u.ctl = s.ctl
          ∧ (s.core.lines = [] → s.core.merge = [] → u.core.ilvFill = insN s.core.ilvFill g
              ∧ ∀ a, a < g * 2 ^ 32 ∨ (g + 1) * 2 ^ 32 ≤ a → sget 0 u.core.mem a = sget 0 s.core.mem a))
    ∧ (∀ g, 96 ≤ g ∨ s.core.wantedIlv.getLsbD g = s.core.ilv.getLsbD g → exec (.interleaveChange g) s = .next (finish s s))
    ∧ (∀ g, exec (.interleaveFillEnd g) s = .next (finish s (s.on (fun c => { c with ilvFill := delN c.ilvFill g }))))
    ∧ (∀ a l, s.core.line? a = some l → l.hint = 3#2 → l.uses = 0 → l.users = [] →
        exec (.lastDrop a) s = .next (finish s (s.on (fun c => ((c.revert l).dropLine l.tag).inc (Reg.ergLastDrop l.quarter) 1))))
    ∧ (∀ a, (∀ l, s.core.line? a = some l → l.hint ≠ 3#2 ∨ l.uses ≠ 0 ∨ l.users ≠ []) → exec (.lastDrop a) s = .next (finish s s))
    ∧ (∀ a e, s.core.merge.find? (fun e => e.word == a / 8) = some e → exec (.mergeWindowExpire a) s = .next (finish s (s.on (fun c => c.closeMerge e))))

/-- Retraining (of R478 to R482) and the traffic generator (of R483) on a live device: a hidden retrain of a READY channel that is due measures its margin, and fails the channel
when more lanes fail than spares are left; a full retrain ends READY while spares suffice, or FAILED; MEM_RETRAIN_REQ and MEM_TG_CTRL act on the selected channel, ALL on every
READY one; TG_DONE ends the run and counts the words that mismatched: those without a cause in the cells, and for a run that reads every word whose cells differ from its pattern,
of the part that a stopped run has covered. -/
def Obligations.RetrainAndTraffic : Prop :=
  ∀ s : State, s.live = true →
    (∀ ch margin lanes, ch < 256 → margin < 256 →
        (s.core.chState ch = 2 → sget 0 s.core.hrtLast ch + s.core.hrtPeriod ch ≤ s.core.up → ∃ u, exec (.hiddenRetrain ch margin lanes) s = .next (finish s u)
          ∧ u.core.hrtLast = sset 0 s.core.hrtLast ch s.core.up ∧ u.core.fld (chKey ch Reg.memChState) 24 8 = margin ∧ u.core.mem = s.core.mem ∧ u.ctl = s.ctl
          ∧ u.core.chState ch = if 2 < lanes.length + s.core.fld (chKey ch Reg.memChState) 3 2 then 4 else 2)
        ∧ (s.core.chState ch ≠ 2 ∨ s.core.up < sget 0 s.core.hrtLast ch + s.core.hrtPeriod ch → exec (.hiddenRetrain ch margin lanes) s = .next (finish s s)))
    ∧ (∀ ch margin lanes, ch < 256 → s.core.chState ch = 3 → margin < 256 → ∃ u, exec (.fullRetrainEnd ch margin lanes) s = .next (finish s u)
        ∧ u.core.fld (chKey ch Reg.memChState) 24 8 = margin ∧ u.core.mem = s.core.mem ∧ u.ctl = s.ctl
        ∧ u.core.chState ch = if lanes ≠ [] ∧ 2 < lanes.length + s.core.fld (chKey ch Reg.memChState) 3 2 then 4 else 2)
    ∧ (∀ q word, q < 4 → word < 2 ^ 32 →
        let sel := s.core.fld (Reg.memChSel q) 0 6
        (∃ u, exec (.memRetrainReq q word) s = .next (finish s u) ∧ u.core.fld (bankKey sel (Reg.memRetrainReq q)) 0 1 = 1 ∧ u.core.mem = s.core.mem ∧ u.ctl = s.ctl)
        ∧ (∃ u, exec (.tgStart q word) s = .next (finish s u) ∧ u.core.mem = s.core.mem
            ∧ (s.core.chState (q * 64 + sel) = 2 ∨ s.core.chState (q * 64 + sel) = 3 → ∃ r ∈ u.core.tg, r.chan = q * 64 + sel ∧ r.stop = false))
        ∧ (∃ u, exec (.tgAll q word) s = .next (finish s u) ∧ u.core.mem = s.core.mem
            ∧ (∀ i, i < 64 → s.core.chState (q * 64 + i) = 2 → ∃ r ∈ u.core.tg, r.chan = q * 64 + i))
        ∧ (∃ u, exec (.tgStop q word) s = .next (finish s u) ∧ u.core.mem = s.core.mem
            ∧ u.core.tg = s.core.tg.map (fun r => if r.chan = q * 64 + sel then { r with stop := true } else r)))
    ∧ (∀ ch errors first lanes r, s.core.tg.find? (fun r => r.chan == ch) = some r → r.loops ≠ 0 ∨ r.stop = true →
        (∀ m ∈ s.core.remapBusy, ¬(m.chan = ch ∧ r.first ≤ m.row / 128 ∧ m.row / 128 ≤ r.last)) → ∃ u n, exec (.tgDone ch errors first lanes) s = .next (finish s u)
        ∧ n ≤ r.words ∧ (r.stop = false → n = r.words) ∧ (∀ x ∈ u.core.tg, x.chan ≠ ch) ∧ u.core.fld (chKey ch Reg.memTgStatus) 0 2 = 2 ∧ u.ctl = s.ctl
        ∧ u.core.fld (chKey ch Reg.memTgStatus) 16 16 =
            min (errors + if r.mode = 2 then ((List.range n).filter (fun i => s.core.tgDiff r i ≠ 0)).length else 0) 65535)

/-- Corrections, leaks, scrubbing and row repair (of R492, R493, R495, R504 to R514) on a live device: a queued correction is written and its word's cells are good again; every
unit's level loses 1 at a leak instant; a scrub lap ends with its time reported, and a slow one is flagged; an expired history entry goes; a failing row that a step boundary has
released is copied, unless its channel is quiesced, to a free spare or retired, and the end of the copy puts it in the remap table; the repair record of the table and the retirement list goes to a copy of the
flash when the flash takes it. -/
def Obligations.ErrorHandling : Prop :=
  ∀ s : State, s.live = true →
    (∀ a, place a = .dram → s.core.held a = false → (∃ w ∈ s.core.corrections, w / 8 = a / 64) →
        ∃ u, exec (.correctionWrite a) s = .next (finish s u) ∧ (∀ w ∈ s.core.corrections, w / 8 = a / 64 → sfind u.core.errs w = none)
          ∧ u.core.corrections = s.core.corrections.filter (fun w => w / 8 != a / 64) ∧ u.core.mem = s.core.mem ∧ u.core.regs = s.core.regs)
    ∧ (∀ a q o, place a = .erg q o → a / 8 ∈ s.core.corrections → ∃ u, exec (.ergCorrectionRewrite a) s = .next (finish s u) ∧ sfind u.core.errs (a / 8) = none
          ∧ (∀ w, w ≠ a / 8 → sfind u.core.errs w = sfind s.core.errs w) ∧ u.core.corrections = s.core.corrections.filter (fun w => w != a / 8) ∧ u.core.mem = s.core.mem)
    ∧ (∀ q base n, q < s.core.leakBase.length → nth (0, 0) s.core.leakBase q = (base, n) → base + (n + 1) * s.core.leakNs q ≤ s.core.up → ∃ u, exec (.bucketLeak q) s = .next (finish s u)
          ∧ nth (0, 0) u.core.leakBase q = (base, n + 1) ∧ (∀ x, x < 65 → u.core.fld (bankKey x (Reg.eccLevel q)) 0 16 = s.core.fld (bankKey x (Reg.eccLevel q)) 0 16 - 1))
    ∧ (∀ q n upset, exec (.scrubRead q n upset) s = .next (finish s (s.on (fun c => scrubRead c q n upset))))
    ∧ (∀ q n, q < 4 → n ≤ 64 → unitWords n ≤ (s.core.unit q n).scrubAt → ∃ u, exec (.scrubLapEnd q n) s = .next (finish s u)
          ∧ u.core.unit q n = { s.core.unit q n with scrubAt := 0, lapStart := s.core.up, slow := false, rateAt := (u.core.unit q n).rateAt }
          ∧ u.core.reg (bankKey n (Reg.eccLapLast q)) = (s.core.up - (s.core.unit q n).lapStart) / 10 ^ 6 % 2 ^ 32 ∧ u.core.mem = s.core.mem
          ∧ (s.core.fld (Reg.eccScrubTarget q) 31 1 = 1 → u.core.reg (Reg.eccScrub q) = s.core.reg (Reg.eccScrub q)))
    ∧ (∀ q n, q < 4 → n ≤ 64 → (s.core.unit q n).slow = false → (s.core.unit q n).lapStart + 4 * s.core.lapTarget q * 10 ^ 6 < s.core.up → ∃ u,
          exec (.lapSlow q n) s = .next (finish s u) ∧ u.core.unit q n = { s.core.unit q n with slow := true } ∧ (u.core.reg (qpage q 7 * 4096 + 0x10)).testBit 5 = true)
    ∧ (∀ q n, ∃ u, exec (.historyExpire q n) s = .next (finish s u)
          ∧ u.core.unit q n = { s.core.unit q n with history := (s.core.unit q n).history.filter (fun h => decide (s.core.up < h.2.2 + 600 * 10 ^ 9)) } ∧ u.core.regs = s.core.regs)
    ∧ (∀ ch bank row, (ch, bank, row) ∈ s.core.failing →
          (s.core.fld (Reg.eccCfg (ch / 64)) 8 1 = 1 ∨ s.core.chState ch = 3 ∨ s.running = true ∧ (ch, bank, row) ∉ s.core.failDue → exec (.rowRemap ch bank row) s = .next (finish s s))
          ∧ (s.core.fld (Reg.eccCfg (ch / 64)) 8 1 = 0 → s.core.chState ch ≠ 3 → s.running = false ∨ (ch, bank, row) ∈ s.core.failDue → ∃ u, exec (.rowRemap ch bank row) s = .next (finish s u)
            ∧ (ch, bank, row) ∉ u.core.failing ∧ u.ctl = s.ctl
            ∧ (s.core.remaps = [] → s.core.remapBusy = [] → ∃ m ∈ u.core.remapBusy, m.chan = ch ∧ m.bank = bank ∧ m.row = row ∧ m.spare = 0 ∧ m.bad = 0)))
    ∧ (∀ ch bank row m, s.core.remapBusy.find? (fun m => m.chan == ch && m.bank == bank && m.row == row) = some m → ∃ u, exec (.remapCopyEnd ch bank row) s = .next (finish s u)
          ∧ m ∈ u.core.remaps ∧ (∀ x ∈ u.core.remaps, x.chan = ch → x.bank = bank → x.row = row → x = m) ∧ u.core.repairDue = true)
    ∧ (s.core.repairDue = true → s.core.repair.length = 2 → (∃ u n, exec (.repairRecordWrite true) s = .next (finish s u) ∧ u.core.repairDue = false
            ∧ repairBytes { seq := n, remaps := s.core.remaps, retired := s.core.retired } ∈ u.core.repair ∧ (∃ old ∈ s.core.repair, old ∈ u.core.repair) ∧ u.core.mem = s.core.mem)
          ∧ ∃ u, exec (.repairRecordWrite false) s = .next (finish s u) ∧ u.core.repairDue = false ∧ u.core.repair = s.core.repair)

/-! ### Seif links -/

/-- What arrives on and leaves a port of an awake device (of R523, R524, R527, R530 to R537, R548): what arrives on the wavelengths is taken as the codeword that it lies at most 15
symbols from, and is else, or where a flit header fails its check, uncorrectable, takes in no flit and asks for a replay; a data flit in order advances the expected SEQ, is kept in
the receive buffer or passed on, and is acknowledged; a repeated packet is discarded and a new
one's HOPSEQ is kept; acknowledged flits leave the replay buffer; a NAK replays, and when eight replays have made no progress takes the port DOWN for reason 4; credits add up; heartbeats are kept
and sent; an abort-end discards its packet; SEIF_CREDIT keeps the sum of allotments within 8,192. -/
def Obligations.LinkTraffic : Prop :=
  (∀ w : Codeword, symbolErrors (stripe (codewordOf w)) (codewordOf w) = 0)
  ∧ ∀ (s : State) (p : Nat), s.awake = true → p < s.core.seif.ports.length →
    let x := s.core.port p
    let linkUp := s.core.portState p = 2 ∨ s.core.portState p = 4
    let msg (b : Body) : Msg := { dst := 0, wadi := 0, body := b, port := some p, loop := s.core.looped p }
    (linkUp → ∀ w waves, 15 < symbolErrors waves (codewordOf w) ∨ (∃ i, i < 5 ∧ (flitOf (flitHeader w.flits i)).hchk = false) → ∃ u, exec (.codewordReceive p w waves) s = .next (finish s u)
        ∧ (u.core.port p).rxSeq = x.rxSeq ∧ (u.core.port p).rxWait = true ∧ (u.core.port p).held = x.held ∧ u.core.wire = s.core.wire ++ [msg (.linkNak x.rxSeq)])
    ∧ (linkUp → ∀ w waves, symbolErrors waves (codewordOf w) ≤ 15 → let f := flitOf (flitHeader w.flits 0)
        let k := f.wadi * 2 + f.cls
        flitKind (flitHeader w.flits 0) = 1 → f.hchk = true → f.seq = x.rxSeq → x.rxSeq < 4096 →
        (∀ i, 1 ≤ i → i < 5 → (flitOf (flitHeader w.flits i)).hchk = true ∧ flitKind (flitHeader w.flits i) = 0) → ∃ u, exec (.codewordReceive p w waves) s = .next (finish s u)
        ∧ (u.core.port p).rxSeq = (x.rxSeq + 1) % 4096 ∧ (u.core.port p).rxWait = false ∧ u.core.wire.getLast? = some (msg (.linkAck x.rxSeq))
        ∧ (sget 0 (u.core.port p).held k = sget 0 x.held k ∨ sget 0 (u.core.port p).held k = sget 0 x.held k + 1)
        ∧ (f.sop = false → (∀ a, sfind x.asm f.wadi = some a → a.own = false ∧ a.kept < x.quota k / 2) →
            sget 0 (u.core.port p).held k = sget 0 x.held k + 1 ∧ u.core.wire = s.core.wire ++ [msg (.linkAck x.rxSeq)]))
    ∧ (¬linkUp → ∀ w waves, exec (.codewordReceive p w waves) s = .next (finish s s))
    ∧ (∀ m r, x.ready.find? (fun r => r.1 == m.wadi && r.2.n == packetFlits m.blocks) = some r →
        let g := portGroup (s.core.portRole p) * 16 + m.wadi
        ∃ u, exec (.packetReceive p m) s = .next (finish s u) ∧ m.hopseq ∈ sget [] u.core.seif.hopRx g
          ∧ (m.hopseq ∈ sget [] s.core.seif.hopRx g → u.core.seif.hopRx = s.core.seif.hopRx ∧ u.core.regs = s.core.regs ∧ u.core.out = s.core.out))
    ∧ (∀ seq a e rest, x.replay = (a, e) :: rest → (∃ r ∈ x.replay, r.1 = seq) →
        exec (.ack p seq) s = .next (finish s (s.on (fun c => (c.release p (fun n => seqAfter a seq n)).drainPort p))))
    ∧ (∀ seq, (∀ r ∈ x.replay, r.1 ≠ seq) → exec (.ack p seq) s = .next (finish s s) ∧ exec (.nak p seq) s = .next (finish s s))
    ∧ (∀ seq e rest, x.replay = (seq, e) :: rest → x.stallSeq = some seq → 8 ≤ x.stalls → ∃ u, exec (.nak p seq) s = .next (finish s u) ∧ u.core.portState p = 3
        ∧ u.core.fld (portKey p Reg.seifPortState) 3 4 = 4)
    ∧ (∀ seq, (∃ r ∈ x.replay, r.1 = seq) → ¬(x.stallSeq = some seq ∧ 8 ≤ x.stalls) → ∃ u, exec (.nak p seq) s = .next (finish s u) ∧ u.core.portState p = s.core.portState p
        ∧ (u.core.port p).stallSeq = some seq ∧ (u.core.port p).replay = x.replay.dropWhile (fun r => r.1 != seq))
    ∧ (∀ wadi cls n, wadi < 16 → cls < 2 → let k := wadi * 2 + cls
        exec (.credit p wadi cls n) s = .next (finish s (s.on (fun c => (c.setPort p (fun y => { y with credits := sset 0 y.credits k (sget 0 y.credits k + n) })).drainPort p)))
        ∧ (x.entries = [] → ∃ u, exec (.credit p wadi cls n) s = .next (finish s u) ∧ sget 0 (u.core.port p).credits k = sget 0 x.credits k + n ∧ u.core.regs = s.core.regs
            ∧ u.core.wire = s.core.wire))
    ∧ (∃ u, exec (.heartbeat p) s = .next (finish s u) ∧ u.core.port p = { x with lastHb := s.core.up } ∧ (∀ r, r ≠ p → u.core.port r = s.core.port r)
        ∧ u.core.regs = s.core.regs ∧ u.ctl = s.ctl)
    ∧ (linkUp → x.hbSent + 10000 ≤ s.core.up → ∃ u, exec (.heartbeatSend p) s = .next (finish s u) ∧ u.core.port p = { x with hbSent := s.core.up }
        ∧ u.core.wire = s.core.wire ++ [msg (.linkHeartbeat s.core.node p)])
    ∧ (∀ wadi, ∃ u, exec (.abortEnd p x.rxSeq wadi) s = .next (finish s u) ∧ (u.core.port p).rxSeq = (x.rxSeq + 1) % 4096 ∧ sfind (u.core.port p).asm wadi = none
        ∧ (u.core.port p).ready = x.ready)
    ∧ (∀ seq wadi, seq ≠ x.rxSeq → ∃ u, exec (.abortEnd p seq wadi) s = .next (finish s u) ∧ u.core.port p = { x with rxWait := true })
    ∧ (∀ k, ∃ u, exec (.unreachableNotice k) s = .next (finish s u) ∧ u = { s with core := { s.core with linkLost := insN s.core.linkLost k } })
    ∧ (∀ q word, s.live = true → q < 4 → word < 2 ^ 32 → p = 4 * s.core.fld (Reg.seifPortSel q) 0 3 + q →
        let k := word % 16 * 2 + word / 16 % 2
        let n := word / 2 ^ 16 % 2 ^ 13
        ∃ u, exec (.seifCredit q word) s = .next (finish s u)
          ∧ (x.allotSum - sget 256 x.allot k + n ≤ 8192 → sget 256 (u.core.port p).allot k = n)
          ∧ (8192 < x.allotSum - sget 256 x.allot k + n → u.core.seif = s.core.seif ∧ (u.core.reg (qpage q 8 * 4096 + 0x10)).testBit 3 = true))

/-- Port states of an awake device (of R522, R536, R551 to R553, R705): each loss takes an UP or MISWIRED port DOWN with its reason, and loss of light clears LIGHT_OK of its input's
ports; an enabled port trains again 10 ms later, at a RETRAIN write, or when its light returns; IDENT keeps the peer and finds a miswired one; training ends DOWN, or, once IDENT has arrived, MISWIRED or UP. -/
def Obligations.LinkStates : Prop :=
  ∀ (s : State) (p : Nat), s.awake = true → p < s.core.seif.ports.length → p < 32 →
    let key := portKey p Reg.seifPortState
    let x := s.core.port p
    let linkUp := s.core.portState p = 2 ∨ s.core.portState p = 4
    let down (c : Instr) (why : Nat) : Prop := ∃ u, exec c s = .next (finish s u) ∧ u.core.portState p = 3 ∧ u.core.fld key 3 4 = why
    let trains (c : Instr) : Prop := ∃ u, exec c s = .next (finish s u) ∧ u.core.portState p = 1 ∧ u.core.mem = s.core.mem
    (linkUp → x.lastHb + 40000 ≤ s.core.up → down (.heartbeatTimeout p) 1) ∧ (linkUp → down (.lossOfSignal p) 2) ∧ (linkUp → down (.lossOfAlignment p) 3)
    ∧ (¬linkUp → ∀ c ∈ [Instr.heartbeatTimeout p, .lossOfSignal p, .lossOfAlignment p], exec c s = .next (finish s s))
    ∧ (∀ input, input < 8 → engineOf p = input → s.core.fld key 7 1 = 1 → ∃ u, exec (.lightLoss input) s = .next (finish s u) ∧ u.core.fld key 7 1 = 0
        ∧ u.core.fld Reg.pinLaser input 1 = 0 ∧ (s.core.up? p = true → u.core.portState p = 3 ∧ u.core.fld key 3 4 = 5))
    ∧ (∀ input, input < 8 → engineOf p = input → s.core.fld key 7 1 = 0 → ∃ u, exec (.lightReturn input) s = .next (finish s u) ∧ u.core.fld key 7 1 = 1
        ∧ u.core.fld Reg.pinLaser input 1 = 1 ∧ (s.core.portEn p = true → s.core.replaced p = false → s.core.portState p ≠ 2 → u.core.portState p = 1))
    ∧ (s.core.portState p = 3 → s.core.portEn p = true → x.trainDue ≤ s.core.up → trains (.portRetrain p))
    ∧ (s.core.portState p ≠ 3 ∨ s.core.portEn p = false ∨ s.core.up < x.trainDue → exec (.portRetrain p) s = .next (finish s s))
    ∧ (∀ q word, s.live = true → q < 4 → word < 2 ^ 32 → p = 4 * s.core.fld (Reg.seifPortSel q) 0 3 + q → word.testBit 0 = true → s.core.portEn p = true →
        s.core.replaced p = false → trains (.retrain q word))
    ∧ (∀ node port, s.core.portState p = 1 → ∃ u, exec (.ident p node port) s = .next (finish s u)
        ∧ u.core.reg (portKey p Reg.seifPeer) = node % 65536 + port % 32 * 65536 ∧ (u.core.port p).identSeen = true
        ∧ u.core.portState p = if s.core.miswired p node port then 4 else 1)
    ∧ (∀ ok grants, s.core.portState p = 1 →
        let peer := s.core.reg (portKey p Reg.seifPeer)
        (ok = false ∨ s.core.fld key 7 1 = 0 → down (.trainingComplete p ok grants) 6)
        ∧ (ok = true → s.core.fld key 7 1 = 1 → x.identSeen = false → ∃ u, exec (.trainingComplete p ok grants) s = .next (finish s u) ∧ u.core = s.core)
        ∧ (ok = true → s.core.fld key 7 1 = 1 → x.identSeen = true → ∃ u, exec (.trainingComplete p ok grants) s = .next (finish s u)
            ∧ (s.core.miswired p (peer % 65536) (peer / 65536 % 32) = true → u.core.portState p = 4)
            ∧ (s.core.miswired p (peer % 65536) (peer / 65536 % 32) = false → u.core.portState p = 2 ∧ (u.core.port p).lastHb = s.core.up)))

/-! ### The twin and the job -/

/-- The twin (of R603 to R608, R613, R620 to R623, R632 to R635) at a device that serves: an arriving mirror or fill block is stored and acknowledged, and one outside its range
changes nothing; an acknowledged block leaves the mirror queue; heartbeats of a formed pair are sent every 10 µs and kept; forming messages keep the twin's key and report a changed
one; a fill's ends are noted; the bits of TWIN_CTRL ask for forming, detaching, attaching and resigning; a twin that is lost or resigns leaves the pair LOST with nothing to mirror or
hold, and a device that is not STOPPED and does not stand in for it asks its leader for the failover. -/
def Obligations.Twin : Prop :=
  ∀ s : State, s.serves = true →
    let d := s.core.mirrorD
    let asks := s.core.jobState ≠ 4 ∧ s.core.adopted? ≠ some s.core.twin
    let lost (u : State) : Prop := u.core.pair = 3
      ∧ (¬asks ∨ s.core.leader ≠ s.core.twin ∧ s.core.isLeader = false → u.core.mirrorQ = [] ∧ u.core.job.held = [] ∧ u.core.job.fill = none ∧ u.core.job.hbLast = none)
      ∧ (asks → s.core.leader ≠ s.core.twin → s.core.isLeader = false → u.core.out.getLast? =
          some { dst := s.core.leader, wadi := 0, body := .failoverReq s.core.twin s.core.node (s.core.formed && !s.core.job.attaching) })
    (∀ m, let a := m.addr / 64 * 64
      let mine := if m.kind < 3 then decide (a < d) else decide (d ≤ a ∧ a < 2 * d)
      (mine = true → ∃ u b, exec (.mirrorBlock m) s = .next (finish s u) ∧ u.core.out.getLast? = some b ∧ b.wadi = 14 ∧ b.body = .mirrorAck a m.kind
        ∧ (m.kind ≠ 1 → m.kind ≠ 3 → u.core.mem = (s.core.takeBlock m (if m.kind < 3 then a + d else a - d)).mem))
      ∧ (mine = false → exec (.mirrorBlock m) s = .next (finish s s)))
    ∧ (∀ addr kind m, kind = 0 ∨ 4 ≤ kind → s.core.mirrorQ.find? (fun m => m.sent && m.block == addr / 64) = some m → ∃ u, exec (.mirrorAck addr kind) s = .next (finish s u)
        ∧ u = { s with core := { s.core with mirrorQ := s.core.mirrorQ.filter (fun x => x.num != m.num) } })
    ∧ (∀ addr f, s.core.job.fill = some f → f.kind = 2 ∨ f.kind = 3 → f.sends = true → addr / 64 = s.core.fillBase f + f.acked → ∃ u, exec (.mirrorAck addr f.kind) s = .next (finish s u)
        ∧ (∃ g, u.core.job.fill = some g ∧ g.acked = f.acked + 1 ∧ g.kind = f.kind) ∧ u.ctl = s.ctl)
    ∧ (∀ addr, addr < d → s.core.mirroring = true → exec (.mirrorResendRequest addr) s = .next (finish s (s.on (fun c => c.mirrorBlock (addr / 64)))))
    ∧ (s.core.formed = true → s.core.job.hbSent + 10000 ≤ s.core.up → ∃ u, exec .twinHeartbeatSend s = .next (finish s u) ∧ u.core.job = { s.core.job with hbSent := s.core.up }
        ∧ u.core.out = s.core.out ++ [{ dst := s.core.twin, wadi := 0, body := .twinHeartbeat }] ∧ u.core.regs = s.core.regs)
    ∧ (s.core.formed = true → ∃ u, exec .twinHeartbeat s = .next (finish s u) ∧ u.core.job = { s.core.job with hbLast := some s.core.up } ∧ u.core.fld Reg.twinState 3 1 = 1
        ∧ u.core.pair = s.core.pair)
    ∧ (s.core.formed = false → exec .twinHeartbeat s = .next (finish s s) ∧ exec .twinHeartbeatSend s = .next (finish s s) ∧ exec .twinLoss s = .next (finish s s))
    ∧ (∀ f, ∃ u, exec (.twinFormExchange f) s = .next (finish s u) ∧ (s.core.twin, f.key) ∈ u.core.job.twinKeys
        ∧ ((∃ k ∈ s.core.job.twinKeys, k.1 = s.core.twin ∧ k.2 ≠ f.key) → (u.core.reg 0x1010).testBit 2 = true))
    ∧ (∀ f, s.core.job.fill = some f → ∃ u, exec .fillEnd s = .next (finish s u) ∧ u = s.onJob (fun j => { j with fill := some { f with
        sentEnd := f.sentEnd || (f.sends && decide (d / 64 ≤ f.acked)), gotEnd := f.gotEnd || (f.receives && decide (d / 64 ≤ f.got)) } }))
    ∧ (s.live = true → (∃ u, exec .form s = .next (finish s u) ∧ u.core.job = { s.core.job with formDue := true } ∧ u.core.mem = s.core.mem)
        ∧ (∃ u, exec .detach s = .next (finish s u) ∧ u.core.job = { s.core.job with detach := true } ∧ u.core.mem = s.core.mem)
        ∧ (∃ u, exec .attach s = .next (finish s u) ∧ u.core.job = { s.core.job with attachDue := true } ∧ u.core.mem = s.core.mem)
        ∧ (∃ u, exec .twinResign s = .next (finish s u) ∧ u.core.job = { s.core.job with resignDue := true } ∧ u.core.mem = s.core.mem))
    ∧ (∀ t, s.core.job.hbLast = some t → s.core.formed = true → s.core.twin ≠ 0xFFFF → t + 200000 ≤ s.core.up → ∃ u, exec .twinLoss s = .next (finish s u) ∧ lost u)
    ∧ (s.core.pair ≠ 3 → s.core.twin ≠ 0xFFFF → ∃ u, exec .resign s = .next (finish s u) ∧ lost u)
    ∧ (s.core.pair = 3 ∨ s.core.twin = 0xFFFF → exec .resign s = .next (finish s s))

/-- The job (of R616 to R618, R622 to R625, R635) at a device that serves: the leader counts a READY of the current restart and sends START with a time COMMIT_LEAD ahead once every
node has sent one; a START sets the time, and one that has passed is counted late and starts at once; STOP, or 100 ms without every READY, leaves the device STOPPED; a refused failover leaves it
FENCED; an accepted failover and a hand-back add the translation to come, and set the restart and, at the stand-in, the adopted node; the leader takes a request of a formed pair
that concerns no adopted or lost node, and refuses others. -/
def Obligations.JobRestarts : Prop :=
  ∀ s : State, s.serves = true →
    (∀ node, s.core.isLeader = true → s.core.job.collecting = true →
        let c := Core.seeJob { s.core with job := { s.core.job with readyFrom := insN s.core.job.readyFrom node, readyAt := s.core.ct } }
        let all := ∀ n ∈ c.jobNodes, n ∈ insN s.core.job.readyFrom node
        let t := c.ct + max 1 (c.fld Reg.cpCommitLead 0 16) * 1000
        ∃ u, exec (.restartReady node s.core.job.number) s = .next (finish s u) ∧ u.core.job.readyFrom = insN s.core.job.readyFrom node
        ∧ (all → u = { s with core := { c with
            job := { c.job with collecting := false, startAt := some t },
            out := c.out ++ (c.jobNodes.filter (fun n => n != c.node)).map (fun n => { dst := n, wadi := 0, body := .restartStart s.core.job.number t }) } })
        ∧ (¬all → u = { s with core := c }))
    ∧ (∀ node number, number ≠ s.core.job.number → exec (.restartReady node number) s = .next (finish s s) ∧ ∀ t, exec (.restartStart number t) s = .next (finish s s))
    ∧ (∀ t, s.core.job.phase = .ready → ∃ u, exec (.restartStart s.core.job.number t) s = .next (finish s u) ∧ u.core.job = { s.core.job with startAt := some (max t s.core.ct) }
        ∧ (s.core.ct ≤ t → u.core.regs = s.core.regs) ∧ (t < s.core.ct → u.core.regs = s.core.lateEvent.regs) ∧ u.core.mem = s.core.mem ∧ u.ctl = s.ctl)
    ∧ (s.core.jobState ≠ 3 → ∃ u, exec .jobStop s = .next (finish s u) ∧ u.core.jobState = 4 ∧ u.core.job.startAt = none ∧ u.core.job.collecting = false ∧ u.core.job.restartDue = none)
    ∧ (s.core.job.collecting = true → s.core.job.msgAt + 100000000 ≤ s.core.up → ∃ u, exec .readyTimeout s = .next (finish s u) ∧ u = s.stopAll ∧ (s.core.jobState ≠ 3 → u.core.jobState = 4))
    ∧ (s.core.job.collecting = false ∨ s.core.up < s.core.job.msgAt + 100000000 → exec .readyTimeout s = .next (finish s s))
    ∧ (∀ l st n, ∃ u, exec (.failover l st n true) s = .next (finish s u) ∧ u.core.jobState = 3)
    ∧ (∀ l st n, ∃ u, exec (.failover l st n false) s = .next (finish s u) ∧ u.core.job.translations = s.core.job.translations ++ [(l, st, false)] ∧ u.core.job.restartDue = some n
        ∧ (st = s.core.node → u.core.fld Reg.jobAdopt 0 16 = l % 65536))
    ∧ (∀ l st n, ∃ u, exec (.handback l st n) s = .next (finish s u) ∧ u.core.job.translations = s.core.job.translations ++ [(l, st, true)] ∧ u.core.job.restartDue = some n)
    ∧ (∀ l st, l ∉ s.core.job.gone → st ∉ s.core.job.gone → (∀ x ∈ s.core.job.taken, x.1 ≠ l ∧ x.1 ≠ st) →
        ∃ u, exec (.failoverReq l st true) s = .next (finish s u) ∧ (l, st, false) ∈ u.core.job.translations ∧ (l, st) ∈ u.core.job.taken
          ∧ (s.core.inJob = false ∨ s.core.job.phase ≠ .none →
              u.core.job.restartDue = some (match s.core.job.restartDue with | some n => n + 1 | none => s.core.job.number + 1)))
    ∧ (∀ l st, st ∉ s.core.job.gone → l ∈ s.core.job.gone ∨ (∃ x ∈ s.core.job.taken, x.1 = l ∨ x.1 = st) → st ≠ s.core.node →
        ∃ u, exec (.failoverReq l st true) s = .next (finish s u) ∧ st ∈ u.core.job.gone
          ∧ u.core.out.getLast? = some { dst := st, wadi := 0, body := .failoverRefused l st })

/-! ### Power and temperature -/

/-- Power control of a live device (of R639, R642, R646 to R648, R651, R656, R659, R740): a control period reports the measures, shares the cap in force so that no domain gets
more than it asks for and the whole stays within the cap or the floor of LINK, and requests the limit where HOLD is set and 1,000 MHz, or less where the thermal loop has lowered it, in the cold start; samples are kept; power
above 2,000 W, or above 1,650 W for 20 µs, paces COMPUTE, 1,650 W or less does not, and power above BASE and the allocations paces for the period, which is the model's reading
(log entry 128); a raise steps by one; a waiting start pays its charge; columns follow one by one. -/
def Obligations.PowerControl : Prop :=
  ∀ s : State, s.live = true →
    (∀ m : PeriodMeasure, s.core.ct / 1000000 ≤ s.pwr.periodAt / 1000000 → exec (.controlPeriod m) s = .next (finish s s))
    ∧ (∀ m : PeriodMeasure, s.pwr.periodAt / 1000000 < s.core.ct / 1000000 →
        let cap := if s.pwr.throttle then min s.core.capW (max 500 (s.core.fld Reg.pwrExt 0 11)) else s.core.capW
        let a := s.core.allocate cap m
        (∃ u, exec (.controlPeriod m) s = .next (finish s u) ∧ u.pwr.periodAt = s.core.ct ∧ u.pwr.extCap = s.pwr.throttle ∧ u.core.fld Reg.pwrPower 0 11 = m.pkg % 2048
          ∧ u.core.fld Reg.pwrAlloc 0 10 = nth 0 a 0 % 1024 ∧ u.core.fld Reg.pwrAlloc 10 10 = nth 0 a 1 % 1024 ∧ u.core.fld Reg.pwrAlloc 20 10 = nth 0 a 2 % 1024
          ∧ (s.core.fld Reg.pwrFreq 8 1 = 1 → u.core.fld Reg.pwrFreq 16 6 = s.freqLimit)
          ∧ (s.core.fld Reg.pwrFreq 8 1 = 0 → s.core.fld Reg.pwrFreqNow 17 1 = 1 →
              u.core.fld Reg.pwrFreq 16 6 = if s.pwr.thermal then min 16 (s.core.fld Reg.pwrFreq 16 6) else 16) ∧ u.core.mem = s.core.mem)
        ∧ nth 0 a 0 ≤ m.link ∧ nth 0 a 1 ≤ m.mem ∧ nth 0 a 2 ≤ m.compute
        ∧ m.base + nth 0 a 0 + nth 0 a 1 + nth 0 a 2 ≤ max cap (m.base + min (min 150 (s.core.fld Reg.pwrOrder 16 8)) m.link))
    ∧ (∀ watts, ∃ u, exec (.avsSample watts) s = .next (finish s u) ∧ u.pwr.estimate = u.pwr.rails.foldl (· + ·) 15
        ∧ (∀ r w, r < 11 → watts.find? (fun x => x.1 == r) = some w → nth 0 u.pwr.rails r = w.2 ∧ r ∉ u.pwr.avsLost) ∧ u.core.regs = s.core.regs)
    ∧ (∀ rail, ∃ u, exec (.avsTimeout rail) s = .next (finish s u) ∧ rail ∈ u.pwr.avsLost ∧ (u.core.reg 0x3010).testBit 1 = true ∧ u.core.mem = s.core.mem)
    ∧ (∀ watts, ∃ u, exec (.powerEstimate watts) s = .next (finish s u) ∧ u.pwr.estimate = watts
        ∧ (2000 < watts ∨ 1650 < watts ∧ (∃ t, s.pwr.overAt = some t ∧ t + 20000 ≤ s.core.up) → u.pwr.short = true ∧ u.core.fld Reg.pwrThrNow 0 1 = 1)
        ∧ (watts ≤ 1650 → u.pwr.short = false ∧ u.pwr.overAt = none)
        ∧ (s.pwr.periodAt ≠ 0 → s.core.fld Reg.pwrPower 16 11 + s.pwr.alloc.sum < watts → u.pwr.pacing = true ∧ u.core.fld Reg.pwrThrNow 0 1 = 1) ∧ u.core.mem = s.core.mem)
    ∧ (∀ f t, s.pwr.raise = some (f, t) → (s.core.ct < t → exec .freqStep s = .next (finish s s))
        ∧ (t ≤ s.core.ct → ∃ u, exec .freqStep s = .next (finish s u) ∧ u.core.fld Reg.pwrFreqNow 0 6 = (s.core.fld Reg.pwrFreqNow 0 6 + 1) % 64
        ∧ u.pwr.raise = if s.core.fld Reg.pwrFreqNow 0 6 + 1 < f then some (f, t + 1000) else none))
    ∧ (∀ r rest, s.pwr.ramp.waiting = r :: rest → s.rampHolds r.unit = true → ∃ u, exec .rampAdmit s = .next (finish s u) ∧ u.pwr.ramp.waiting = rest
        ∧ r.unit ∈ u.pwr.ramp.admitted ∧ u.pwr.ramp.level = s.rampLevel - s.core.charge r.unit)
    ∧ (∀ r rest, s.pwr.ramp.waiting = r :: rest → s.rampHolds r.unit = false → exec .rampAdmit s = .next (finish s s))
    ∧ (∀ q n t, sget (0, 0) s.pwr.columns q = (n, t) → t + 500 ≤ s.core.up → ∃ u, exec (.columnEnable q) s = .next (finish s u)
        ∧ (s.idleUnit (unitArray q) = false → 0 < n → n < 8 → sget (0, 0) u.pwr.columns q = (n + 1, s.core.up))
        ∧ (s.idleUnit (unitArray q) = true → unitArray q ∉ s.pwr.ramp.admitted → 1 < n → sget (0, 0) u.pwr.columns q = (n - 1, s.core.up))
        ∧ u.core = s.core)

/-- Temperature, droop, throttle and pins (of R654, R664 to R666, R747): the thermal loop, each 1 ms, reports Tj, lowers the frequency request by a step at or above THROTTLE_C,
stops the engines and memory from 110 °C and lets them go below 105 °C, and doubles the refresh of stacks from 85 °C; a reading below the rail's set voltage by more than THRESH_MV,
20 to 120 mV, stretches its quarter, for 32 periods of the compute clock at least; the throttle input lowers the cap at once, pacing COMPUTE where the estimate lies above it, and
its release gives it back at the next period; a sensor at 115 °C holds the device in reset; a STEP pulse ends after its time. -/
def Obligations.ThermalAndPins : Prop :=
  ∀ s : State,
    (∀ tj temps, s.live = true → s.thermalDue = false → exec (.thermalLoop tj temps) s = .next (finish s s))
    ∧ (∀ tj temps, s.live = true → s.thermalDue = true → tj < 256 → ∃ u, exec (.thermalLoop tj temps) s = .next (finish s u) ∧ u.core.fld Reg.pwrTherm 8 8 = tj
        ∧ u.pwr.thermalAt = some s.core.up
        ∧ (s.core.throttleC ≤ tj → u.pwr.thermal = true ∧ (s.core.fld Reg.pwrFreq 8 1 = 0 → u.core.fld Reg.pwrFreq 16 6 = s.core.fld Reg.pwrFreq 16 6 - 1))
        ∧ (110 ≤ tj → u.pwr.emergency = true) ∧ (tj < 105 → u.pwr.emergency = false) ∧ (105 ≤ tj → tj < 110 → u.pwr.emergency = s.pwr.emergency) ∧ u.core.memStop = u.pwr.emergency
        ∧ (∀ i, i ∈ u.pwr.refresh ↔ i < temps.length ∧ 85 ≤ nth 0 temps i) ∧ u.core.mem = s.core.mem)
    ∧ (∀ q mv, s.awake = true → let volts := nth 0 s.pwr.volts q
        (volts ≤ mv + s.core.droopMv → exec (.droopDetect ⟨q, mv⟩) s = .next (finish s s))
        ∧ (mv + s.core.droopMv < volts → ∃ u, exec (.droopDetect ⟨q, mv⟩) s = .next (finish s u) ∧ u.pwr.stretch = sput s.pwr.stretch q s.core.up ∧ u.core.fld Reg.pwrThrNow 2 1 = 1
          ∧ (sfind s.pwr.stretch q = none → u.core.reg Reg.pwrDroopEvents = min (2 ^ 32 - 1) (s.core.reg Reg.pwrDroopEvents % 2 ^ 32 + 1))
          ∧ ((sfind s.pwr.stretch q).isSome = true → u.core.reg Reg.pwrDroopEvents = s.core.reg Reg.pwrDroopEvents)))
    ∧ (∀ q, s.awake = true → (sfind s.pwr.stretch q = none → exec (.droopEnd q) s = .next (finish s s))
        ∧ ∀ t, sfind s.pwr.stretch q = some t → (s.core.up < t + s.core.periods32 → exec (.droopEnd q) s = .next (finish s s))
          ∧ (t + s.core.periods32 ≤ s.core.up → ∃ u, exec (.droopEnd q) s = .next (finish s u) ∧ u.pwr.stretch = sdel s.pwr.stretch q
            ∧ (s.pwr.stretch = [(q, t)] → u.core.fld Reg.pwrThrNow 2 1 = 0)))
    ∧ 20 ≤ s.core.droopMv ∧ s.core.droopMv ≤ 120 ∧ 32000 ≤ s.core.periods32 * (600 + 25 * s.core.fld Reg.pwrFreqNow 0 6)
    ∧ (s.awake = true → s.pwr.throttle = false → ∃ u, exec .throttleAssert s = .next (finish s u) ∧ u.pwr.throttle = true ∧ u.core.fld Reg.pinState 1 1 = 1
        ∧ u.cap = min s.core.capW (max 500 (s.core.fld Reg.pwrExt 0 11)) ∧ (u.cap < s.pwr.estimate → u.pwr.pacing = true))
    ∧ (s.awake = true → s.pwr.throttle = true → ∃ u, exec .throttleRelease s = .next (finish s u) ∧ u.pwr.throttle = false ∧ u.core.fld Reg.pinState 1 1 = 0
        ∧ u.pwr.extCap = s.pwr.extCap ∧ u.cap = s.cap)
    ∧ (∀ sensor temp, s.mgmt.held = false → 115 ≤ temp → ∃ u, exec (.thermalTrip sensor temp) s = .next (finish s u) ∧ u.mgmt.held = true ∧ u.core.fld Reg.bootStatus 0 4 = 15
        ∧ u.core.fld Reg.bootStatus 8 8 = 0x50 ∧ u.core.fld Reg.pwrTrip 0 1 = 1 ∧ u.core.fld Reg.pwrTrip 1 7 = sensor % 128 ∧ u.core.fld Reg.pwrTrip 8 8 = temp % 256
        ∧ u.core.mem = s.core.mem)
    ∧ (∀ sensor temp, temp < 115 → exec (.thermalTrip sensor temp) s = .next (finish s s))
    ∧ (∀ t, s.mgmt.pulseEnd = some t → t ≤ s.core.up → ∃ u, exec .gpioPulseEnd s = .next (finish s u) ∧ u = { s with mgmt := { s.mgmt with pulseEnd := none } })
end

