-- ==== Sys2Proof/Laws/State.lean ====
section
/-!
SUPPORT. What the state's updates do, one lemma per field and update: strands, the machine below them, time, power and host, and the state that a descriptor works on.
-/
namespace Sys2Proof.Machine
open Sys2Proof

variable {α : Type}

/-! ### Lists -/

@[simp] theorem setNth_length (l : List α) (i : Nat) (v : α) : (setNth l i v).length = l.length := by
  induction l generalizing i with
  | nil => rfl
  | cons x l ih => cases i <;> simp [setNth, ih]

@[simp] theorem nth_nil (d : α) (i : Nat) : nth d [] i = d := rfl
@[simp] theorem nth_cons_zero (d x : α) (l : List α) : nth d (x :: l) 0 = x := rfl
@[simp] theorem nth_cons_succ (d x : α) (l : List α) (i : Nat) : nth d (x :: l) (i + 1) = nth d l i := rfl

theorem nth_setNth_ne (d : α) (l : List α) (i j : Nat) (v : α) (h : j ≠ i) : nth d (setNth l i v) j = nth d l j := by
  induction l generalizing i j with
  | nil => rfl
  | cons x l ih =>
    cases i with
    | zero => cases j with
      | zero => exact absurd rfl h
      | succ j => rfl
    | succ i => cases j with
      | zero => rfl
      | succ j => simpa [setNth] using ih i j (by omega)

theorem nth_setNth_eq (d : α) (l : List α) (i : Nat) (v : α) (h : i < l.length) : nth d (setNth l i v) i = v := by
  induction l generalizing i with
  | nil => simp at h
  | cons x l ih => cases i with
    | zero => rfl
    | succ i => simpa [setNth] using ih i (by simpa using h)

theorem nth_of_le (d : α) (l : List α) (i : Nat) (h : l.length ≤ i) : nth d l i = d := by simp [nth, List.getD_eq_getElem?_getD, h]

/-! ### Strands -/

variable (s : State) (k j : Nat) (f : Strand → Strand)

@[simp] theorem State.setStrand_core : (s.setStrand k f).core = s.core := rfl
@[simp] theorem State.setStrand_sync : (s.setStrand k f).sync = s.sync := rfl
@[simp] theorem State.setStrand_pwr : (s.setStrand k f).pwr = s.pwr := rfl
@[simp] theorem State.setStrand_host : (s.setStrand k f).host = s.host := rfl
@[simp] theorem State.setStrand_mgmt : (s.setStrand k f).mgmt = s.mgmt := rfl
@[simp] theorem State.setStrand_pending : (s.setStrand k f).pending = s.pending := rfl
@[simp] theorem State.setStrand_events : (s.setStrand k f).ctl.events = s.ctl.events := rfl
@[simp] theorem State.setStrand_lfsr : (s.setStrand k f).ctl.lfsr = s.ctl.lfsr := rfl
@[simp] theorem State.setStrand_length : (s.setStrand k f).ctl.strands.length = s.ctl.strands.length := by simp [State.setStrand]

theorem State.setStrand_ctl : (s.setStrand k f).ctl = { s.ctl with strands := setNth s.ctl.strands k (f (s.strand k)) } := rfl

theorem State.strand_setStrand_ne (h : j ≠ k) : (s.setStrand k f).strand j = s.strand j := by
  simp [State.strand, State.setStrand, nth_setNth_ne _ _ _ _ _ h]

theorem State.strand_setStrand_eq (h : k < s.ctl.strands.length) : (s.setStrand k f).strand k = f (s.strand k) := by
  simp [State.strand, State.setStrand, nth_setNth_eq _ _ _ _ h]

/-- A strand that does not exist reads as one that is IDLE. -/
theorem State.strand_of_le (h : s.ctl.strands.length ≤ k) : s.strand k = {} := nth_of_le _ _ _ h

theorem State.lt_of_phase {p : Phase} (h : (s.strand k).phase = p) (hp : p ≠ .idle) : k < s.ctl.strands.length := by
  cases Nat.lt_or_ge k s.ctl.strands.length with
  | inl hlt => exact hlt
  | inr hle => rw [State.strand_of_le s k hle] at h; exact absurd h.symm hp

/-! ### The other parts -/

variable (g : Core → Core)

@[simp] theorem State.on_core : (s.on g).core = g s.core := rfl
@[simp] theorem State.on_ctl : (s.on g).ctl = s.ctl := rfl
@[simp] theorem State.on_sync : (s.on g).sync = s.sync := rfl
@[simp] theorem State.on_pwr : (s.on g).pwr = s.pwr := rfl
@[simp] theorem State.on_host : (s.on g).host = s.host := rfl
@[simp] theorem State.on_mgmt : (s.on g).mgmt = s.mgmt := rfl
@[simp] theorem State.on_pending : (s.on g).pending = s.pending := rfl
@[simp] theorem State.on_strand : (s.on g).strand k = s.strand k := rfl
@[simp] theorem State.on_event : (s.on g).event k = s.event k := rfl

variable (gj : Job → Job) (gp : Power → Power) (gs : Sync → Sync) (gh : HostSt → HostSt)

@[simp] theorem State.onJob_core : (s.onJob gj).core = { s.core with job := gj s.core.job } := rfl
@[simp] theorem State.onJob_ctl : (s.onJob gj).ctl = s.ctl := rfl
@[simp] theorem State.onJob_sync : (s.onJob gj).sync = s.sync := rfl
@[simp] theorem State.onJob_pwr : (s.onJob gj).pwr = s.pwr := rfl
@[simp] theorem State.onJob_host : (s.onJob gj).host = s.host := rfl
@[simp] theorem State.onJob_mgmt : (s.onJob gj).mgmt = s.mgmt := rfl
@[simp] theorem State.onJob_pending : (s.onJob gj).pending = s.pending := rfl

@[simp] theorem State.onPwr_core : (s.onPwr gp).core = s.core := rfl
@[simp] theorem State.onPwr_ctl : (s.onPwr gp).ctl = s.ctl := rfl
@[simp] theorem State.onPwr_sync : (s.onPwr gp).sync = s.sync := rfl
@[simp] theorem State.onPwr_pwr : (s.onPwr gp).pwr = gp s.pwr := rfl
@[simp] theorem State.onPwr_host : (s.onPwr gp).host = s.host := rfl
@[simp] theorem State.onPwr_mgmt : (s.onPwr gp).mgmt = s.mgmt := rfl
@[simp] theorem State.onPwr_pending : (s.onPwr gp).pending = s.pending := rfl

@[simp] theorem State.onSync_core : (s.onSync gs).core = s.core := rfl
@[simp] theorem State.onSync_ctl : (s.onSync gs).ctl = s.ctl := rfl
@[simp] theorem State.onSync_sync : (s.onSync gs).sync = gs s.sync := rfl
@[simp] theorem State.onSync_pwr : (s.onSync gs).pwr = s.pwr := rfl
@[simp] theorem State.onSync_host : (s.onSync gs).host = s.host := rfl
@[simp] theorem State.onSync_mgmt : (s.onSync gs).mgmt = s.mgmt := rfl
@[simp] theorem State.onSync_pending : (s.onSync gs).pending = s.pending := rfl

@[simp] theorem State.onHost_core : (s.onHost gh).core = s.core := rfl
@[simp] theorem State.onHost_ctl : (s.onHost gh).ctl = s.ctl := rfl
@[simp] theorem State.onHost_sync : (s.onHost gh).sync = s.sync := rfl
@[simp] theorem State.onHost_pwr : (s.onHost gh).pwr = s.pwr := rfl
@[simp] theorem State.onHost_host : (s.onHost gh).host = gh s.host := rfl
@[simp] theorem State.onHost_mgmt : (s.onHost gh).mgmt = s.mgmt := rfl
@[simp] theorem State.onHost_pending : (s.onHost gh).pending = s.pending := rfl

@[simp] theorem State.powered_ctl : (s.powered gp).ctl = s.ctl := rfl
@[simp] theorem State.powered_sync : (s.powered gp).sync = s.sync := rfl
@[simp] theorem State.powered_host : (s.powered gp).host = s.host := rfl
@[simp] theorem State.powered_mgmt : (s.powered gp).mgmt = s.mgmt := rfl
@[simp] theorem State.powered_pending : (s.powered gp).pending = s.pending := rfl

@[simp] theorem State.toHost_ctl (b : Body) : (s.toHost b).ctl = s.ctl := rfl
@[simp] theorem State.toHost_sync (b : Body) : (s.toHost b).sync = s.sync := rfl
@[simp] theorem State.toHost_pwr (b : Body) : (s.toHost b).pwr = s.pwr := rfl
@[simp] theorem State.toHost_host (b : Body) : (s.toHost b).host = s.host := rfl
@[simp] theorem State.toHost_mgmt (b : Body) : (s.toHost b).mgmt = s.mgmt := rfl
@[simp] theorem State.toHost_pending (b : Body) : (s.toHost b).pending = s.pending := rfl

/-! ### Event counters -/

variable (i v : Nat)

@[simp] theorem State.setEvent_core : (s.setEvent i v).core = s.core := rfl
@[simp] theorem State.setEvent_sync : (s.setEvent i v).sync = s.sync := rfl
@[simp] theorem State.setEvent_pwr : (s.setEvent i v).pwr = s.pwr := rfl
@[simp] theorem State.setEvent_host : (s.setEvent i v).host = s.host := rfl
@[simp] theorem State.setEvent_mgmt : (s.setEvent i v).mgmt = s.mgmt := rfl
@[simp] theorem State.setEvent_pending : (s.setEvent i v).pending = s.pending := rfl
@[simp] theorem State.setEvent_strand : (s.setEvent i v).strand k = s.strand k := rfl
@[simp] theorem State.setEvent_strands : (s.setEvent i v).ctl.strands = s.ctl.strands := rfl

/-! ### What a descriptor's work leaves -/

variable (x : Dx)

@[simp] theorem State.withDx_core : (s.withDx k x).core = { x.c with actAs := none } := rfl
@[simp] theorem State.withDx_sync : (s.withDx k x).sync = s.sync := rfl
@[simp] theorem State.withDx_pwr : (s.withDx k x).pwr = s.pwr := rfl
@[simp] theorem State.withDx_host : (s.withDx k x).host = s.host := rfl
@[simp] theorem State.withDx_mgmt : (s.withDx k x).mgmt = s.mgmt := rfl
@[simp] theorem State.withDx_pending : (s.withDx k x).pending = s.pending := rfl
@[simp] theorem State.withDx_events : (s.withDx k x).ctl.events = s.ctl.events := rfl
@[simp] theorem State.withDev_core : (s.withDev x).core = { x.c with actAs := none } := rfl
@[simp] theorem State.withDev_sync : (s.withDev x).sync = s.sync := rfl
@[simp] theorem State.withDev_pwr : (s.withDev x).pwr = s.pwr := rfl
@[simp] theorem State.withDev_host : (s.withDev x).host = s.host := rfl
@[simp] theorem State.withDev_mgmt : (s.withDev x).mgmt = s.mgmt := rfl
@[simp] theorem State.withDev_pending : (s.withDev x).pending = s.pending := rfl
@[simp] theorem State.withDev_strand : (s.withDev x).strand k = s.strand k := rfl

@[simp] theorem State.worked_core (us : List Nat) : (s.worked us).core = s.core := rfl
@[simp] theorem State.worked_ctl (us : List Nat) : (s.worked us).ctl = s.ctl := rfl
@[simp] theorem State.worked_sync (us : List Nat) : (s.worked us).sync = s.sync := rfl
@[simp] theorem State.worked_host (us : List Nat) : (s.worked us).host = s.host := rfl
@[simp] theorem State.worked_mgmt (us : List Nat) : (s.worked us).mgmt = s.mgmt := rfl
@[simp] theorem State.worked_pending (us : List Nat) : (s.worked us).pending = s.pending := rfl
@[simp] theorem State.worked_strand (us : List Nat) : (s.worked us).strand k = s.strand k := rfl

end Sys2Proof.Machine
end

