-- ==== Sys2Proof/Laws/Memory.lean ====
section
/-!
SUPPORT. The laws of sparse tables, memories and registers: a read after a write, what a write leaves alone, and that every memory operation keeps the canonical form.
-/
namespace Sys2Proof.Machine
open Sys2Proof

variable {α : Type}

/-! ### Reading after writing -/

theorem sfind_sput_eq (m : SMap α) (i : Nat) (v : α) : sfind (sput m i v) i = some v := by
  induction m with
  | nil => simp [sput, sfind]
  | cons e m ih =>
    obtain ⟨k, w⟩ := e
    simp only [sput]
    split
    · simp [sfind]
    · split
      · simp [sfind]
      · rename_i h _; simp [sfind, h, ih]

theorem sfind_sput_ne (m : SMap α) (i j : Nat) (v : α) (h : j ≠ i) : sfind (sput m i v) j = sfind m j := by
  induction m with
  | nil => simp [sput, sfind, h]
  | cons e m ih =>
    obtain ⟨k, w⟩ := e
    simp only [sput]
    split
    · rename_i hk; subst hk; simp [sfind, h]
    · split
      · simp [sfind, h]
      · simp [sfind, ih]

theorem sfind_sdel_eq (m : SMap α) (i : Nat) : sfind (sdel m i) i = none := by
  induction m with
  | nil => rfl
  | cons e m ih =>
    obtain ⟨k, w⟩ := e
    simp only [sdel]
    split
    · exact ih
    · rename_i h; simp [sfind, h, ih]

theorem sfind_sdel_ne (m : SMap α) (i j : Nat) (h : j ≠ i) : sfind (sdel m i) j = sfind m j := by
  induction m with
  | nil => rfl
  | cons e m ih =>
    obtain ⟨k, w⟩ := e
    simp only [sdel]
    split
    · rename_i hk; subst hk; simp [sfind, h, ih]
    · simp [sfind, ih]

/-- A value with a default is what `sfind` finds. -/
theorem sget_eq (d : α) (m : SMap α) (i : Nat) : sget d m i = (sfind m i).getD d := by
  induction m with
  | nil => rfl
  | cons e m ih => obtain ⟨k, w⟩ := e; simp only [sget, sfind]; split <;> simp [ih]

theorem sget_sset_eq [DecidableEq α] (d : α) (m : SMap α) (i : Nat) (v : α) : sget d (sset d m i v) i = v := by
  rw [sget_eq]
  unfold sset
  split
  · rename_i h; simp [sfind_sdel_eq, h]
  · simp [sfind_sput_eq]

theorem sget_sset_ne [DecidableEq α] (d : α) (m : SMap α) (i j : Nat) (v : α) (h : j ≠ i) : sget d (sset d m i v) j = sget d m j := by
  rw [sget_eq, sget_eq]
  unfold sset
  split
  · rw [sfind_sdel_ne _ _ _ h]
  · rw [sfind_sput_ne _ _ _ _ h]

/-! ### Registers -/

theorem Core.reg_setReg_eq (c : Core) (key v : Nat) : (c.setReg key v).reg key = v % 2 ^ 32 := by
  unfold Core.setReg Core.reg
  simp only []
  split
  · rename_i h
    split at h
    · rename_i hv; rw [sfind_sdel_eq] at h; cases h
    · rw [sfind_sput_eq] at h; exact (Option.some.inj h).symm
  · rename_i h
    split at h
    · rename_i hv; exact hv.symm
    · rw [sfind_sput_eq] at h; cases h

theorem Core.reg_setReg_ne (c : Core) (key v j : Nat) (h : j ≠ key) : (c.setReg key v).reg j = c.reg j := by
  have regs : sfind (c.setReg key v).regs j = sfind c.regs j := by
    simp only [Core.setReg]
    split
    · exact sfind_sdel_ne _ _ _ h
    · exact sfind_sput_ne _ _ _ _ h
  simp only [Core.reg, regs]

/-! ### The canonical form -/

theorem sorted_mono (m : SMap α) {lo hi : Nat} (h : lo ≤ hi) (hm : sorted hi m = true) : sorted lo m = true := by
  cases m with
  | nil => rfl
  | cons e m => obtain ⟨k, w⟩ := e; simp [sorted] at hm ⊢; exact ⟨by omega, hm.2⟩

theorem sorted_key (m : SMap α) {lo : Nat} (hm : sorted lo m = true) : ∀ e ∈ m, lo ≤ e.1 := by
  induction m generalizing lo with
  | nil => simp
  | cons e m ih =>
    obtain ⟨k, w⟩ := e
    simp [sorted] at hm
    intro x hx
    cases List.mem_cons.mp hx with
    | inl h => subst h; exact hm.1
    | inr h => have := ih hm.2 x h; omega

theorem sorted_sput (m : SMap α) (lo i : Nat) (v : α) (hlo : lo ≤ i) (hm : sorted lo m = true) : sorted lo (sput m i v) = true := by
  induction m generalizing lo with
  | nil => simp [sput, sorted, hlo]
  | cons e m ih =>
    obtain ⟨k, w⟩ := e
    simp [sorted] at hm
    simp only [sput]
    split
    · rename_i h; subst h; simp [sorted, hm]
    · split
      · rename_i h1 h2; simp [sorted, hlo, hm.2]; omega
      · rename_i h1 h2; simp [sorted, hm.1]; exact ih (k + 1) (by omega) hm.2

theorem sorted_filter (m : SMap α) (lo : Nat) (p : Nat × α → Bool) (hm : sorted lo m = true) : sorted lo (m.filter p) = true := by
  induction m generalizing lo with
  | nil => rfl
  | cons e m ih =>
    obtain ⟨k, w⟩ := e
    simp [sorted] at hm
    simp only [List.filter]
    split
    · simp [sorted, hm.1]; exact ih (k + 1) hm.2
    · exact sorted_mono _ (by omega : lo ≤ k + 1) (ih (k + 1) hm.2)

theorem sdel_eq_filter (m : SMap α) (i : Nat) : sdel m i = m.filter (fun e => decide (e.1 ≠ i)) := by
  induction m with
  | nil => rfl
  | cons e m ih =>
    obtain ⟨k, w⟩ := e
    simp only [sdel, List.filter]
    split
    · rename_i h; subst h; simp [ih]
    · rename_i h; have : k ≠ i := fun x => h x.symm; simp [this, ih]

theorem sorted_append (m r : SMap α) (lo mid : Nat) (hm : sorted lo m = true) (hr : sorted mid r = true) (hk : ∀ e ∈ m, e.1 < mid) (hlo : lo ≤ mid) :
    sorted lo (m ++ r) = true := by
  induction m generalizing lo with
  | nil => exact sorted_mono _ hlo hr
  | cons e m ih =>
    obtain ⟨k, w⟩ := e
    simp [sorted] at hm ⊢
    have hk' : k < mid := hk (k, w) (by simp)
    exact ⟨hm.1, ih (k + 1) hm.2 (fun e he => hk e (by simp [he])) (by omega)⟩

theorem sorted_runFrom (a : Nat) (l : List α) : sorted a (runFrom a l) = true := by
  induction l generalizing a with
  | nil => rfl
  | cons x l ih => simp [runFrom, sorted, ih]

theorem runFrom_key (a : Nat) (l : List α) : ∀ e ∈ runFrom a l, a ≤ e.1 ∧ e.1 < a + l.length := by
  induction l generalizing a with
  | nil => simp [runFrom]
  | cons x l ih =>
    intro e he
    simp only [runFrom, List.mem_cons] at he
    cases he with
    | inl h => subst h; simp
    | inr h => have := ih (a + 1) e h; simp; omega

variable [DecidableEq α] (d : α)

theorem swf_iff (m : SMap α) : swf d m = true ↔ sorted 0 m = true ∧ ∀ e ∈ m, e.2 ≠ d := by simp [swf]

theorem swf_sput (m : SMap α) (i : Nat) (v : α) (hv : v ≠ d) (hm : swf d m = true) : swf d (sput m i v) = true := by
  rw [swf_iff] at hm ⊢
  refine ⟨sorted_sput m 0 i v (by omega) hm.1, ?_⟩
  have key : ∀ (m : SMap α) (e : Nat × α), e ∈ sput m i v → e ∈ m ∨ e = (i, v) := by
    intro m
    induction m with
    | nil => intro e he; simp [sput] at he; exact .inr he
    | cons x m ih =>
      obtain ⟨k, w⟩ := x
      intro e he
      simp only [sput] at he
      split at he
      · simp at he; rcases he with h | h
        · exact .inr h
        · exact .inl (by simp [h])
      · split at he
        · simp at he; rcases he with h | h | h
          · exact .inr h
          · exact .inl (by simp [h])
          · exact .inl (by simp [h])
        · simp at he; rcases he with h | h
          · exact .inl (by simp [h])
          · rcases ih e h with h | h
            · exact .inl (by simp [h])
            · exact .inr h
  intro e he
  rcases key m e he with h | h
  · exact hm.2 e h
  · rw [h]; exact hv

theorem swf_filter (m : SMap α) (p : Nat × α → Bool) (hm : swf d m = true) : swf d (m.filter p) = true := by
  rw [swf_iff] at hm ⊢
  exact ⟨sorted_filter m 0 p hm.1, fun e he => hm.2 e (List.mem_filter.mp he).1⟩

theorem swf_sdel (m : SMap α) (i : Nat) (hm : swf d m = true) : swf d (sdel m i) = true := by
  rw [sdel_eq_filter]; exact swf_filter d m _ hm

/-- Writing a value keeps the canonical form. -/
theorem swf_sset (m : SMap α) (i : Nat) (v : α) (hm : swf d m = true) : swf d (sset d m i v) = true := by
  unfold sset
  split
  · exact swf_sdel d m i hm
  · rename_i h; exact swf_sput d m i v h hm

theorem swf_sclear (m : SMap α) (a n : Nat) (hm : swf d m = true) : swf d (sclear m a n) = true := swf_filter d m _ hm

theorem swf_sslice (m : SMap α) (a n : Nat) (hm : swf d m = true) : swf d (sslice m a n) = true := swf_filter d m _ hm

/-- A run of entries put over a range keeps the canonical form. -/
theorem swf_soverlay (m r : SMap α) (lo n : Nat) (hm : swf d m = true) (hr : sorted lo r = true) (hd : ∀ e ∈ r, e.2 ≠ d) (hk : ∀ e ∈ r, e.1 < lo + n) :
    swf d (soverlay m lo n r) = true := by
  rw [swf_iff] at hm ⊢
  have hi : sorted (lo + n) (m.filter (fun p => decide (lo + n ≤ p.1))) = true := by
    have : ∀ (m : SMap α) (l : Nat), sorted l m = true → sorted (lo + n) (m.filter (fun p => decide (lo + n ≤ p.1))) = true := by
      intro m
      induction m with
      | nil => intros; rfl
      | cons e m ih =>
        obtain ⟨k, w⟩ := e
        intro l h
        simp [sorted] at h
        simp only [List.filter]
        split
        · rename_i hk; simp at hk; simp [sorted, hk]; exact sorted_filter m (k + 1) _ h.2
        · exact ih (k + 1) h.2
    exact this m 0 hm.1
  constructor
  · unfold soverlay
    refine sorted_append _ _ 0 (lo + n) (sorted_append _ _ 0 lo (sorted_filter m 0 _ hm.1) hr ?_ (by omega)) hi ?_ (by omega)
    · intro e he; simpa using (List.mem_filter.mp he).2
    · intro e he
      rcases List.mem_append.mp he with h | h
      · have := (List.mem_filter.mp h).2; simp at this; omega
      · exact hk e h
  · intro e he
    unfold soverlay at he
    rcases List.mem_append.mp he with h | h
    · rcases List.mem_append.mp h with h | h
      · exact hm.2 e (List.mem_filter.mp h).1
      · exact hd e h
    · exact hm.2 e (List.mem_filter.mp h).1

/-- Storing bytes keeps a memory's canonical form. -/
theorem Memory.wf_putBytes (m : List Host.Cell) (a : Nat) (bs : List Byte) (hm : Memory.wf m) : Memory.wf (putBytes m a bs) := by
  unfold putBytes
  refine swf_soverlay 0 m _ a bs.length hm (sorted_filter _ a _ (sorted_runFrom a bs)) ?_ ?_
  · intro e he; simpa using (List.mem_filter.mp he).2
  · intro e he; exact (runFrom_key a bs e (List.mem_filter.mp he).1).2

/-- Flipping bits of a stored word keeps the canonical form. -/
theorem Memory.wf_xorWord (m : List Host.Cell) (a x : Nat) (hm : Memory.wf m) : Memory.wf (xorWord m a x) := by
  unfold xorWord
  generalize upto 8 = l
  induction l generalizing m with
  | nil => exact hm
  | cons i l ih => simp only [List.foldl_cons]; refine ih _ ?_; split; exact hm; exact swf_sset 0 m _ _ hm

/-- Clearing a range keeps the canonical form. -/
theorem Memory.wf_sclear (m : List Host.Cell) (a n : Nat) (hm : Memory.wf m) : Memory.wf (sclear m a n) := swf_sclear 0 m a n hm

/-- Reset memory lists nothing, which is canonical. -/
theorem Memory.wf_reset : Memory.wf State.reset.core.mem ∧ Memory.wf State.reset.core.dram := ⟨rfl, rfl⟩

end Sys2Proof.Machine
end

