-- ==== Sys2Proof/WellFormed.lean ====
section
/-!
DEFINITION. Well-formed commands: every operand in the range of the field or the unit it names. A command from outside is well formed; the machine itself is
total and also answers the others.
-/
namespace Sys2Proof

/-- `k` is one of 64 strands (R66). -/
def WellFormed.strand (k : Nat) : Bool := k < 64

/-- `q` is one of four quarters. -/
def WellFormed.quarter (q : Nat) : Bool := q < 4

/-- `p` is one of 32 Seif ports. -/
def WellFormed.port (p : Nat) : Bool := p < 32

/-- `n` is a 16-bit node number (R528). -/
def WellFormed.node (n : Nat) : Bool := n < 2 ^ 16

/-- `w` is a 4-bit wadi (R526). -/
def WellFormed.wadi (w : Nat) : Bool := w < 16

/-- `c` is a buffer class (R526). -/
def WellFormed.cls (c : Nat) : Bool := c < 2

/-- `n` is a 12-bit SEQ (R526). -/
def WellFormed.seq (n : Nat) : Bool := n < 4096

/-- `p` is a page of register space (R759, R678). -/
def WellFormed.page (p : Nat) : Bool := p < 2 ^ 14

/-- `o` is a word of BAR 0 (R677, R678). -/
def WellFormed.offset (o : Nat) : Bool := o < 2 ^ 26 && o % 4 == 0

/-- `v` is a 32-bit word. -/
def WellFormed.word (v : Nat) : Bool := v < 2 ^ 32

/-- `e` is four byte enables (R676). -/
def WellFormed.enables (e : Nat) : Bool := e < 16

/-- `r` is the host or the MC (R767). -/
def WellFormed.reader (r : Nat) : Bool := r < 2

/-- `w` is one of eight event watches (R685). -/
def WellFormed.watch (w : Nat) : Bool := w < 8

/-- `n` is one of eight key slots (R711). -/
def WellFormed.slot (n : Nat) : Bool := n < 8

/-- `n` is an operation of SEC_OWNER_PROG (R718). -/
def WellFormed.ownerOp (n : Nat) : Bool := n < 4

/-- `n` is one bit. -/
def WellFormed.flag (n : Nat) : Bool := n < 2

/-- `a` is a 48-bit local address. -/
def WellFormed.address (a : Nat) : Bool := a < 2 ^ 48

/-- `c` is one of 256 device channels (R460). -/
def WellFormed.channel (c : Nat) : Bool := c < 256

/-- `b` is one of 32 banks (R460). -/
def WellFormed.bank (b : Nat) : Bool := b < 32

/-- `r` is a row of a bank (R460). -/
def WellFormed.memRow (r : Nat) : Bool := r < 49152

/-- `g` is a DRAM interleave group (R461). -/
def WellFormed.ilvGroup (g : Nat) : Bool := g < 96

/-- `u` is one of the 64 channels of a quarter, or its Erg store (R494). -/
def WellFormed.memUnit (u : Nat) : Bool := u ≤ 64

/-- `i` is one of eight laser inputs. -/
def WellFormed.laser (i : Nat) : Bool := i < 8

/-- `r` is one of the ten rails that report (R735). -/
def WellFormed.rail (r : Nat) : Bool := r < 10

/-- Whether every operand of a command is in range. -/
def Instr.wf (i : Instr) : Bool :=
  match i with
  | .coldReset _ => true
  | .supplyCheck _ _ => true
  | .ready _ => true
  | .warmReset => true
  | .functionLevelReset => true
  | .pcieLinkTrain _ _ => true
  | .unsupportedRequest _ => true
  | .hostMemoryWrite _ _ _ _ _ => true
  | .hostMemoryRead _ _ _ _ => true
  | .registerWrite off value enables => WellFormed.offset off && WellFormed.word value && WellFormed.enables enables
  | .latchedLoRead reader off _ => WellFormed.reader reader && WellFormed.offset off
  | .lock page => WellFormed.page page
  | .clrCounts page => WellFormed.page page
  | .intForce page bits => WellFormed.page page && WellFormed.word bits
  | .hostIrqEoi _ vectors => WellFormed.word vectors
  | .watchFire watch => WellFormed.watch watch
  | .hostAttestReq => true
  | .attestDone _ => true
  | .ownerProg slot op => WellFormed.slot slot && WellFormed.ownerOp op
  | .ownerProgDone => true
  | .smbusStatus => true
  | .smbusTrip => true
  | .smbusIdent => true
  | .smbusTemp => true
  | .smbusAddr off => WellFormed.offset off
  | .smbusRead => true
  | .timeMessageSend port => WellFormed.port port
  | .timeMessageReceive port _ _ => WellFormed.port port
  | .rootYield port => WellFormed.port port
  | .trefPpsEdge _ _ => true
  | .ctSetHi value => WellFormed.word value
  | .parentLoss => true
  | .rootLoss _ => true
  | .refClkLoss => true
  | .timedEvent => true
  | .start strand haltOnErr quarter => WellFormed.strand strand && WellFormed.flag haltOnErr && WellFormed.quarter quarter
  | .stop strand => WellFormed.strand strand
  | .abort strand => WellFormed.strand strand
  | .cpEventValue value => WellFormed.word value
  | .cpEventAdd value => WellFormed.word value
  | .descriptorFetch strand => WellFormed.strand strand
  | .waitTimeEnd strand => WellFormed.strand strand
  | .eventWaitSatisfied strand => WellFormed.strand strand
  | .descriptorTimeout strand => WellFormed.strand strand
  | .descriptorComplete strand => WellFormed.strand strand
  | .strandWatchdog strand => WellFormed.strand strand
  | .stepWatchdog => true
  | .nop strand => WellFormed.strand strand
  | .jump strand => WellFormed.strand strand
  | .loop strand => WellFormed.strand strand
  | .halt strand => WellFormed.strand strand
  | .eventSet strand => WellFormed.strand strand
  | .stepMark strand => WellFormed.strand strand
  | .txnPrepare strand => WellFormed.strand strand
  | .txnCommit strand => WellFormed.strand strand
  | .txnAbort strand => WellFormed.strand strand
  | .storeImm strand => WellFormed.strand strand
  | .strandStart strand => WellFormed.strand strand
  | .txnVote _ => true
  | .txnDecision src _ _ => WellFormed.node src
  | .decisionAck _ _ => true
  | .txnPublish => true
  | .armTime page word => WellFormed.page page && WellFormed.word word
  | .armDesc page word => WellFormed.page page && WellFormed.word word
  | .swapNow page word => WellFormed.page page && WellFormed.word word
  | .disarm page word => WellFormed.page page && WellFormed.word word
  | .shadowSwap page => WellFormed.page page
  | .matmul strand _ => WellFormed.strand strand
  | .spmm strand _ _ => WellFormed.strand strand
  | .matmulS28 strand _ => WellFormed.strand strand
  | .spConvert strand => WellFormed.strand strand
  | .threshTune quarter _ => WellFormed.quarter quarter
  | .marginAdapt => true
  | .sample strand => WellFormed.strand strand
  | .sampleRemoteRequest dst wadi _ => WellFormed.node dst && WellFormed.wadi wadi
  | .sampleRemoteAnswer dst _ => WellFormed.node dst
  | .embLookup strand => WellFormed.strand strand
  | .embLookupRequest dst _ => WellFormed.node dst
  | .embLookupAnswer dst src _ => WellFormed.node dst && WellFormed.node src
  | .embGrad strand => WellFormed.strand strand
  | .embBagGradient dst _ => WellFormed.node dst
  | .embContribution dst _ => WellFormed.node dst
  | .embFlush dst src _ _ => WellFormed.node dst && WellFormed.node src
  | .updateWindowStage1 strand => WellFormed.strand strand
  | .embForwardFlush dst src _ _ => WellFormed.node dst && WellFormed.node src
  | .updateWindowStage2 strand => WellFormed.strand strand
  | .embUpdate strand => WellFormed.strand strand
  | .embSync strand => WellFormed.strand strand
  | .migrationSelect _ _ => true
  | .migrationCopy dst _ => WellFormed.node dst
  | .migrationVerdict _ _ _ => true
  | .migrationNotice dst _ => WellFormed.node dst
  | .forwardEnd _ _ => true
  | .laneLaunch strand => WellFormed.strand strand
  | .groupDispatch strand => WellFormed.strand strand
  | .deferredAddApply strand => WellFormed.strand strand
  | .laneSave strand => WellFormed.strand strand
  | .laneRestore strand => WellFormed.strand strand
  | .add strand _ fails => WellFormed.strand strand && WellFormed.word fails
  | .sub strand _ fails => WellFormed.strand strand && WellFormed.word fails
  | .mul strand _ fails => WellFormed.strand strand && WellFormed.word fails
  | .fma strand _ fails => WellFormed.strand strand && WellFormed.word fails
  | .fms strand _ fails => WellFormed.strand strand && WellFormed.word fails
  | .div strand _ fails => WellFormed.strand strand && WellFormed.word fails
  | .sqrt strand _ fails => WellFormed.strand strand && WellFormed.word fails
  | .min strand _ fails => WellFormed.strand strand && WellFormed.word fails
  | .max strand _ fails => WellFormed.strand strand && WellFormed.word fails
  | .abs strand _ fails => WellFormed.strand strand && WellFormed.word fails
  | .neg strand _ fails => WellFormed.strand strand && WellFormed.word fails
  | .exp2 strand _ fails => WellFormed.strand strand && WellFormed.word fails
  | .log2 strand _ fails => WellFormed.strand strand && WellFormed.word fails
  | .rsqrt strand _ fails => WellFormed.strand strand && WellFormed.word fails
  | .iadd strand _ fails => WellFormed.strand strand && WellFormed.word fails
  | .isub strand _ fails => WellFormed.strand strand && WellFormed.word fails
  | .imul strand _ fails => WellFormed.strand strand && WellFormed.word fails
  | .imacc strand _ fails => WellFormed.strand strand && WellFormed.word fails
  | .ihigh strand _ fails => WellFormed.strand strand && WellFormed.word fails
  | .and strand _ fails => WellFormed.strand strand && WellFormed.word fails
  | .or strand _ fails => WellFormed.strand strand && WellFormed.word fails
  | .xor strand _ fails => WellFormed.strand strand && WellFormed.word fails
  | .shl strand _ fails => WellFormed.strand strand && WellFormed.word fails
  | .shr strand _ fails => WellFormed.strand strand && WellFormed.word fails
  | .sar strand _ fails => WellFormed.strand strand && WellFormed.word fails
  | .imin strand _ fails => WellFormed.strand strand && WellFormed.word fails
  | .imax strand _ fails => WellFormed.strand strand && WellFormed.word fails
  | .bitcnt strand _ fails => WellFormed.strand strand && WellFormed.word fails
  | .inshi strand _ fails => WellFormed.strand strand && WellFormed.word fails
  | .mov strand _ fails => WellFormed.strand strand && WellFormed.word fails
  | .scalarIadd strand _ fails => WellFormed.strand strand && WellFormed.word fails
  | .scalarIsub strand _ fails => WellFormed.strand strand && WellFormed.word fails
  | .scalarImul strand _ fails => WellFormed.strand strand && WellFormed.word fails
  | .scalarImacc strand _ fails => WellFormed.strand strand && WellFormed.word fails
  | .scalarIhigh strand _ fails => WellFormed.strand strand && WellFormed.word fails
  | .scalarAnd strand _ fails => WellFormed.strand strand && WellFormed.word fails
  | .scalarOr strand _ fails => WellFormed.strand strand && WellFormed.word fails
  | .scalarXor strand _ fails => WellFormed.strand strand && WellFormed.word fails
  | .scalarShl strand _ fails => WellFormed.strand strand && WellFormed.word fails
  | .scalarShr strand _ fails => WellFormed.strand strand && WellFormed.word fails
  | .scalarSar strand _ fails => WellFormed.strand strand && WellFormed.word fails
  | .scalarImin strand _ fails => WellFormed.strand strand && WellFormed.word fails
  | .scalarImax strand _ fails => WellFormed.strand strand && WellFormed.word fails
  | .scalarBitcnt strand _ fails => WellFormed.strand strand && WellFormed.word fails
  | .scalarInshi strand _ fails => WellFormed.strand strand && WellFormed.word fails
  | .scalarMov strand _ fails => WellFormed.strand strand && WellFormed.word fails
  | .cvt strand _ fails => WellFormed.strand strand && WellFormed.word fails
  | .i2f strand _ fails => WellFormed.strand strand && WellFormed.word fails
  | .u2f strand _ fails => WellFormed.strand strand && WellFormed.word fails
  | .f2i strand _ fails => WellFormed.strand strand && WellFormed.word fails
  | .f2u strand _ fails => WellFormed.strand strand && WellFormed.word fails
  | .feq strand _ fails => WellFormed.strand strand && WellFormed.word fails
  | .flt strand _ fails => WellFormed.strand strand && WellFormed.word fails
  | .fle strand _ fails => WellFormed.strand strand && WellFormed.word fails
  | .fne strand _ fails => WellFormed.strand strand && WellFormed.word fails
  | .fun strand _ fails => WellFormed.strand strand && WellFormed.word fails
  | .ieq strand _ fails => WellFormed.strand strand && WellFormed.word fails
  | .ilt strand _ fails => WellFormed.strand strand && WellFormed.word fails
  | .iltu strand _ fails => WellFormed.strand strand && WellFormed.word fails
  | .sel strand _ fails => WellFormed.strand strand && WellFormed.word fails
  | .pand strand _ fails => WellFormed.strand strand && WellFormed.word fails
  | .por strand _ fails => WellFormed.strand strand && WellFormed.word fails
  | .pxor strand _ fails => WellFormed.strand strand && WellFormed.word fails
  | .pandn strand _ fails => WellFormed.strand strand && WellFormed.word fails
  | .p2s strand _ fails => WellFormed.strand strand && WellFormed.word fails
  | .s2p strand _ fails => WellFormed.strand strand && WellFormed.word fails
  | .ld strand _ fails => WellFormed.strand strand && WellFormed.word fails
  | .st strand _ fails => WellFormed.strand strand && WellFormed.word fails
  | .lde strand _ fails => WellFormed.strand strand && WellFormed.word fails
  | .ste strand _ fails => WellFormed.strand strand && WellFormed.word fails
  | .lds strand _ fails => WellFormed.strand strand && WellFormed.word fails
  | .ldse strand _ fails => WellFormed.strand strand && WellFormed.word fails
  | .fence strand _ fails => WellFormed.strand strand && WellFormed.word fails
  | .xlPick strand _ fails => WellFormed.strand strand && WellFormed.word fails
  | .xlLag strand _ fails => WellFormed.strand strand && WellFormed.word fails
  | .xlLead strand _ fails => WellFormed.strand strand && WellFormed.word fails
  | .xlSwap strand _ fails => WellFormed.strand strand && WellFormed.word fails
  | .xlFsum strand _ fails => WellFormed.strand strand && WellFormed.word fails
  | .xlFmin strand _ fails => WellFormed.strand strand && WellFormed.word fails
  | .xlFmax strand _ fails => WellFormed.strand strand && WellFormed.word fails
  | .xlFpre strand _ fails => WellFormed.strand strand && WellFormed.word fails
  | .xlIsum strand _ fails => WellFormed.strand strand && WellFormed.word fails
  | .xlIpre strand _ fails => WellFormed.strand strand && WellFormed.word fails
  | .xlVote strand _ fails => WellFormed.strand strand && WellFormed.word fails
  | .xlRead strand _ fails => WellFormed.strand strand && WellFormed.word fails
  | .rndp strand _ fails => WellFormed.strand strand && WellFormed.word fails
  | .rndl strand _ fails => WellFormed.strand strand && WellFormed.word fails
  | .rndu strand _ fails => WellFormed.strand strand && WellFormed.word fails
  | .rndb strand _ fails => WellFormed.strand strand && WellFormed.word fails
  | .aaddI strand _ fails => WellFormed.strand strand && WellFormed.word fails
  | .aaddF strand _ fails => WellFormed.strand strand && WellFormed.word fails
  | .aaddeI strand _ fails => WellFormed.strand strand && WellFormed.word fails
  | .aaddeF strand _ fails => WellFormed.strand strand && WellFormed.word fails
  | .bra strand _ fails => WellFormed.strand strand && WellFormed.word fails
  | .jmp strand _ fails => WellFormed.strand strand && WellFormed.word fails
  | .jmps strand _ fails => WellFormed.strand strand && WellFormed.word fails
  | .exit strand _ fails => WellFormed.strand strand && WellFormed.word fails
  | .laneNop strand _ fails => WellFormed.strand strand && WellFormed.word fails
  | .flagsRd strand _ fails => WellFormed.strand strand && WellFormed.word fails
  | .flagsClr strand _ fails => WellFormed.strand strand && WellFormed.word fails
  | .actStash strand => WellFormed.strand strand
  | .actFetch strand => WellFormed.strand strand
  | .spareAnnounce _ => true
  | .rngRound strand => WellFormed.strand strand
  | .rngDerive strand => WellFormed.strand strand
  | .rngFill strand => WellFormed.strand strand
  | .rngLaneSeed strand => WellFormed.strand strand
  | .copy strand => WellFormed.strand strand
  | .fill strand => WellFormed.strand strand
  | .prefetch strand => WellFormed.strand strand
  | .writeback strand => WellFormed.strand strand
  | .discard strand => WellFormed.strand strand
  | .unpin strand => WellFormed.strand strand
  | .setHint strand => WellFormed.strand strand
  | .skew strand => WellFormed.strand strand
  | .allreduce strand => WellFormed.strand strand
  | .reduceScatter strand => WellFormed.strand strand
  | .allgather strand => WellFormed.strand strand
  | .broadcast strand => WellFormed.strand strand
  | .permute strand => WellFormed.strand strand
  | .alltoall strand => WellFormed.strand strand
  | .collectivePacket dst port _ => WellFormed.node dst && WellFormed.port port
  | .collectiveAbort dst _ _ => WellFormed.node dst
  | .layoutChange => true
  | .interleaveChange group => WellFormed.ilvGroup group
  | .interleaveFillEnd group => WellFormed.ilvGroup group
  | .lastDrop addr => WellFormed.address addr
  | .hiddenRetrain chan _ _ => WellFormed.channel chan
  | .fullRetrainEnd chan _ _ => WellFormed.channel chan
  | .memRetrainReq quarter word => WellFormed.quarter quarter && WellFormed.word word
  | .tgStart quarter word => WellFormed.quarter quarter && WellFormed.word word
  | .tgAll quarter word => WellFormed.quarter quarter && WellFormed.word word
  | .tgStop quarter word => WellFormed.quarter quarter && WellFormed.word word
  | .tgDone chan _ _ _ => WellFormed.channel chan
  | .correctionWrite addr => WellFormed.address addr
  | .ergCorrectionRewrite addr => WellFormed.address addr
  | .bucketLeak quarter => WellFormed.quarter quarter
  | .mergeWindowExpire addr => WellFormed.address addr
  | .scrubRead quarter unit _ => WellFormed.quarter quarter && WellFormed.memUnit unit
  | .scrubLapEnd quarter unit => WellFormed.quarter quarter && WellFormed.memUnit unit
  | .lapSlow quarter unit => WellFormed.quarter quarter && WellFormed.memUnit unit
  | .historyExpire quarter unit => WellFormed.quarter quarter && WellFormed.memUnit unit
  | .rowRemap chan bank row => WellFormed.channel chan && WellFormed.bank bank && WellFormed.memRow row
  | .repairRecordWrite _ => true
  | .codewordReceive port word _ => WellFormed.port port && word.flits.length == 640 && decide (word.count < 2 ^ 20)
  | .packetReceive port _ => WellFormed.port port
  | .ack port seq => WellFormed.port port && WellFormed.seq seq
  | .nak port seq => WellFormed.port port && WellFormed.seq seq
  | .credit port wadi cls _ => WellFormed.port port && WellFormed.wadi wadi && WellFormed.cls cls
  | .heartbeat port => WellFormed.port port
  | .heartbeatSend port => WellFormed.port port
  | .ident port node _ => WellFormed.port port && WellFormed.node node
  | .abortEnd port seq wadi => WellFormed.port port && WellFormed.seq seq && WellFormed.wadi wadi
  | .heartbeatTimeout port => WellFormed.port port
  | .lossOfSignal port => WellFormed.port port
  | .lossOfAlignment port => WellFormed.port port
  | .lightLoss input => WellFormed.laser input
  | .portRetrain port => WellFormed.port port
  | .retrain quarter word => WellFormed.quarter quarter && WellFormed.word word
  | .trainingComplete port _ _ => WellFormed.port port
  | .seifCredit quarter word => WellFormed.quarter quarter && WellFormed.word word
  | .unreachableNotice strand => WellFormed.strand strand
  | .mirrorBlock _ => true
  | .mirrorAck addr _ => WellFormed.address addr
  | .mirrorResendRequest addr => WellFormed.address addr
  | .restartReady node _ => WellFormed.node node
  | .restartStart _ _ => true
  | .readyTimeout => true
  | .jobStop => true
  | .twinHeartbeatSend => true
  | .twinHeartbeat => true
  | .twinLoss => true
  | .resign => true
  | .twinResign => true
  | .failoverReq lost stand _ => WellFormed.node lost && WellFormed.node stand
  | .failover lost stand _ _ => WellFormed.node lost && WellFormed.node stand
  | .handback lost stand _ => WellFormed.node lost && WellFormed.node stand
  | .form => true
  | .detach => true
  | .attach => true
  | .fillEnd => true
  | .controlPeriod _ => true
  | .avsSample _ => true
  | .powerEstimate _ => true
  | .freqStep => true
  | .thermalLoop _ _ => true
  | .droopDetect reading => WellFormed.quarter reading.quarter
  | .droopEnd quarter => WellFormed.quarter quarter
  | .rampAdmit => true
  | .columnEnable quarter => WellFormed.quarter quarter
  | .throttleAssert => true
  | .throttleRelease => true
  | .thermalTrip _ _ => true
  | .avsTimeout rail => WellFormed.rail rail
  | .gpioPulseEnd => true
  | .trefPpsLoss => true
  | .lightReturn input => WellFormed.laser input
  | .twinFormExchange _ => true
  | .embContributionAck dst _ _ _ => WellFormed.node dst
  | .migrationCopyAck dst _ _ _ => WellFormed.node dst
  | .twinStashTransfer _ => true
  | .stashAnswer _ => true
  | .hostReadCompletion strand _ _ _ => WellFormed.strand strand
  | .permuteAck dst _ _ _ => WellFormed.node dst
  | .remapCopyEnd chan bank row => WellFormed.channel chan && WellFormed.bank bank && WellFormed.memRow row
  | .pcieLinkRecovery _ => true
  | .laneReservedOpcode strand _ => WellFormed.strand strand

end Sys2Proof
end

