-- ==== Sys2Proof/Tests/Slice0.lean ====
section
/-!
SUPPORT. Tests: ill-formed commands that are refused as such; the spec's worked examples; for every statement with hypotheses, states and operands that meet them
(`test_witness_<statement>`), at boundary values where a clause has a range; and small checks of single commands.
-/
namespace Sys2Proof.Tests
open Sys2Proof Sys2Proof.Machine

set_option Elab.async false

/-! ### Builders -/

/-- A device past boot, 70 s after reset, with its core changed by `f`. -/
def booted (f : Core → Core) : State :=
  let s := State.reset
  { s with core := f { s.core.setFld Reg.bootStatus 0 4 11 with up := 70000000000, ct := 123456789 } }

/-- A device past boot. -/
def live : State := booted (fun c => c)

/-- A descriptor with the given (byte, bit, value) fields. -/
def desc (l : List (Nat × Nat × Nat)) : BitVec 512 := BitVec.ofNat 512 (l.foldl (fun n e => n + e.2.2 * 2 ^ (8 * e.1 + e.2.1)) 0)

/-- Strand `k` in a phase with a descriptor. -/
def at_ (s : State) (k : Nat) (p : Phase) (l : List (Nat × Nat × Nat)) : State := s.setStrand k (fun t => { t with phase := p, desc := desc l })

/-- A live device whose strand `k` is ready with a descriptor of opcode `op`. -/
def ready (k op : Nat) (l : List (Nat × Nat × Nat) := []) : State := at_ live k .ready ((0, 0, op) :: l)

/-- The state a step answers; reset's where it answers none. -/
def got (o : Host.Outcome State Fault Refusal) : State := match o with | .next t => t | _ => State.reset

/-- Whether a command answers a next state. -/
def goes (o : Host.Outcome State Fault Refusal) : Bool := match o with | .next _ => true | _ => false

/-- A measure of a control period. -/
def measure : PeriodMeasure := { pkg := 1300, base := 240, link := 150, mem := 390, compute := 950 }

/-- A thread group with thread `t` holding `v t` in register `r`, its active threads `m`. -/
def group (m r : Nat) (v : Nat → Nat) : LaneGroup := { g := 0, active := m, v := (upto 32).map (fun t => (r * 32 + t, v t)), s := [(7, 3)] }

/-- A launch of one group on quarter 1, with 16 vector registers. -/
def launch : LaneRun := { strand := 0, quarter := 1, desc := desc [(27, 0, 1), (28, 0, 1)], procFirst := 0, procCount := 1 }

/-- That group as an instruction sees it. -/
def lx (g : LaneGroup) : Lx := { x := live.dx 0, run := launch, g := g }

/-! ### Ill-formed commands -/

theorem test_wf_accepts : (Instr.nop 63).wf = true ∧ (Instr.registerWrite (2 ^ 26 - 4) (2 ^ 32 - 1) 15).wf = true ∧ (Instr.rowRemap 255 31 49151).wf = true
    ∧ (Instr.scrubRead 3 64 0).wf = true ∧ (Instr.credit 31 15 1 8191).wf = true := by decide
theorem test_wf_refuses_strand : (Instr.nop 64).wf = false := by decide
theorem test_wf_refuses_quarter : (Instr.droopDetect ⟨4, 0⟩).wf = false := by decide
theorem test_wf_refuses_port : (Instr.heartbeat 32).wf = false := by decide
theorem test_wf_refuses_node : (Instr.restartReady 65536 0).wf = false := by decide
theorem test_wf_refuses_wadi : (Instr.credit 0 16 0 1).wf = false := by decide
theorem test_wf_refuses_class : (Instr.credit 0 0 2 1).wf = false := by decide
theorem test_wf_refuses_seq : (Instr.ack 0 4096).wf = false := by decide
theorem test_wf_refuses_page : (Instr.lock 16384).wf = false := by decide
theorem test_wf_refuses_offset : (Instr.smbusAddr 2).wf = false ∧ (Instr.smbusAddr (2 ^ 26)).wf = false := by decide
theorem test_wf_refuses_word : (Instr.cpEventAdd (2 ^ 32)).wf = false := by decide
theorem test_wf_refuses_enables : (Instr.registerWrite 0x5040 0 16).wf = false := by decide
theorem test_wf_refuses_reader : (Instr.latchedLoRead 2 0x4040 0).wf = false := by decide
theorem test_wf_refuses_watch : (Instr.watchFire 8).wf = false := by decide
theorem test_wf_refuses_slot : (Instr.ownerProg 8 0).wf = false := by decide
theorem test_wf_refuses_owner_op : (Instr.ownerProg 4 4).wf = false := by decide
theorem test_wf_refuses_flag : (Instr.start 0 2 0).wf = false := by decide
theorem test_wf_refuses_address : (Instr.lastDrop (2 ^ 48)).wf = false := by decide
theorem test_wf_refuses_channel : (Instr.hiddenRetrain 256 0 []).wf = false := by decide
theorem test_wf_refuses_bank : (Instr.rowRemap 0 32 0).wf = false := by decide
theorem test_wf_refuses_row : (Instr.rowRemap 0 0 49152).wf = false := by decide
theorem test_wf_refuses_group : (Instr.interleaveChange 96).wf = false := by decide
theorem test_wf_refuses_unit : (Instr.scrubLapEnd 0 65).wf = false := by decide
theorem test_wf_refuses_laser : (Instr.lightLoss 8).wf = false := by decide
theorem test_wf_refuses_rail : (Instr.avsTimeout 10).wf = false := by decide

/-! ### The spec's worked examples -/

/-- Ch. "Number formats": 0x3DCC_CCCD under rounding code 0. -/
theorem test_round_nearest : (upto 7).map (fun f => (convBits 1 f Rnd.nearest 0x3DCCCCCD).bits) = [0x3FB99999A0000000, 0x3DCCCCCD, 0x3DCCCD00, 0x3DCD, 0x2E66, 0x32, 0x1D] := by
  decide +kernel
/-- Ch. "Number formats": four copies of 0x3DCC_CCCD under shared stochastic bits. -/
theorem test_round_stochastic :
    (upto 4).map (fun j => (convBits 1 3 { code := 4, draw := 0x123456789ABCDEF0, lane := j } 0x3DCCCCCD).bits) = [0x3DCC, 0x3DCD, 0x3DCD, 0x3DCD]
    ∧ (upto 2).map (fun j => (convBits 1 6 { code := 4, draw := 0x123456789ABCDEF0, lane := j } 0x3DCCCCCD).bits) = [0x1C, 0x1D] := by decide +kernel
/-- Ch. "Number formats": the B8 block of 3.3, -0.7 and 0.01. -/
theorem test_b8_block : (encodeB8 (fun _ => Rnd.nearest) (fun _ => -40)
    ([decodeBits 1 0x40533333, decodeBits 1 0xBF333333, decodeBits 1 0x3C23D70A] ++ List.replicate 29 Fp.zero)) = (0x80, [0x6A, 0xEA] ++ List.replicate 30 0) := by decide +kernel
/-- Ch. "The matrix array": the split of 0x3DCC_CCCD. -/
theorem test_split : (pieces (decodeBits 1 0x3DCCCCCD)).map (fun x => (roundTo 3 Rnd.nearest 0 x).bits) = [0x3DCC, 0x39CC, 0x35CD] := by decide +kernel
/-- Ch. "Stacked memory and the Erg store": 0x0012_3456_7890 in a DEVICE group. -/
theorem test_interleave : dramChan 0 0x001234567890 = (8, 0x12345690) ∧ dramAddr 0 8 0x12345690 = 0x001234567890
    ∧ field 0x12345690 15 16 = 9320 ∧ field 0x12345690 10 5 = 21 ∧ field 0x12345690 0 10 = 656 := by decide +kernel
/-- Ch. "Random numbers": a lane-keyed state reset to 1 after one single step; the counters of a row output. -/
theorem test_lane_state : lfsrStep 1 = 0x80200003 ∧ laneState [] 0 = 1 ∧ counter 0xF042 0x1000 = 0xF042000000001000 := by decide +kernel
/-- Ch. "Power": the allocation of a cap of 1,300 W, in the default order with a link floor of 90 W, and in the other order. -/
theorem test_allocation : (State.reset.core.setFld Reg.pwrOrder 16 8 90).allocate 1300 measure = [150, 390, 520]
    ∧ ((State.reset.core.setFld Reg.pwrOrder 16 8 90).setFld Reg.pwrOrder 0 6 0x06).allocate 1300 measure = [90, 20, 950] := by decide +kernel
/-- Ch. "Host interface": a BAR 2 window of 64 GiB at 256 GiB. -/
theorem test_window : ({ booted (fun c => c.setReg Reg.hostB2winHi 0x40) with host := { live.host with bar2 := 36 } }).winAddr false 0x123456780 4 = some 0x004123456780 := by
  decide +kernel
/-- Ch. "Lane instructions": FMA.FP32 v10 from v4, s7, v10 gated by p2. -/
theorem test_lane_fields : let i : LWord := { w := 0x0345040E29100000 }
    i.grp = 0 ∧ i.op = 3 ∧ i.k = 1 ∧ i.dst = 10 ∧ i.s1 = 4 ∧ i.s2 = 7 ∧ i.s3 = 10 ∧ i.pred = 2 ∧ i.fmt = 1 ∧ i.rnd = 0 ∧ i.imm = 0 ∧ i.reserved = false := by decide
/-- Ch. "Lane instructions": the sum and the scan of 1, 2^-24, 2^-24, 2^-24 in threads 0 to 3. -/
theorem test_lane_sum_and_scan :
    let g := group 0xF 4 (fun t => if t = 0 then 0x3F800000 else 0x33800000)
    (laneCross (lx g) { w := 0x5400000000000000 + 5 * 2 ^ 47 + 4 * 2 ^ 40 + 2 ^ 20 }).v 5 3 = 0x3F800001
    ∧ (laneCross (lx g) { w := 0x5700000000000000 + 5 * 2 ^ 47 + 4 * 2 ^ 40 + 2 ^ 20 }).v 5 3 = 0x3F800000 := by decide +kernel
/-- Ch. "Seif links": in a torus of 32 x 32 x 48, (0, 0, 0) to (16, 16, 24) leaves on port 2, (16, 0, 0) on port 10, and (16, 16, 0) on port 18. -/
theorem test_torus_route :
    let c (n : Nat) : Core := [2, 10, 18].foldl (fun (c : Core) p => c.setFld (portKey p Reg.seifPortState) 0 3 2)
      ((State.reset.core.setReg (Reg.seifTopo 0) (31 + 31 * 2 ^ 5 + 47 * 2 ^ 10 + 2 ^ 16)).setFld (Reg.seifNode 0) 0 16 n)
    (c 0).route 0x6210 0 2 0 0 none none = .exits 2 0 ∧ (c 16).route 0x6210 0 2 0 0 none (some 6) = .exits 10 0
    ∧ (c 0x210).route 0x6210 0 2 0 0 none (some 14) = .exits 18 0 := by decide +kernel
/-- Ch. "The device": the wait event 0x0003_2005. -/
theorem test_wait_event : dfld (desc [(4, 0, 0x00032005)]) 4 0 12 = 5 ∧ dfld (desc [(4, 0, 0x00032005)]) 4 12 20 = 50
    ∧ leBytes 4 0x00032005 = [0x05#8, 0x20#8, 0x03#8, 0x00#8] := by decide +kernel

/-! ### Witnesses: the queue, reset, codes and maps -/

theorem test_witness_StepTakesFront : ∃ t, step { live with pending := [.nop 0, .nop 1] } = .next t := ⟨_, rfl⟩
theorem test_witness_IdlePasses :
    let late : State := { live with core := { live.core with ct := 2 ^ 64 - 3 } }
    let held : State := { live with sync := { live.sync with hold := 1 } }
    live.pending = [] ∧ late.pending = [] ∧ held.pending = [] ∧ late.sync.slew = 0 ∧ late.sync.freqErr = 0 ∧ late.sync.hold = 0 ∧ late.core.ct + 1 < 2 ^ 64 ∧ late.core.ct + 2 < 2 ^ 64
    ∧ held.sync.hold ≠ 0 := by decide
theorem test_witness_FinishOfQuiet : live.quiet live.core.faults = true ∧ State.reset.quiet 0 = true := by decide +kernel
theorem test_witness_ResetState : (63 : Nat) < 64 := by decide
theorem test_witness_StepKeepsSound : live.Sound ∧ (∃ t, step live = .next t) ∧ ({ live with mgmt := { live.mgmt with fuses := { lifecycle := 4, svnMin := 64 } } } : State).Sound :=
  ⟨by unfold State.Sound; decide +kernel, ⟨_, rfl⟩, by unfold State.Sound; decide +kernel⟩
theorem test_witness_FusesOnlyBurn : ∃ t, step { live with pending := [.ownerProgDone] } = .next t := ⟨_, rfl⟩
theorem test_witness_LocksHold :
    let s : State := { live with mgmt := { live.mgmt with locks := [3] } }
    3 ∈ s.mgmt.locks ∧ (∃ t, exec (.lock 0) s = .next t) ∧ (∃ t, exec (.coldReset {}) s = .next t) ∧ (∃ t, exec .warmReset s = .next t) :=
  ⟨by decide, ⟨_, rfl⟩, ⟨_, rfl⟩, ⟨_, rfl⟩⟩
/-- The six clauses of the decision table; the three errors in bits 0, 1 and 2 meet the last. -/
theorem test_witness_EccTable_syndromes :
    let p (n : Nat) := syndromes (BitVec.ofNat 80 n)
    (p 0 = (0, 0, 0)) ∧ (p (2 ^ 79) = (0, 0, 1)) ∧ (p (2 ^ 78) = (gfPow 78, gfPow (3 * 78), 1)) ∧ (p (2 ^ 78 + 2 ^ 79) = (gfPow 78, gfPow (3 * 78), 0))
    ∧ (p (1 + 2 ^ 78) = (gfPow 0 ^^^ gfPow 78, gfPow (3 * 0) ^^^ gfPow (3 * 78), 0)) := by decide +kernel
theorem test_witness_EccTable_uncorrectable :
    let p := syndromes (BitVec.ofNat 80 7)
    p.2.2 = 1 ∧ ¬(p.1 = 0 ∧ p.2.1 = 0) ∧ (∀ i, i ≤ 78 → ¬(gfPow i = p.1 ∧ gfPow (3 * i) = p.2.1)) := by decide +kernel
theorem test_witness_EccTable_patterns : (79 : Nat) < 80 ∧ (78 : Nat) < 79 ∧ eccDecide (BitVec.ofNat 80 (2 ^ 78 + 2 ^ 79)) = .corrected (2 ^ 78 + 2 ^ 79) 78 79
    ∧ eccDecide (BitVec.ofNat 80 (2 ^ 77 + 2 ^ 78 + 2 ^ 79)) = .uncorrectable := by decide +kernel
theorem test_witness_InterleaveMap : (95 : Nat) < 96 ∧ 2 ^ 32 - 1 < 2 ^ 32 ∧ (0 : BitVec 96).getLsbD 95 = false ∧ (BitVec.allOnes 96).getLsbD 95 = true
    ∧ dramEnd - 1 < dramEnd ∧ (255 : Nat) < 256 ∧ 96 * 2 ^ 24 - 1 < 96 * 2 ^ 24 ∧ (3 : Nat) < 4 ∧ 2 ^ 30 - 1 < 2 ^ 30 := by decide
theorem test_witness_RepairRecord :
    let m : Remap := { chan := 255, bank := 31, row := 65535, spare := 7, bad := 255 }
    let r : RepairCopy := { seq := 2 ^ 32 - 1, remaps := [m, { chan := 0, bank := 0, row := 0, spare := 0, bad := 0 }], retired := [0, 2 ^ 32 - 1] }
    r.seq < 2 ^ 32 ∧ r.remaps.length ≤ 65536 ∧ r.retired.length ≤ 4096 ∧ (∀ m ∈ r.remaps, m.chan < 256 ∧ m.bank < 32 ∧ m.row < 65536 ∧ m.spare < 8 ∧ m.bad < 256)
    ∧ (∀ p ∈ r.retired, p < 2 ^ 32) := by decide
theorem test_witness_BytesReadBack : Memory.wf [(5, 1#8)] ∧ place (ergAddr 3 (511 * 2 ^ 20 - 8)) = .erg 3 (511 * 2 ^ 20 - 8) ∧ ergAddr 3 (511 * 2 ^ 20 - 8) % 8 = 0
    ∧ ([0, 1, 2, 3, 4, 5, 6, 7] : List Byte).length % 8 = 0 ∧ place (ergAddr 0 0) = .erg 0 0 ∧ 0 + 8 ≤ live.core.top 0
    ∧ live.core.filling (ergAddr 0 0) 8 = false ∧ live.core.parkedAt (ergAddr 0 0) 8 false = false := by
  unfold Memory.wf; decide +kernel

/-! ### Witnesses: registers and the host -/

theorem test_witness_RegistersReadBack : sorted 0 live.core.regs = true := by decide +kernel
theorem test_witness_RegisterWrites_plain : ∃ d, Names Reg.cpTimeout 5 0 d ∧ live.live = true ∧ ownEffect 5 Reg.cpTimeout = false ∧ d.rws = 0 ∧ d.q0 = false :=
  ⟨{ blk := 5, off := 0x4C, reset := 0x2710, rw := 0xFFFFFFFF }, ⟨by decide, by decide, by decide +kernel, by decide +kernel⟩, by decide +kernel⟩
theorem test_witness_RegisterWrites_quarter : ∃ d, Names (Reg.memChSel 3) 0x16 3 d ∧ ownEffect 0x16 (Reg.memChSel 3) = false ∧ d.rws = 0 ∧ d.q0 = false :=
  ⟨{ blk := 0x16, off := Reg.memChSel 3 % 4096, rw := 63 }, ⟨by decide, by decide, by decide +kernel, by decide +kernel⟩, by decide +kernel⟩
theorem test_witness_RegisterWrites_staged : ∃ d, Names Reg.pwrCap 6 0 d ∧ ownEffect 6 Reg.pwrCap = false ∧ d.rws ≠ 0 :=
  ⟨{ blk := 6, off := 0x40, reset := 0x5DC, rws := 0x7FF }, ⟨by decide, by decide, by decide +kernel, by decide +kernel⟩, by decide +kernel⟩
theorem test_witness_RegisterWrites_partial : live.live = true ∧ 14 % 16 ≠ 15 := by decide +kernel
theorem test_witness_PageCommands : live.live = true ∧ live.Calm ∧ pageBlock 0x169 = some (0x19, 3) ∧ pageBlock 5 = some (5, 0) ∧ pageBlock 6 = some (6, 0) ∧ pageBlock 0 = some (0, 0)
    ∧ pageBlock 8 = some (8, 0) ∧ 2 ^ 32 - 1 < 2 ^ 32 := by unfold State.Calm; decide +kernel
theorem test_witness_HighHalvesLatch : ∃ lo hi, Names Reg.ctNowLo 4 0 lo ∧ Names (Reg.ctNowLo + 4) 4 0 hi ∧ hi.hi = true ∧ live.live = true :=
  ⟨{ blk := 4, off := 0x40 }, { blk := 4, off := 0x44, hi := true }, ⟨by decide, by decide, by decide +kernel, by decide +kernel⟩,
    ⟨by decide, by decide, by decide +kernel, by decide +kernel⟩, by decide +kernel⟩
theorem test_witness_HostMemory : live.live = true ∧ live.awake = true ∧ live.winAddr true (2 ^ 31 - 8) 8 = some (ergBase + 2 ^ 31 - 8)
    ∧ inLog (ergBase + 2 ^ 31 - 8) = true ∧ inLog (ergBase + 2 ^ 20) = false ∧ live.winAddr true (2 ^ 20) 64 = some (ergBase + 2 ^ 20) ∧ live.core.readWaits (ergBase + 2 ^ 20) 64 = false
    ∧ live.winAddr true (2 ^ 31 - 7) 8 = none ∧ live.winAddr false (2 ^ 28 - 4) 8 = none ∧ live.winAddr false 0 64 = some 0 ∧ inLog 0 = false
    ∧ live.core.readWaits 0 64 = false ∧ live.core.filling 0 8 = false ∧ live.core.parkedAt 0 8 false = false ∧ (live.core.store { q := 0, src := 2 } 0 [1, 2, 3, 4, 5, 6, 7, 8]).stall = false
    ∧ (live.core.read { q := 0, src := 2 } (ergBase + 2 ^ 20) 64).1.stall = false ∧ { live.core with ilvFill := [0] }.filling 0 8 = true := by decide +kernel
theorem test_witness_Resets : live.mgmt.held = false ∧ live.awake = true ∧ live.live = true ∧ State.reset.mgmt.held = false ∧ State.reset.awake = true := by decide +kernel
/-- Rails at their nominals pass; none at all fail. -/
theorem test_witness_Boot : State.reset.mgmt.held = false ∧ State.reset.core.fld Reg.bootStatus 0 4 = 1
    ∧ State.reset.supplyFault { rails := State.reset.nominals, between := 200, tref := some (100, 100) } = none
    ∧ State.reset.supplyFault { rails := [], between := 0 } = some (1, 0) ∧ (8 : Nat) < 9
    ∧ ({ State.reset with mgmt := { bootDone := true }, core := State.reset.core.setFld Reg.bootStatus 0 4 10 } : State).core.fld Reg.bootStatus 0 4 = 10 := by decide +kernel
theorem test_witness_SecurityRequests : live.live = true ∧ live.core.fld Reg.hostAttestCtrl 1 1 = 0 ∧ live.mgmt.ownerAt = none
    ∧ ({ live with mgmt := { live.mgmt with attestAt := some 5, ownerAt := some 6 } } : State).live = true := by decide +kernel
theorem test_witness_OwnerSlots : 4 ≤ 4 ∧ 7 < 8 ∧ ({} : Fuses).lifecycle = 0 ∧ ({ lifecycle := 4 } : Fuses).lifecycle ≥ 3 ∧ ({ lifecycle := 1 } : Fuses).programmed.getLsbD 7 = false
    ∧ ({ lifecycle := 2, programmed := 0x10 } : Fuses).programmed.getLsbD 4 = true ∧ ({} : Fuses).ownerHash.length = 4 := by decide
theorem test_witness_Smbus : State.reset.Calm ∧ State.reset.mgmt.smbOffset / 4 * 4 / 4096 = 0 ∧ 0x1FFC / 4 * 4 / 4096 = 1 ∧ 0x6040 / 4 * 4 / 4096 = 6
    ∧ ¬(0x2040 / 4 * 4 / 4096 = 0 ∨ 0x2040 / 4 * 4 / 4096 = 1 ∨ 0x2040 / 4 * 4 / 4096 = 6) := by unfold State.Calm; decide +kernel
theorem test_witness_LinkVectorsWatches :
    let s := booted (fun c => ((c.setFld Reg.hostLink 0 3 1).setBit (bankKey 7 Reg.hostWatchCfg) 31 true).setReg (bankKey 7 Reg.hostWatchThresh) 9)
    let u : State := { s with host := { s.host with msixEn := true, bme := true }, core := (upto 64).foldl (fun c v => c.setReg (msixKey v 3) 0) s.core }.setEvent 0 9
    u.live = true ∧ u.awake = true ∧ u.core.fld Reg.hostLink 0 3 ≠ 0 ∧ u.host.fmask = false ∧ (∀ v, v < 64 → u.core.fld (msixKey v 3) 0 1 = 0)
    ∧ u.core.fld (bankKey 7 Reg.hostWatchCfg) 31 1 = 1 ∧ u.core.reg (bankKey 7 Reg.hostWatchThresh) ≤ u.event (u.core.fld (bankKey 7 Reg.hostWatchCfg) 0 12) := by decide +kernel

/-! ### Witnesses: cluster time -/

theorem test_witness_TimeMessages :
    let s := booted (fun c => (((c.setFld (portKey 31 Reg.seifPortState) 0 3 2).setFld Reg.ctCfg 4 5 31).setBit Reg.ctCfg 3 false).setFld (Reg.seifNode 0) 0 16 5)
    let sent (ago : Nat) := s.core.setPort 31 (fun x => { x with timeSent := s.core.up - ago, credits := [(2, 1)] })
    s.live = true ∧ live.live = true ∧ live.core.trained 31 = false ∧ s.core.trained 31 = true ∧ live.core.node = 0xFFFF ∧ s.core.node ≠ 0xFFFF ∧ 31 < (sent 999).seif.ports.length
    ∧ (s.core.port 31).timeSent = 0 ∧ (sent 999).trained 31 = true ∧ ((sent 999).port 31).timeSent ≠ 0 ∧ (sent 999).up < ((sent 999).port 31).timeSent + 1000
    ∧ ((sent 1000).port 31).timeSent + 1000 ≤ (sent 1000).up ∧ sget 0 ((sent 1000).port 31).credits 2 ≠ 0 ∧ ((sent 1000).port 31).replay.length < 2048
    ∧ ((sent 1000).port 31).entries = [] ∧ s.core.isRoot = false ∧ (0xFE : Nat) < 0xFF ∧ s.core.fld Reg.ctCfg 3 1 = 0 ∧ s.core.fld Reg.ctCfg 4 5 = 31
    ∧ (s.core.setBit Reg.ctState 2 true).isRoot = true := by decide +kernel
theorem test_witness_TimeSources_root :
    let s := { booted (fun c => (c.setBit Reg.ctState 2 true).setFld Reg.ctCfg 0 2 2) with sync := { heard := [(3, ({ time := 0, sync := 2, hops := 1, root := 5, rootRole := 1 }, 7))] } }
    s.live = true ∧ sfind s.sync.heard 3 = some ({ time := 0, sync := 2, hops := 1, root := 5, rootRole := 1 }, 7) ∧ s.core.isRoot = true
    ∧ ranksBefore (1, 5) (s.core.role, s.core.node) = true := by decide +kernel
theorem test_witness_TimeSources_backup :
    let s := { booted (fun c => (c.setFld Reg.ctCfg 0 2 2).setFld (Reg.seifNode 0) 0 16 5) with sync := { rootAt := 70000000000 - 1000000, rootSeen := true } }
    let t : State := { s with sync := { s.sync with rootSeen := false } }
    let training : State := { t with core := t.core.setFld (portKey 31 Reg.seifPortState) 0 3 1 }
    s.live = true ∧ s.core.isRoot = false ∧ s.core.role = 2 ∧ s.sync.rootAt + 1000000 ≤ s.core.up ∧ s.sync.rootSeen = true ∧ t.sync.rootSeen = false ∧ t.core.anyTraining = false
    ∧ [(15, 6)].any (fun o => ranksBefore o (s.core.fld Reg.ctCfg 12 4, s.core.node)) = false ∧ training.live = true ∧ training.sync.rootSeen = false
    ∧ training.core.anyTraining = true := by decide +kernel
theorem test_witness_TimeSources_losses :
    let s := { booted (fun c => c.setBit Reg.ctCfg 3 false) with sync := { following := true, parentAt := 70000000000 - 20000 } }
    s.live = true ∧ s.awake = true ∧ s.core.isRoot = false ∧ s.sync.following = true ∧ s.sync.parentAt + 20000 ≤ s.core.up ∧ s.core.fld Reg.ctCfg 3 1 = 0 := by decide +kernel
theorem test_witness_TimeReference :
    let s := { booted (fun c => (c.setBit Reg.ctState 2 true).setBit Reg.ctCfg 2 true) with sync := { ppsGood := 1 } }
    let t := booted (fun c => c.setBit Reg.ctState 2 true)
    s.awake = true ∧ 9999990 ≤ 10000010 ∧ 1 ≤ s.sync.ppsGood ∧ s.core.isRoot = true ∧ s.core.fld Reg.ctCfg 2 1 = 1 ∧ s.sync.setArmed = none ∧ s.ctl.started = false
    ∧ ({ s with sync := { s.sync with setArmed := some 7 } } : State).sync.setArmed = some 7
    ∧ t.live = true ∧ t.core.isRoot = true ∧ t.ctl.started = false ∧ t.core.fld Reg.ctCfg 2 1 = 0 := by decide +kernel
/-- One event of each kind at one time: the publication goes first; and each kind alone. -/
theorem test_witness_TimedEvents :
    let s := { booted (fun c => { c with txns := [{ id := 4, decision := some (true, 99) }] }) with ctl := { live.ctl with armTime := [(6, 99)], freqDue := [(99, 5)] } }
    let u := at_ { s with ctl := { s.ctl with strands := (at_ s 63 .waitTime []).ctl.strands } } 63 .waitTime [(8, 0, 99)]
    u.awake = true ∧ (99, 0, 4) ∈ u.dueEvents ∧ (99, 1, 6) ∈ u.dueEvents ∧ (99, 2, 0) ∈ u.dueEvents ∧ (99, 3, 63) ∈ u.dueEvents
    ∧ (∀ e ∈ u.dueEvents, 99 < e.1 ∨ 99 = e.1 ∧ (0 < e.2.1 ∨ 0 = e.2.1 ∧ 4 ≤ e.2.2)) ∧ (at_ live 63 .waitTime [(8, 0, 99)]).dueEvents = [(99, 3, 63)]
    ∧ ({ live with ctl := { live.ctl with freqDue := [(99, 5)] } } : State).dueEvents = [(99, 2, 0)]
    ∧ ({ live with ctl := { live.ctl with armTime := [(6, 99)] } } : State).dueEvents = [(99, 1, 6)] := by decide +kernel

/-! ### Witnesses: strands -/

theorem test_witness_SteeringDescriptors : (ready 63 0).Calm ∧ (ready 63 0).control 63 0 = true ∧ (ready 0 1).control 0 1 = true ∧ (ready 0 2).control 0 2 = true
    ∧ (ready 0 2 [(28, 0, 2 ^ 32 - 1), (32, 0, 3)]).control 0 2 = true ∧ (ready 0 3).control 0 3 = true ∧ (ready 63 5).control 63 5 = true := by
  unfold State.Calm; decide +kernel
theorem test_witness_EventCounters :
    let s := ready 63 4 [(24, 0, 4095), (26, 0, 65535)]
    let e := (at_ live 0 .waitEvent [(4, 0, 4095), (4, 12, 7)]).setEvent 4095 7
    s.Calm ∧ s.control 63 4 = true ∧ s.live = true ∧ 2 ^ 32 - 1 < 2 ^ 32 ∧ e.Calm ∧ e.live = true ∧ (e.strand 0).phase = .waitEvent ∧ (e.strand 0).f 4 12 20 ≤ e.event 4095
    ∧ e.event 4095 < 2 ^ 32 := by unfold State.Calm; decide +kernel
/-- A counter one short of what is waited for; a lower strand that waits for the same counter, and can be served. -/
theorem test_witness_EventCounters_order :
    let low := (at_ live 1 .waitEvent [(4, 0, 4095), (4, 12, 7)]).setEvent 4095 6
    let two := (at_ (at_ live 0 .waitEvent [(4, 0, 4095), (4, 12, 7)]) 1 .waitEvent [(4, 0, 4095), (4, 12, 7)]).setEvent 4095 7
    low.live = true ∧ low.event 4095 < (low.strand 1).f 4 12 20 ∧ (low.strand 1).phase = .waitEvent ∧ two.live = true ∧ (two.strand 1).phase = .waitEvent ∧ two.eventReady 0 = true
    ∧ (two.strand 0).f 4 0 12 = (two.strand 1).f 4 0 12 := by decide +kernel
theorem test_witness_StrandControl :
    let b := at_ live 63 .busy []
    let s := ready 0 11 [(24, 0, 63)]
    live.live = true ∧ 63 < live.ctl.strands.length ∧ (live.strand 63).active = false ∧ live.core.stagger = 0 ∧ (b.strand 63).active = true ∧ (b.strand 63).phase = .busy
    ∧ (b.strand 63).stopping = false ∧ ((at_ live 63 .fetch []).strand 63).phase = .fetch ∧ s.control 0 11 = true ∧ (s.strand 0).f 24 0 6 = 63 ∧ (s.strand 63).active = false
    ∧ (at_ s 63 .fetch []).control 0 11 = true ∧ ((at_ s 63 .fetch []).strand 63).active = true := by decide +kernel
/-- A strand between descriptors; one that waits for its stagger offset; one whose completion a publication has fixed; a device with a stagger. -/
theorem test_witness_StrandControl_more :
    let b := at_ live 63 .busy []
    let fixed := b.setStrand 63 (fun t => { t with comp := { t.comp with tEnd := some 5 } })
    let waits := (at_ live 63 .waitTime []).setStrand 63 (fun t => { t with startAt := 9 })
    (b.strand 63).comp.tEnd = none ∧ (fixed.strand 63).active = true ∧ (fixed.strand 63).comp.tEnd.isSome = true ∧ (fixed.strand 63).phase ≠ .fetch ∧ (fixed.strand 63).startAt = 0
    ∧ (waits.strand 63).active = true ∧ (waits.strand 63).phase = .waitTime ∧ (waits.strand 63).startAt ≠ 0 := by decide +kernel
/-- A program of one page: its last descriptor is read, the one after it is beyond. A word of opcode 0x09 is reserved, and one that names strand 1 faults strand 0. -/
theorem test_witness_FetchAndWait :
    let p (op : Nat) := at_ (booted (fun c => let c := c.setFld Reg.cpProgSize 0 13 1
      { c with mem := if op = 0 then [] else [(c.program.1 + 64 * 63, BitVec.ofNat 8 op)] })) 0 .fetch []
    let at63 (op : Nat) := (p op).setStrand 0 (fun t => { t with pc := 63 })
    let d (op : Nat) := BitVec.ofNat 512 (ofLE ((at63 op).core.read { q := 0, strand := some 0, index := 63 } ((at63 op).core.program.1 + 64 * 63) 64).2.2)
    (p 0).live = true ∧ ((p 0).strand 0).phase = .fetch ∧ (at63 0).core.program.1 + 64 * 63 + 64 ≤ (at63 0).core.program.2 ∧ dfld (d 0) 0 0 8 ∈ opcodes ∧ dfld (d 0) 3 0 6 = 0
    ∧ ((at63 0).core.read { q := 0, strand := some 0, index := 63 } ((at63 0).core.program.1 + 64 * 63) 64).2.1 = 0 ∧ dfld (d 0) 1 0 2 = 0
    ∧ dfld (d 9) 0 0 8 = 9 ∧ dfld (d 9) 0 0 8 ∉ opcodes ∧ (p 0).core.program.2 < (p 0).core.program.1 + 64 * 64 + 64 := by decide +kernel
theorem test_witness_FetchAndWait_waits :
    let s := (at_ live 5 .waitTime []).setStrand 5 (fun t => { t with startAt := 123456789 })
    let u := at_ live 5 .waitTime [(8, 0, 123456789), (1, 2, 1), (4, 12, 3)]
    s.Calm ∧ (s.strand 5).startAt ≠ 0 ∧ (s.strand 5).startAt ≤ s.core.ct ∧ u.Calm ∧ (u.strand 5).startAt = 0 ∧ u.startTime (u.strand 5) ≤ u.core.ct
    ∧ (u.strand 5).f 1 2 1 = 1 ∧ (u.strand 5).f 4 12 20 ≠ 0 := by unfold State.Calm; decide +kernel
/-- Headers: a plain one, a late and a future start, a member, a member of an aborted transaction; a strand told to stop; a wait that is not over, and one with an earlier event. -/
theorem test_witness_FetchAndWait_headers :
    let h (l : List (Nat × Nat × Nat)) := at_ live 63 .fetch l
    let timed (d : Nat) := h [(1, 1, 1), (8, 0, d)]
    let member (dead : Bool) := at_ (booted (fun c => { c with txns := [{ id := 255, aborted := dead }] })) 63 .fetch [(1, 0, 1), (2, 0, 255)]
    let w := at_ live 63 .waitTime [(8, 0, 123456790)]
    let e := at_ (at_ live 63 .waitTime [(8, 0, 123456789)]) 62 .waitTime [(8, 0, 123456788)]
    63 < (h []).ctl.strands.length ∧ ((h []).strand 63).txn? = none ∧ ((h []).strand 63).f 1 1 1 = 0 ∧ ((timed 0).strand 63).txn? = none ∧ ((timed 0).strand 63).f 1 1 1 = 1
    ∧ (timed 123456788).startTime ((timed 123456788).strand 63) < (timed 0).core.ct ∧ (timed 0).core.ct ≤ (timed 123456789).startTime ((timed 123456789).strand 63)
    ∧ ((member true).strand 63).txn? = some 255 ∧ (member true).core.txn? 255 = some { id := 255, aborted := true } ∧ ((member false).strand 63).txn? = some 255
    ∧ ((h []).setStrand 63 (fun t => { t with stopping := true })).live = true ∧ w.core.ct < w.wakeTime 63 ∧ e.wakeTime 63 ≤ e.core.ct ∧ e.dueEvents ≠ [(123456789, 3, 63)]
    ∧ (timed 123456788).startsLate 63 = true ∧ (timed 123456789).startsLate 63 = false ∧ (w.strand 63).needsEntry = false := by
  decide +kernel
/-- A collective that waits for time without a timed-event entry, one that holds one, and one whose time has come; with every entry in use its header takes none. -/
theorem test_witness_FetchAndWait_entries :
    let c := at_ live 63 .waitTime [(0, 0, 0x60), (1, 1, 1), (8, 0, 123456789)]
    let holds := c.setStrand 63 (fun t => { t with entry := true })
    let full : State := { live with ctl := { live.ctl with freqDue := List.replicate 256 (2 ^ 40, 5) } }
    c.live = true ∧ (c.strand 63).phase = .waitTime ∧ (c.strand 63).needsEntry = true ∧ (holds.strand 63).needsEntry = false ∧ holds.wakeTime 63 ≤ holds.core.ct
    ∧ (∀ e ∈ holds.dueEvents, holds.edge (holds.wakeTime 63) < e.1 ∨ holds.edge (holds.wakeTime 63) = e.1 ∧ (3 < e.2.1 ∨ 3 = e.2.1 ∧ 63 ≤ e.2.2))
    ∧ full.noEntry = true ∧ live.noEntry = false ∧ isCollective 0x60 = true := by decide +kernel
/-- The last place of a ring's share of the Erg store, and the first beyond it; no ring. -/
theorem test_witness_DescriptorEnds_ring :
    let r (head : Nat) : State := ({ live with core := (live.core.setFld (strandKey 9 0x14) 0 5 16).setFld (strandKey 9 0x10) 6 25 (346 * 2 ^ 20 / 64) }).setStrand 9
      (fun t => { t with head := head })
    let far (head : Nat) : State := ({ live with core := (live.core.setFld (strandKey 9 0x14) 0 5 16).setFld (strandKey 9 0x10) 6 25 ((2 ^ 29 - 64 * 65535) / 64) }).setStrand 9
      (fun t => { t with head := head })
    let off (s : State) : Nat := s.core.fld (strandKey 9 0x10) 6 25 * 64
    let slot (s : State) : Nat := off s % 2 ^ 29 + 64 * ((s.strand 9).head % 2 ^ max 4 (min 16 (s.core.fld (strandKey 9 0x14) 0 5)))
    live.core.fld (strandKey 9 0x14) 0 5 = 0 ∧ (r 0).core.fld (strandKey 9 0x14) 0 5 ≠ 0 ∧ slot (r 0) + 64 ≤ 2 ^ 29 ∧ slot (r 65535) + 64 ≤ (r 0).core.top (off (r 0) / 2 ^ 29)
    ∧ (r 65535).core.filling (ergAddr (off (r 65535) / 2 ^ 29) (slot (r 65535))) 64 = false ∧ (r 65535).core.parkedAt (ergAddr (off (r 65535) / 2 ^ 29) (slot (r 65535))) 64 false = false
    ∧ 2 ^ 29 ≤ slot (far 65535) ∧ slot (far 65534) + 64 ≤ 2 ^ 29 := by decide +kernel
/-- A TXN_COMMIT past its time on an undecided transaction; a descriptor not past it; a strand whose watchdog has not run out, and one in WAIT_EVENT. -/
theorem test_witness_DescriptorEnds_more :
    let c := at_ { (booted (fun c => { c with ct := 2 ^ 60, txns := [{ id := 255 }] })) with pending := [] } 9 .busy [(0, 0, 7), (24, 0, 255)]
    let young := (ready 9 0x10).setStrand 9 (fun t => { t with tOut := live.core.ct })
    let idle := live.setStrand 9 (fun t => { t with tWdog := live.core.ct })
    c.live = true ∧ (c.strand 9).op = 7 ∧ c.timeoutFrom 9 + c.timeout 9 ≤ c.core.ct ∧ c.core.txn? 255 = some { id := 255 } ∧ ({ id := 255, opened := true } : Txn).opened = true ∧ ({ id := 255 } : Txn).decided = false
    ∧ young.core.ct < young.timeoutFrom 9 + young.timeout 9 ∧ (young.strand 9).phase = .ready
    ∧ young.timeoutFrom 9 = (young.strand 9).tOut
    ∧ idle.core.ct < (idle.strand 9).tWdog + 100 * 1000000 ∧ ((at_ live 9 .waitEvent []).strand 9).state = 3 ∧ ((at_ live 9 .fetch []).strand 9).state = 1 := by decide +kernel
theorem test_witness_DescriptorEnds :
    let s := ready 9 0x10
    let w : State := { at_ live 9 .fetch [] with core := { live.core with ct := 2000000000 } }
    let late := at_ live 9 .waitTime [(0, 0, 0x60), (8, 0, 7)]
    s.live = true ∧ (s.strand 9).op ≠ 7 ∧ s.timeoutFrom 9 + s.timeout 9 ≤ s.core.ct ∧ (at_ live 9 .waitEvent []).timeout 9 ≤ s.core.ct
    ∧ late.live = true ∧ (late.strand 9).phase = .waitTime ∧ (late.strand 9).needsEntry = true ∧ late.timeoutFrom 9 + late.timeout 9 ≤ late.core.ct ∧ late.timeoutFrom 9 = 7
    ∧ s.awake = true ∧ ((at_ live 9 .done []).strand 9).phase = .done ∧ (((at_ live 9 .done []).setStrand 9 (fun t => { t with haltNext := 1 })).strand 9).haltNext = 1
    ∧ ((at_ live 9 .done []).strand 9).txn? = none ∧ ((at_ live 9 .done []).strand 9).op ≠ 6
    ∧ w.live = true ∧ (w.strand 9).tWdog + (if w.core.fld Reg.cpWdog 0 16 = 0 then 100 else w.core.fld Reg.cpWdog 0 16) * 1000000 ≤ w.core.ct ∧ w.running = true ∧ w.core.inJob = false
    ∧ w.ctl.stepWdog + (if w.core.fld Reg.cpWdog 16 16 = 0 then 1000 else w.core.fld Reg.cpWdog 16 16) * 1000000 ≤ w.core.ct := by decide +kernel

/-! ### Witnesses: stores, transactions, shadow sets -/

theorem test_witness_StoresImmediate :
    let s := ready 0 0x0A [(32, 0, 1), (24, 0, dramEnd - 8)]
    let r := ready 0 0x0A [(32, 0, 1), (24, 0, regBase + 0x0040)]
    s.control 0 0x0A = true ∧ (s.strand 0).txn? = none ∧ (s.strand 0).f 32 0 8 = 1 ∧ place ((s.strand 0).f 24 0 64 / 8 * 8) = .dram
    ∧ place ((r.strand 0).f 24 0 64 / 8 * 8) = .reg 0x40 ∧ stepMayWrite 0x40 = false ∧ stepMayWrite 0x44 = false ∧ (r.strand 0).f 32 0 8 = 1 := by decide +kernel
/-- A Step page's shadow register; a member whose quarter has room for the write, and one whose staging limit is reached. -/
theorem test_witness_StoresImmediate_staged :
    let m := at_ (booted (fun c => { c with txns := [{ id := 255 }] })) 0 .ready [(0, 0, 0x0A), (1, 0, 1), (2, 0, 255)]
    let off := 6 * 4096 + 0x40
    let lim := m.core.stageLimit 0
    let full : List Nat := (List.range 3).map (fun i => i)
    stepMayWrite off = true ∧ ((ready 0 0x0A).strand 0).txn? = none ∧ (m.strand 0).txn? = some 255 ∧ m.core.txn? 255 = some { id := 255 }
    ∧ unitsIn (insN [] (m.quarter 0 * 2 ^ 60 + 2 ^ 59 + off)) (m.quarter 0) ≤ lim
    ∧ ({ m.core with layouts := [{ nth {} m.core.layouts 0 with stage := 0 }] } : Core).stageLimit 0 < unitsIn (insN full (2 ^ 59 + off)) 0 ∧ 2 ^ 64 - 1 < 2 ^ 64 := by decide +kernel
theorem test_witness_TransactionDescriptors :
    let dead : State := { ready 0 7 [(24, 0, 255)] with core := { live.core with txns := [{ id := 255, aborted := true }] } }
    let open_ : State := { ready 0 8 [(24, 0, 255)] with core := { live.core with txns := [{ id := 255 }] } }
    (ready 0 6 [(24, 0, 255)]).control 0 6 = true ∧ (ready 0 7 [(24, 0, 255)]).control 0 7 = true ∧ live.core.txn? 255 = none ∧ (ready 0 7 [(24, 0, 255), (25, 0, 1)]).control 0 7 = true
    ∧ dead.control 0 7 = true ∧ (dead.strand 0).f 25 0 1 = 0 ∧ dead.core.txn? 255 = some { id := 255, aborted := true } ∧ open_.control 0 8 = true
    ∧ open_.core.txn? 255 = some { id := 255 } := by decide +kernel
theorem test_witness_TransactionMessages :
    let w : Waiter := { kind := .participant, strand := 1, group := 3 }
    let s := booted (fun c => { c.setFld Reg.jobCfg 0 8 9 with txns := [{ id := 4, waiters := [w] }], job := { c.job with held := [{ dec := { group := 3, txn := 4, commit := true, time := 5 }, nodes := [7] }] } })
    let p := booted (fun c => { c with txns := [{ id := 4, decision := some (true, 5), waiters := [w] }] })
    s.serves = true ∧ s.core.txn? 4 = some { id := 4, waiters := [w] } ∧ ({ id := 4, waiters := [w] } : Txn).awaits 3 = true ∧ s.core.ct ≤ s.core.ct ∧ s.noEntry = false
    ∧ s.core.isBoundary 4 = false ∧ s.core.inJob = false ∧ s.core.txn? 5 = none
    ∧ s.core.job.held.find? (fun x => x.dec.group == 3 && x.dec.txn == 4) = some { dec := { group := 3, txn := 4, commit := true, time := 5 }, nodes := [7] }
    ∧ p.live = true ∧ p.serves = true ∧ p.dueEvents = [(5, 0, 4)] ∧ p.core.txn? 4 = some { id := 4, decision := some (true, 5), waiters := [w] } ∧ w.strand < p.ctl.strands.length := by
  decide +kernel
/-- The leader of a running job whose boundary transaction a node votes to abort; every timed-event entry in use; a prepared transaction that is marked aborted. -/
theorem test_witness_TransactionMessages_more :
    let again : State := booted (fun c => { c with txns := [{ id := 4, waiters := [{ kind := .participant, strand := 1, group := 3 }] }], job := { c.job with decided := [((3, 4), 5)] } })
    let late : State := booted (fun c => { c with txns := [{ id := 4, waiters := [{ kind := .participant, strand := 1, group := 3 }] }] })
    let l := booted (fun c => let d := ((c.setFld Reg.jobCfg 0 8 9).setFld Reg.jobState 0 3 1); d.setFld Reg.jobLeader 0 16 d.node)
    let full : State := { live with ctl := { live.ctl with freqDue := List.replicate 256 (2 ^ 40, 5) } }
    let w : Waiter := { kind := .participant, strand := 1, group := 3 }
    again.serves = true ∧ ((3, 4), 5) ∈ again.core.job.decided ∧ late.serves = true ∧ 123456788 < late.core.ct ∧ ((3, 4), 123456788) ∉ late.core.job.decided ∧ late.core.deferred 4 = false
    ∧ (∀ x, late.core.txn? 5 = some x → x.awaits 3 = false) ∧ l.serves = true ∧ l.core.isBoundary 9 = true ∧ l.core.isLeader = true ∧ l.core.inJob = true ∧ l.core.job.phase = .none ∧ l.core.txn? 9 = none ∧ full.noEntry = true
    ∧ ({ id := 4, waiters := [w], aborted := true } : Txn).awaits 3 = true := by decide +kernel
theorem test_witness_ShadowCommands :
    let s : State := { booted (fun c => c.setReg (6 * 4096 + 0x28) 1) with ctl := { live.ctl with armTime := [(6, 123456789)] } }
    s.live = true ∧ pageBlock 6 = some (6, 0) ∧ s.core.ct ≤ s.core.reg (6 * 4096 + 0x24) + s.core.reg (6 * 4096 + 0x28) * 2 ^ 32 ∧ (63 : Nat) < 64
    ∧ sfind s.ctl.armTime 6 = some 123456789 ∧ 123456789 ≤ s.core.ct
    ∧ (∀ e ∈ s.dueEvents, s.edge s.core.ct < e.1 ∨ s.edge s.core.ct = e.1 ∧ (1 < e.2.1 ∨ 1 = e.2.1 ∧ 6 ≤ e.2.2)) ∧ s.beforeSwap (6 * 4096 + 0x20) (0 ||| 4) = s ∧ s.core.ct < 2 ^ 32 + 1
    ∧ (live.core.reg (6 * 4096 + 0x24) + live.core.reg (6 * 4096 + 0x28) * 2 ^ 32) < live.core.ct := by decide +kernel

/-! ### Witnesses: engines -/

theorem test_witness_MatrixDescriptors :
    let m := ready 0 0x10
    let dead : State := { m with core := m.core.setBit (Reg.arrayFault 0) 0 true }
    let sp : State := { ready 0 0x18 with pwr := { live.pwr with ramp := { live.pwr.ramp with lastWork := [(unitArray 0, 70000000000), (unitSme 0, 70000000000)] } } }
    m.engineRun 0 0x10 = true ∧ m.arrayDead 0 = false ∧ m.Admits [unitArray 0] 0 ∧ dead.engineRun 0 0x10 = true ∧ dead.arrayDead 0 = true
    ∧ (ready 63 0x19).engineRun 63 0x19 = true ∧ (ready 63 0x19).arrayDead 0 = false ∧ (ready 63 0x19).Admits [unitArray ((ready 63 0x19).quarter 63)] 63
    ∧ sp.engineRun 0 0x18 = true ∧ sp.Admits [unitArray 0, unitSme 0] 0 ∧ sp.Admits [unitArray 0] 0 ∧ sp.Admits [unitSme 0] 0 ∧ sp.Admits [] 0 ∧ (ready 1 0x1A).engineRun 1 0x1A = true ∧ live.live = true := by
  unfold State.Admits; decide +kernel
theorem test_witness_Sampling :
    let s := ready 0 0x40
    let q : State := { live with core := live.core.setBit (Reg.sampServe 3) 0 true }
    let w : State := { at_ live 1 .busy [] with core := { live.core with samps := [{ strand := 1 }] } }
    let r : SampReq := { node := 7, strand := 1, graph := 0, v := 9, l := 0, fanout := 4, mode := 0, key := 0, step := 0 }
    let a : SampAns := { strand := 1, l := 0, v := 9, edges := none, poison := false }
    let stop : State := { live with pwr := { live.pwr with emergency := true } }
    s.engineRun 0 0x40 = true ∧ s.Admits [unitSampler (s.quarter 0)] 0 ∧ live.serves = true ∧ live.sampQ (live.serveAs 0) = none ∧ q.serves = true ∧ q.sampQ (q.serveAs 7) = some 3
    ∧ live.Takes { dst := 0, wadi := 0, body := .sampleRequest r } ∧ q.Takes { dst := 7, wadi := 0, body := .sampleRequest r }
    ∧ stop.serves = true ∧ stop.Blocked { dst := 7, wadi := 0, body := .sampleRequest r } ∧ w.Takes { dst := w.core.node, wadi := 0, body := .sampleAnswer a }
    ∧ w.serves = true ∧ w.core.samps.find? (fun x => x.strand == 1) = some { strand := 1 } ∧ w.strandFor 1 w.core.node = true ∧ (w.strand 1).phase = .busy := by
  unfold State.Takes State.Blocked State.Admits; decide +kernel
theorem test_witness_EmbeddingDescriptors :
    let s (op : Nat) := ready 2 op
    let t := ready 2 0x33 [(1, 0, 1)]
    let b := at_ live 2 .busy [(0, 0, 0x32)]
    let tagged : State := { b with core := { b.core with emb := { b.core.emb with windows := [{ table := 0, tag := 0, alt := false, forwards := (tbl (b.dx 2) 0).nodes }] } } }
    let closed : State := { b with core := { b.core with emb := { b.core.emb with windows := [{ table := 0, tag := 0, alt := false, stage2 := true }] } } }
    (s 0x30).engineRun 2 0x30 = true ∧ (s 0x30).Admits [unitGather ((s 0x30).quarter 2)] 2 ∧ (s 0x31).engineRun 2 0x31 = true ∧ (s 0x31).Admits [unitGather ((s 0x31).quarter 2)] 2
    ∧ (s 0x32).mayRun 2 (fun o => o == 0x32) = true ∧ (s 0x32).Admits [unitGather ((s 0x32).quarter 2)] 2 ∧ (s 0x33).engineRun 2 0x33 = true ∧ ((s 0x33).strand 2).txn? = none
    ∧ b.live = true ∧ b.pwr.emergency = false ∧ (b.strand 2).op = 0x32 ∧ (b.strand 2).phase = .busy ∧ stage1Ready b.core.emb 0 0 0 false = true ∧ stage1Ready b.core.emb 0 0 1 false = false
    ∧ (b.actOf 2).isSome = false ∧ stage2Ready (tagged.dx 2) 0 0 = true ∧ tagged.Admits [unitGather (tagged.quarter 2)] 2 ∧ (tagged.strand 2).op = 0x32
    ∧ stage2Ready (closed.dx 2) 0 0 = false ∧ t.engineRun 2 0x33 = true ∧ (t.strand 2).txn?.isSome = true := by
  unfold State.Admits; decide +kernel
theorem test_witness_EmbeddingMessages :
    let b := at_ live 2 .busy []
    let sel : State := { live with core := { live.core with emb := { live.core.emb with selDue := true } } }
    let sync := at_ live 2 .busy [(0, 0, 0x33)]
    let x := live.dev live.embQ (live.serveAs live.core.node)
    let m : Msg := { dst := live.core.node, wadi := 0, body := .embFlush 0 0, src := some 7 }
    let stop : State := { live with pwr := { live.pwr with emergency := true } }
    live.serves = true ∧ b.strandFor 2 b.core.node = true ∧ (b.strand 2).phase = .busy ∧ x.c.isMe live.core.node = true ∧ x.c.isMe 65534 = false
    ∧ sel.serves = true ∧ sel.core.emb.selDue = true ∧ live.core.emb.selDue = false ∧ (∀ k, k < 64 → (live.strand k).op ≠ 0x33)
    ∧ (sync.strand 2).op = 0x33 ∧ (sync.strand 2).phase = .busy ∧ (∀ j, j < 64 → j ≠ 2 → ¬((sync.strand j).op = 0x33 ∧ (sync.strand j).phase = .busy))
    ∧ live.Takes m ∧ stop.Blocked m ∧ stop.serves = true ∧ { live with core := { live.core with inbox := [m] } }.Blocked m := by
  unfold State.Takes State.Blocked State.Admits; decide +kernel

/-! ### Witnesses: lane processors -/

/-- A launch of two groups, and one whose groups are all gone. -/
theorem test_witness_LaneLaunches :
    let s := ready 0 0x50 [(28, 0, 2 ^ 24 - 1)]
    let dead : State := { s with core := s.core.setBit (Reg.laneFault 0) 0 true }
    let r : LaneRun := { strand := 0, quarter := 0, desc := desc [(28, 0, 1)], procFirst := 127, procCount := 1 }
    let run : State := { at_ live 0 .busy [(0, 0, 0x50), (28, 0, 1)] with core := { live.core with lanes := [r] } }
    let gone : State := { run with core := { live.core with lanes := [{ r with next := 1 }] } }
    let sv : State := { at_ run 1 .ready [(0, 0, 0x51), (24, 0, 0)] with core := run.core }
    s.engineRun 0 0x50 = true ∧ s.core.lanesFaulty 0 = false ∧ (s.strand 0).f 28 0 24 ≠ 0 ∧ dead.engineRun 0 0x50 = true ∧ dead.core.lanesFaulty 0 = true
    ∧ run.live = true ∧ run.pwr.emergency = false ∧ (run.strand 0).phase = .busy ∧ run.core.launch? 0 = some r ∧ run.core.nextProc r = some 127 ∧ r.left = true
    ∧ run.core.dispatchOpen r 127 = true ∧ (run.askUnit (unitLane 0 127) 0).2 = true ∧ gone.core.launch? 0 = some { r with next := 1 } ∧ ({ r with next := 1 } : LaneRun).left = false
    ∧ r.resident = [] ∧ sv.engineRun 1 0x51 = true ∧ (sv.strand 1).f 24 0 6 = 0 ∧ 0 < sv.ctl.strands.length ∧ (ready 1 0x51).engineRun 1 0x51 = true
    ∧ live.core.launch? 0 = none ∧ (ready 1 0x52).engineRun 1 0x52 = true := by decide +kernel
/-- A resident group at index 0 whose word is written in the Erg store: `w` is its next word. -/
def resident (w : Nat) : State :=
  let r : LaneRun := { strand := 0, quarter := 0, desc := desc [(28, 0, 1)], procFirst := 0, procCount := 1, next := 1, resident := [{ g := 0 }] }
  { at_ live 0 .busy [(0, 0, 0x50), (28, 0, 1)] with core := { live.core with lanes := [r], mem := putBytes [] (ergAddr 0 0) (leBytes 8 w) } }
theorem test_witness_LaneLaunches_reserved : (laneNext ((resident 0x0E00000000000000).dx 0) 0).any (fun x => x.2.2.reserved) = true := by decide +kernel
theorem test_witness_LaneIssues : ∃ r g w, Issues (resident 0x8400000000000000) 0 0 r g w 8 4 :=
  ⟨{ strand := 0, quarter := 0, desc := desc [(28, 0, 1)], procFirst := 0, procCount := 1, next := 1, resident := [{ g := 0 }] }, { g := 0 }, { w := 0x8400000000000000 },
    ⟨by decide +kernel, by decide +kernel, by decide +kernel, by decide +kernel, by decide +kernel⟩⟩
theorem test_witness_LaneIssues_rows : (laneRows.map (fun e => (e.2.1, e.2.2))).Nodup ∧ laneRows.length = 100 ∧ laneRows.all (fun e => decide (e.2.2 < laneOps e.2.1)) = true := by
  decide +kernel
theorem test_witness_LaneIntegers : let i : LWord := { w := 0x1000000000000000 }
    i.grp = 1 ∧ (31 : Nat) < 32 ∧ ((lx (group 0x80000001 4 (fun t => t))).enabled i).testBit 31 = true ∧ ((lx (group 0x80000001 4 (fun t => t))).enabled i).testBit 30 = false := by decide +kernel
theorem test_witness_LaneFloats : let i : LWord := { w := 0x0A00000000000000 + 2 ^ 20 }; let j : LWord := { w := 0x0B00000000000000 }; let k : LWord := { w := 0 }
    i.fmt ≠ 0 ∧ i.op ≤ 10 ∧ 11 ≤ j.op ∧ k.fmt = 0 ∧ k.op ≤ 10 ∧ k.dst < launch.vregs ∧ launch.vregs ≤ ({ w := 16 * 2 ^ 47 } : LWord).dst ∧ 2 ^ 32 - 1 < 2 ^ 32 := by decide +kernel
theorem test_witness_LaneCompares : (lx (group 1 4 (fun t => t))).g.p.length = 8 ∧ (upto 15).all (fun n => ({ w := (0x30 + n) * 2 ^ 56 } : LWord).op == n) = true
    ∧ (lx (group 1 4 (fun t => t))).enabled { w := 0x3D00000000000000 } ≠ 0 ∧ ({ w := 0x3800000000000000 + 2 ^ 20 } : LWord).fmt ≠ 0
    ∧ ({ w := 0x3800000000000000 + 15 * 2 ^ 47 } : LWord).fmt = 0 ∧ ({ w := 0x3800000000000000 + 15 * 2 ^ 47 } : LWord).dst < launch.vregs
    ∧ ((lx (group 1 4 (fun t => t))).enabled { w := 0x3800000000000000 }).testBit 0 = true := by decide +kernel
/-- A branch that no, every or one active thread takes; a full stack; a pending entry on top. -/
theorem test_witness_LaneControl : let i : LWord := { w := 0x8000000000000000 + 2 ^ 23 }
    let g (p : Nat) (st : List (Nat × Nat × Nat)) : LaneGroup := { g := 0, active := 3, p := [0xFFFFFFFF, p, 0, 0, 0, 0, 0, 0], stack := st }
    i.grp = 8 ∧ i.op = 0 ∧ 3 &&& (lx (g 3 [])).p i.pred = 3 ∧ 3 &&& (lx (g 0 [])).p i.pred = 0 ∧ 3 &&& (lx (g 1 [])).p i.pred = 1
    ∧ (g 1 (List.replicate 62 (0, 3, 9))).stack.length ≤ 62 ∧ 62 < (g 1 (List.replicate 63 (0, 3, 9))).stack.length ∧ (g 1 (List.replicate 64 (0, 3, 9))).stack.length ≤ 64
    ∧ laneTarget 0 (toSigned 14 (field i.w 26 14)) = laneTarget 0 0 := by decide +kernel
/-- Threads that all point at register space own nothing there. -/
theorem test_witness_LaneMemoryAndCross : let i : LWord := { w := 0x4080000000000000 + 4 * 2 ^ 40 + 2 ^ 20 }
    let l := lx (group 1 4 (fun _ => 0))
    let far : Lx := { l with g := { l.g with s := [(5, 0xF0)] } }
    i.fmt ≠ 7 ∧ i.fmt ≠ 0 ∧ far.threads i = [0] ∧ (∀ t ∈ far.threads i, far.mine (far.addr i false false t / laneWidth i.fmt * laneWidth i.fmt) (laneWidth i.fmt) = false)
    ∧ (far.enabled i).testBit 0 = true ∧ ({ w := 0x5A00000000000000 + 2 ^ 20 } : LWord).op = 10 ∧ l.enabled { w := 0x5A00000000000000 } ≠ 0 ∧ ({ w := 15 * 2 ^ 47 } : LWord).dst < launch.vregs
    ∧ l.g.p.length = 8 := by decide +kernel

/-! ### Witnesses: training, copies, collectives -/

theorem test_witness_TrainingDescriptors :
    let s (op : Nat) := ready 0 op
    let held : State := { s 0x83 with core := { live.core with lanes := [{ strand := 1, quarter := 0, desc := 0, procFirst := 0, procCount := 1, resident := [{ g := 0 }] }] } }
    let member := at_ live 0 .done [(0, 0, 0x80), (1, 0, 1), (2, 0, 255)] |>.setStrand 0 (fun t => { t with tStart := some 5 })
    (member.strand 0).op = 0x80 ∧ (member.strand 0).txn?.isSome = true ∧ (member.strand 0).tStart.isSome = true ∧ (member.strand 0).comp.status < 0x20 ∧ (member.strand 0).comp.cancelled = false
    ∧ (∀ op ∈ [0x80, 0x81, 0x82, 0x83, 0x7E, 0x7F, 0x70, 0x71, 0x72, 0x73], (s op).engineRun 0 op = true ∧ (s op).Admits [] 0 ∧ (s op).Admits [unitDma 0] 0)
    ∧ (s 0x83).core.residentGroups 0 = 0 ∧ held.engineRun 0 0x83 = true ∧ held.core.residentGroups 0 ≠ 0 ∧ (133 : Nat) < 134 ∧ (31 : Nat) < 32
    ∧ (ready 0 0x7E [(24, 0, 2)]).engineRun 0 0x7E = true ∧ ((ready 0 0x7F [(24, 0, 2)]).strand 0).f 24 0 2 = 2 ∧ live.host.bme = false
    ∧ (∀ n, n < 8 → ((ready 0 0x72 [(24, 4, n)]).strand 0).f 24 4 3 = n) := by unfold State.Admits; decide +kernel
theorem test_witness_TrainingMessages :
    let s := booted (fun c => c.setFld Reg.twinState 0 3 2)
    s.serves = true ∧ s.core.pair = 2 ∧ live.serves = true ∧ live.core.pair ≠ 2 ∧ live.core.pair ≠ 5 ∧ (booted (fun c => c.setFld Reg.twinState 0 3 5)).core.pair = 5
    ∧ s.core.reg Reg.trnTwinSpare ≠ 65535 + 65536 ∧ ((at_ s 7 .busy []).strand 7).phase = .busy ∧ (at_ s 7 .busy []).serves = true ∧ s.live = true := by decide +kernel
theorem test_witness_Collectives :
    let s := ready 0 0x60
    let old := { ready 0 0x60 with core := live.core.setFld Reg.jobEpoch 0 16 32767 }
    let r : CollRun := { strand := 3, as := 0xFFFF, quarter := 0, op := 0x64, group := 1, tag := 2, epoch := 0, det := false, arith := false, count := 0, thinK := 0, wadi := 15, members := [], rank := 0 }
    let o : State := { at_ live 3 .busy [] with core := { live.core.setFld (Reg.collParkSize 3) 0 7 1 with coll := { runs := [r] } } }
    let p : CollPkt := { group := 9, tag := 9, epoch := 0, opcode := 0x60, det := false, arith := false, enc := 0, sender := 0, count := 0, segment := 0, level := 0, items := 0, thinK := 0, offset := 0, data := [] }
    s.engineRun 0 0x60 = true ∧ collOpenCount s.core 0 < 16 ∧ epochOlder 0 0 = false ∧ old.engineRun 0 0x60 = true ∧ epochOlder ((old.strand 0).f 46 0 16) (old.core.fld Reg.jobEpoch 0 16) = true
    ∧ epochOlder 0 32768 = false ∧ o.serves = true ∧ o.pwr.emergency = false
    ∧ collMatch o.core 0xFFFF 1 2 = some r ∧ (o.strand 3).phase = .busy ∧ (collTake (o.dx 3) r 31 p).1.c.stall = false ∧ (o.core.takeArrived 31 15).2 = none ∧ collMatch o.core 0xFFFF 9 9 = none
    ∧ ((o.core.coll.parked.filter (fun e => e.1 == 3)).map (fun e => parkBytes e.2.2)).sum + parkBytes p ≤ min (o.core.fld (Reg.collParkSize 3) 0 7) 64 * 2 ^ 20
    ∧ r.op = 0x64 := by decide +kernel
/-- A quarter with 16 open collectives, and a parking area that has no room. -/
theorem test_witness_Collectives_full :
    let held : State := { live with pwr := { live.pwr with emergency := true }, core := (live.core.setFld (Reg.collParkSize 3) 0 7 1).setPort 31 (fun x => { x with arrived := [(12, 1, 3)] }) }
    let r (k : Nat) : CollRun := { strand := k, as := 0xFFFF, quarter := 0, op := 0x64, group := 1, tag := k, epoch := 0, det := false, arith := false, count := 0, thinK := 0, wadi := 15, members := [], rank := 0 }
    let s := ready 60 0x60
    let f : State := { s with core := { s.core with coll := { runs := (List.range 16).map r } } }
    let p : CollPkt := { group := 9, tag := 9, epoch := 0, opcode := 0x60, det := false, arith := false, enc := 0, sender := 0, count := 0, segment := 0, level := 0, items := 0, thinK := 0, offset := 0, data := [] }
    f.engineRun 60 0x60 = true ∧ f.quarter 60 = 0 ∧ 16 ≤ collOpenCount f.core 0 ∧ live.serves = true ∧ collMatch live.core 0xFFFF 9 9 = none
    ∧ ¬(((live.core.coll.parked.filter (fun e => e.1 == 3)).map (fun e => parkBytes e.2.2)).sum + parkBytes p ≤ min (live.core.fld (Reg.collParkSize 3) 0 7) 64 * 2 ^ 20)
    ∧ 31 < live.core.seif.ports.length ∧ held.serves = true ∧ held.pwr.emergency = true ∧ (held.core.takeArrived 31 12).2 = some (1, 3) := by decide +kernel

/-! ### Witnesses: the memory system -/

theorem test_witness_MemoryChanges :
    let want := booted (fun c => c.setReg (Reg.memIlv0 0) 1)
    let l : Line := { tag := 2 ^ 20, quarter := 0, hint := 3 }
    let s := booted (fun c => { c with lines := [l, { l with tag := 5, uses := 1 }], merge := [{ quarter := 0, word := 9, mask := 1, bytes := 7 }] })
    (at_ live 0 .fetch []).running = true ∧ (at_ live 0 .fetch []).live = true ∧ live.running = false
    ∧ want.core.wantedIlv.getLsbD 0 ≠ want.core.ilv.getLsbD 0 ∧ want.live = true ∧ want.running = false ∧ want.core.lines = [] ∧ want.core.merge = []
    ∧ s.live = true ∧ s.core.line? (2 ^ 27) = some l ∧ s.core.line? 640 = some { l with tag := 5, uses := 1 }
    ∧ s.core.merge.find? (fun e => e.word == 79 / 8) = some { quarter := 0, word := 9, mask := 1, bytes := 7 } := by decide +kernel
theorem test_witness_RetrainAndTraffic :
    let s (st : Nat) := booted (fun c => c.setChState 255 st)
    let t := booted (fun c => { c with tg := [{ chan := 255, loops := 1 }] })
    let sel := booted (fun c => (c.setChState 255 2).setFld (Reg.memChSel 3) 0 6 63)
    (s 2).live = true ∧ (s 2).core.chState 255 = 2 ∧ sget 0 (s 2).core.hrtLast 255 + (s 2).core.hrtPeriod 255 ≤ (s 2).core.up ∧ (255 : Nat) < 256 ∧ (s 3).core.chState 255 = 3
    ∧ 2 < [1, 2, 3].length + (s 3).core.fld (chKey 255 Reg.memChState) 3 2 ∧ sel.core.chState (3 * 64 + sel.core.fld (Reg.memChSel 3) 0 6) = 2
    ∧ t.core.tg.find? (fun r => r.chan == 255) = some { chan := 255, loops := 1 } ∧ ({ chan := 255, loops := 1 } : TgRun).loops ≠ 0
    ∧ t.core.remapBusy = [] ∧ (0 : Nat) ≤ 127 / 128 ∧ ¬(1 ≤ 127 / 128) := by decide +kernel
theorem test_witness_ErrorHandling :
    let s := booted (fun c => { c with corrections := [2 ^ 20 / 8, ergAddr 3 (2 ^ 29 - 8) / 8], failing := [(255, 31, 49151)], repairDue := true })
    let u := booted (fun c => { c with remapBusy := [{ chan := 255, bank := 31, row := 49151, spare := 0, bad := 0 }] })
    let lap : State := { booted (fun c => c.setUnit 3 64 { scrubAt := unitWords 64 }) with mgmt := {} }
    let slow : State := { live with core := { live.core with up := 4 * live.core.lapTarget 3 * 10 ^ 6 + 1 } }
    s.live = true ∧ place (2 ^ 20) = .dram ∧ s.core.held (2 ^ 20) = false ∧ s.core.chState 255 ≠ 3 ∧ (s.core.setChState 255 3).chState 255 = 3 ∧ (∃ w ∈ s.core.corrections, w / 8 = 2 ^ 20 / 64)
    ∧ place (ergAddr 3 (2 ^ 29 - 8)) = .erg 3 (2 ^ 29 - 8) ∧ ergAddr 3 (2 ^ 29 - 8) / 8 ∈ s.core.corrections ∧ 3 < s.core.leakBase.length
    ∧ nth (0, 0) s.core.leakBase 3 = (0, 0) ∧ 0 + (0 + 1) * s.core.leakNs 3 ≤ s.core.up ∧ unitWords 64 ≤ (lap.core.unit 3 64).scrubAt
    ∧ (slow.core.unit 3 64).slow = false ∧ (slow.core.unit 3 64).lapStart + 4 * slow.core.lapTarget 3 * 10 ^ 6 < slow.core.up ∧ slow.live = true
    ∧ (255, 31, 49151) ∈ s.core.failing ∧ s.core.fld (Reg.eccCfg (255 / 64)) 8 1 = 0 ∧ s.running = false ∧ s.core.remaps = [] ∧ s.core.remapBusy = []
    ∧ u.core.remapBusy.find? (fun m => m.chan == 255 && m.bank == 31 && m.row == 49151) = some { chan := 255, bank := 31, row := 49151, spare := 0, bad := 0 }
    ∧ s.core.repairDue = true ∧ s.core.repair.length = 2 := by decide +kernel
/-- Rows that wait: held by HOLD, and found since the last step boundary while strands run. -/
theorem test_witness_ErrorHandling_rows :
    let s := booted (fun c => { c with failing := [(255, 31, 49151)] })
    let r := at_ s 0 .busy []
    r.live = true ∧ r.running = true ∧ (255, 31, 49151) ∉ r.core.failDue ∧ ({ r with core := { r.core with failDue := [(255, 31, 49151)] } } : State).core.failDue = [(255, 31, 49151)]
    ∧ (s.core.setFld (Reg.eccCfg 3) 8 1 1).fld (Reg.eccCfg (255 / 64)) 8 1 = 1 ∧ s.core.fld (Reg.eccScrubTarget 3) 31 1 ≠ 1
    ∧ (s.core.setFld (Reg.eccScrubTarget 3) 31 1 1).fld (Reg.eccScrubTarget 3) 31 1 = 1 := by decide +kernel

/-! ### Witnesses: Seif links -/

/-- A device whose port 31 stands in a state. -/
def ported (st : Nat) (f : PortSt → PortSt) : State := booted (fun c => (c.setFld (portKey 31 Reg.seifPortState) 0 3 st).setPort 31 f)
theorem test_witness_LinkTraffic :
    let s := ported 2 (fun x => { x with rxSeq := 4095, ready := [(3, { cls := 0, n := 1, kept := 1, own := false })], asm := [(4, { cls := 0, n := 9, kept := 2, own := true })] })
    let r := ported 2 (fun x => { x with replay := [(4095, 0), (0, 0)], stallSeq := some 4095, stalls := 8 })
    s.awake = true ∧ 31 < s.core.seif.ports.length ∧ s.core.portState 31 = 2 ∧ (16 : Nat) > 15 ∧ (s.core.port 31).rxWait = false ∧ (s.core.port 31).rxSeq = 4095
    ∧ (s.core.port 31).ready.find? (fun r => r.1 == 3 && r.2.n == packetFlits 0) = some (3, { cls := 0, n := 1, kept := 1, own := false }) ∧ (r.core.port 31).replay = [(4095, 0), (0, 0)]
    ∧ (∃ x ∈ (r.core.port 31).replay, x.1 = 0) ∧ (∀ x ∈ (r.core.port 31).replay, x.1 ≠ 1) ∧ (r.core.port 31).stallSeq = some 4095 ∧ 8 ≤ (r.core.port 31).stalls
    ∧ ¬((s.core.port 31).stallSeq = some 4095 ∧ 8 ≤ (s.core.port 31).stalls)
    ∧ (s.core.port 31).entries = [] ∧ s.core.up? 31 = true ∧ (s.core.port 31).hbSent + 10000 ≤ s.core.up ∧ (s.core.setFld (Reg.seifPortSel 3) 0 3 7).fld (Reg.seifPortSel 3) 0 3 = 7
    ∧ s.live = true ∧ (ported 4 id).core.portState 31 = 4 ∧ (s.core.port 31).allotSum - sget 256 (s.core.port 31).allot 31 + 256 ≤ 8192
    ∧ 8192 < (s.core.port 31).allotSum - sget 256 (s.core.port 31).allot 31 + 257 := by decide +kernel
/-- The flits of a codeword: a data flit with SEQ 4,095 and four idle flits, with their CRC-8. -/
def flits : List Byte :=
  let h (n : Nat) : List Byte := leBytes 4 (n + crc8 n * 2 ^ 24) ++ leBytes 124 0x55AA55
  h (4095 + 1 * 2 ^ 16) ++ h 0 ++ h 0 ++ h 0 ++ h 0
/-- The same codeword with a CRC-8 that does not agree in its last flit. -/
def badFlits : List Byte := flits.take 515 ++ [1] ++ flits.drop 516
/-- What lies in a codeword arrives as it was sent; with nothing on the wavelengths it cannot be corrected; a port that is not up. -/
theorem test_witness_LinkTraffic_codewords :
    let w : Codeword := { flits := flits, count := 2 ^ 20 - 1 }
    let f := flitOf (flitHeader flits 0)
    symbolErrors (stripe (codewordOf w)) (codewordOf w) ≤ 15 ∧ 15 < symbolErrors [] (codewordOf w) ∧ flitKind (flitHeader flits 0) = 1 ∧ f.hchk = true ∧ f.seq = 4095 ∧ (∃ i, i < 5 ∧ (flitOf (flitHeader badFlits i)).hchk = false)
    ∧ f.sop = false ∧ sfind ((ported 2 id).core.port 31).asm f.wadi = none
    ∧ (∀ i, i < 5 → 1 ≤ i → (flitOf (flitHeader flits i)).hchk = true ∧ flitKind (flitHeader flits i) = 0) ∧ (ported 2 id).core.portState 31 = 2
    ∧ ¬((ported 3 id).core.portState 31 = 2 ∨ (ported 3 id).core.portState 31 = 4) := by decide +kernel
theorem test_witness_LinkStates :
    let lit (st : Nat) (b : Bool) : State := booted (fun c => ((c.setFld (portKey 31 Reg.seifPortState) 0 3 st).setBit (portKey 31 Reg.seifPortState) 7 b).setBit (portKey 31 Reg.seifPortCtrl) 0 true)
    let key := portKey 31 Reg.seifPortState
    (lit 2 true).awake = true ∧ (lit 2 true).core.portState 31 = 2 ∧ ((lit 2 true).core.port 31).lastHb + 40000 ≤ (lit 2 true).core.up ∧ (lit 4 true).core.portState 31 = 4
    ∧ engineOf 31 = 7 ∧ (lit 2 true).core.fld key 7 1 = 1 ∧ (lit 3 false).core.fld key 7 1 = 0 ∧ (lit 3 false).core.portEn 31 = true ∧ (lit 3 false).core.replaced 31 = false
    ∧ (lit 3 false).core.portState 31 = 3 ∧ ((lit 3 false).core.port 31).trainDue ≤ (lit 3 false).core.up ∧ (lit 3 true).live = true
    ∧ ((lit 3 true).core.setFld (Reg.seifPortSel 3) 0 3 7).fld (Reg.seifPortSel 3) 0 3 = 7 ∧ (lit 1 true).core.portState 31 = 1 ∧ (lit 1 true).core.fld key 7 1 = 1
    ∧ (lit 1 true).core.miswired 31 0 0 = false ∧ ((lit 1 true).core.port 31).identSeen = false
    ∧ ({ lit 1 true with core := (lit 1 true).core.setPort 31 (fun x => { x with identSeen := true }) }.core.port 31).identSeen = true := by decide +kernel
/-- A port of the X ring that hears a node that is not its neighbour is miswired. -/
theorem test_witness_LinkStates_miswired :
    let s := booted (fun c => (((c.setReg (Reg.seifTopo 0) (3 + 2 ^ 16)).setFld (Reg.seifNode 0) 0 16 1).setFld (portKey 0 Reg.seifPortState) 0 3 1).setReg (portKey 0 Reg.seifPeer) 9)
    s.core.portState 0 = 1 ∧ s.core.miswired 0 9 0 = true ∧ s.core.miswired 0 (s.core.reg (portKey 0 Reg.seifPeer) % 65536) (s.core.reg (portKey 0 Reg.seifPeer) / 65536 % 32) = true := by decide +kernel

/-! ### Witnesses: the twin, the job, power -/

/-- A device of a pair in a state, which mirrors the first 3 groups. -/
def paired (p : Nat) (f : Job → Job) : State :=
  booted (fun c => let d := ((c.setFld Reg.twinState 0 3 p).setFld Reg.jobCfg 8 6 3).setFld (Reg.seifTwin 0) 0 16 77; { d with job := f d.job })
theorem test_witness_Twin :
    let s := paired 2 (fun j => { j with hbLast := some (70000000000 - 200000), twinKeys := [(77, [9])], fill := some { kind := 3, sends := true, receives := false, acked := 4 } })
    let q := paired 4 (fun j => j)
    let m : MirrorEnt := { quarter := 0, block := 5, num := 9, sent := true }
    s.serves = true ∧ s.live = true ∧ 64 < s.core.mirrorD ∧ s.core.mirrorD = 3 * 2 ^ 32 ∧ ({ q with core := { q.core with mirrorQ := [m] } } : State).core.mirrorQ.find? (fun m => m.sent && m.block == 320 / 64) = some m
    ∧ s.core.job.fill = some { kind := 3, sends := true, receives := false, acked := 4 } ∧ (s.core.mirrorD + 256) / 64 = s.core.fillBase { kind := 3, sends := true, receives := false } + 4
    ∧ s.core.mirroring = true ∧ s.core.formed = true ∧ s.core.job.hbSent + 10000 ≤ s.core.up ∧ (∃ k ∈ s.core.job.twinKeys, k.1 = s.core.twin ∧ k.2 ≠ [1]) ∧ s.core.job.hbLast = some (70000000000 - 200000)
    ∧ s.core.pair ≠ 3 ∧ s.core.inJob = false ∧ s.core.twin ≠ 0xFFFF ∧ 70000000000 - 200000 + 200000 ≤ s.core.up := by decide +kernel
/-- Blocks inside and outside the mirrored range, of a mirror and of a hand-back fill; acknowledgements; a pair that is not formed; a lost twin of a job's device. -/
theorem test_witness_Twin_more :
    let s := paired 2 (fun j => { j with hbLast := some (70000000000 - 200000), fill := some { kind := 3, sends := true, receives := false, acked := 4 } })
    let d := s.core.mirrorD
    let j : State := { s with core := (s.core.setFld Reg.jobState 0 3 1).setFld Reg.jobLeader 0 16 9 }
    d - 64 < d ∧ ¬(d < d) ∧ (d ≤ d ∧ d < 2 * d) ∧ ¬(d ≤ 2 * d ∧ 2 * d < 2 * d) ∧ live.core.formed = false ∧ live.serves = true ∧ live.core.twin = 0xFFFF ∧ j.core.jobState ≠ 4 ∧ j.core.twin ≠ 0xFFFF
    ∧ j.serves = true ∧ j.core.inJob = true ∧ j.core.adopted? ≠ some j.core.twin ∧ j.core.leader ≠ j.core.twin ∧ j.core.isLeader = false ∧ j.core.formed = true ∧ (320 : Nat) < d := by
  decide +kernel
theorem test_witness_JobRestarts :
    let s : State := paired 2 (fun j => { j with collecting := true, number := 4, phase := .ready })
    let l : State := { s with core := s.core.setFld Reg.jobLeader 0 16 s.core.node }
    s.serves = true ∧ l.core.isLeader = true ∧ l.core.job.collecting = true
    ∧ (∀ n ∈ (Core.seeJob { l.core with job := { l.core.job with readyFrom := insN l.core.job.readyFrom 0, readyAt := l.core.ct } }).jobNodes, n ∈ insN l.core.job.readyFrom 0) ∧ 5 ≠ s.core.job.number ∧ s.core.job.phase = .ready
    ∧ s.core.jobState ≠ 3 ∧ s.core.job.msgAt + 100000000 ≤ s.core.up ∧ s.core.inJob = false ∧ 3 ∉ s.core.job.gone ∧ (∀ x ∈ s.core.job.taken, x.1 ≠ 3 ∧ x.1 ≠ 4) := by decide +kernel
/-- A device that collects for less, and for just 100 ms; requests that concern adopted and lost nodes. -/
theorem test_witness_JobRestarts_more :
    let s := paired 2 (fun j => { j with collecting := true, msgAt := 70000000000 - 100000000, gone := [5], taken := [(6, 7)] })
    let y := paired 2 (fun j => { j with collecting := true, msgAt := 70000000000 - 99999999 })
    s.serves = true ∧ s.core.job.collecting = true ∧ s.core.job.msgAt + 100000000 ≤ s.core.up ∧ y.core.up < y.core.job.msgAt + 100000000 ∧ (8 : Nat) ∉ s.core.job.gone ∧ 5 ∈ s.core.job.gone
    ∧ (∃ x ∈ s.core.job.taken, x.1 = 6 ∨ x.1 = 8) ∧ (8 : Nat) ≠ s.core.node ∧ s.core.inJob = false ∧ s.core.jobState ≠ 3
    ∧ ¬(∀ n ∈ (Core.seeJob { s.core with mem := putBytes [] (s.core.groupAddr + 4) [1, 0, 0, 0, 0, 0, 0, 0, 0, 0, 0, 0, 9] }).jobNodes, n ∈ insN s.core.job.readyFrom 0) := by decide +kernel
theorem test_witness_PowerControl :
    let w : State := { live with pwr := { live.pwr with raise := some (32, 5), ramp := { live.pwr.ramp with waiting := [{ since := 1, unit := unitArray 0 }] }, columns := [(3, (7, 0))] } }
    let empty : State := { w with pwr := { w.pwr with ramp := { w.pwr.ramp with level := 0, since := w.core.up } } }
    let busy : State := { w with pwr := { w.pwr with ramp := { w.pwr.ramp with lastWork := [(unitArray 3, w.core.up)] } } }
    live.live = true ∧ live.pwr.periodAt / 1000000 < live.core.ct / 1000000 ∧ w.live = true ∧ w.pwr.raise = some (32, 5) ∧ 5 ≤ w.core.ct ∧ w.rampHolds (unitArray 0) = true
    ∧ empty.rampHolds (unitArray 0) = false ∧ sget (0, 0) w.pwr.columns 3 = (7, 0) ∧ 0 + 500 ≤ w.core.up ∧ busy.idleUnit (unitArray 3) = false ∧ w.idleUnit (unitArray 3) = true
    ∧ unitArray 3 ∉ w.pwr.ramp.admitted ∧ (2000 : Nat) < 2001 ∧ (10 : Nat) < 11 ∧ live.core.fld Reg.pwrPower 16 11 + ({ live.pwr with alloc := [1, 2, 3] } : Power).alloc.sum < 7 := by decide +kernel
theorem test_witness_PowerControl_more :
    let p : State := { live with pwr := { live.pwr with periodAt := live.core.ct } }
    let o : State := { live with pwr := { live.pwr with overAt := some (70000000000 - 20000), raise := some (32, 123456790) } }
    p.live = true ∧ p.core.ct / 1000000 ≤ p.pwr.periodAt / 1000000 ∧ p.pwr.periodAt ≠ 0 ∧ live.pwr.thermal = false ∧ live.core.fld Reg.pwrFreq 8 1 = 0
    ∧ o.pwr.overAt = some (70000000000 - 20000) ∧ 70000000000 - 20000 + 20000 ≤ o.core.up ∧ 1650 < 1651
    ∧ o.core.ct < 123456790 ∧ (live.core.setFld Reg.pwrFreq 8 1 1).fld Reg.pwrFreq 8 1 = 1 ∧ (live.core.setFld Reg.pwrFreqNow 17 1 1).fld Reg.pwrFreqNow 17 1 = 1 := by decide +kernel
theorem test_witness_ThermalAndPins :
    let s : State := { live with pwr := { live.pwr with stretch := [(3, 69999999999)], throttle := true, estimate := 1651 }, mgmt := { live.mgmt with pulseEnd := some 70000000000 } }
    let t : State := { s with pwr := { s.pwr with stretch := [(3, 70000000000 - s.core.periods32)] } }
    live.live = true ∧ (255 : Nat) < 256 ∧ live.awake = true ∧ sfind live.pwr.stretch 3 = none ∧ s.awake = true ∧ sfind s.pwr.stretch 3 = some 69999999999
    ∧ s.core.up < 69999999999 + s.core.periods32 ∧ t.pwr.stretch = [(3, 70000000000 - s.core.periods32)] ∧ 70000000000 - s.core.periods32 + t.core.periods32 ≤ t.core.up
    ∧ nth 0 live.pwr.volts 3 ≤ 700 + live.core.droopMv ∧ 699 + live.core.droopMv < nth 0 live.pwr.volts 3
    ∧ (got (exec .throttleAssert { s with pwr := { s.pwr with throttle := false } })).cap < s.pwr.estimate ∧ live.pwr.throttle = false ∧ s.pwr.throttle = true
    ∧ live.mgmt.held = false ∧ s.mgmt.pulseEnd = some 70000000000 ∧ 70000000000 ≤ s.core.up := by decide +kernel
theorem test_witness_ThermalAndPins_loop :
    let s : State := { live with pwr := { live.pwr with thermalAt := some (70000000000 - 999999) } }
    let d : State := { live with pwr := { live.pwr with thermalAt := some (70000000000 - 1000000) } }
    s.live = true ∧ s.thermalDue = false ∧ d.live = true ∧ d.thermalDue = true ∧ d.core.throttleC ≤ 109 ∧ (105 : Nat) ≤ 109 := by decide +kernel

/-! ### Single commands -/

/-- EVENT_SET of two counters from 4,095 sets one: no counter lies beyond (R79). -/
theorem test_event_set : let s := got (exec (.eventSet 0) (ready 0 4 [(24, 0, 4095), (26, 0, 2), (28, 0, 9)])); s.event 4095 = 9 ∧ s.event 0 = 0 := by decide +kernel
/-- CP_EVENT_ADD saturates (R89). -/
theorem test_event_add_saturates : (got (exec (.cpEventAdd 5) (live.setEvent 0 (2 ^ 32 - 3)))).event 0 = 2 ^ 32 - 1 := by decide +kernel
/-- A wait for 7 consumes 7 of 9 (R73). -/
theorem test_event_wait : (got (exec (.eventWaitSatisfied 0) ((at_ live 0 .waitEvent [(4, 0, 3), (4, 12, 7)]).setEvent 3 9))).event 3 = 2 := by decide +kernel
/-- LOOP with COUNT 2 jumps to its TARGET and leaves 1 (R79). -/
theorem test_loop : let t := (got (exec (.loop 0) (ready 0 2 [(24, 0, 7), (28, 0, 2), (32, 0, 1)]))).strand 0; t.next = some 7 ∧ nth (0, false) t.loops 1 = (1, true) := by decide +kernel
/-- HALT stops the strand with reason 1 once it completes (R79, R90). -/
theorem test_halt : let t := (got (exec (.descriptorComplete 0) (got (exec (.halt 0) (ready 0 3))))).strand 0; t.phase = .halted ∧ t.haltReason = 1 := by decide +kernel
/-- A reserved opcode faults the strand with reason 5 (R72). -/
theorem test_reserved_opcode : let s := booted (fun c => let c := c.setFld Reg.cpProgSize 0 13 1; { c with mem := [(c.program.1, 0x0C#8)] })
    let t := (got (exec (.descriptorFetch 0) (at_ s 0 .fetch []))).strand 0; t.phase = .faulted ∧ t.haltReason = 5 := by decide +kernel
/-- LOCK sets a page's lock bit, which a write of an RWL register then meets: the register keeps its value, while an RW register takes its (R12, R13). -/
theorem test_lock : (got (exec (.lock 4) live)).mgmt.locks = [4]
    ∧ (got (exec (.registerWrite Reg.ctCfg 0 15) (got (exec (.lock 4) live)))).core.reg Reg.ctCfg = 0xF008
    ∧ (got (exec (.registerWrite Reg.ctCfg 0 15) live)).core.reg Reg.ctCfg = 0 := by decide +kernel
/-- A write that does not cover its word is dropped (R677). -/
theorem test_partial_write : (got (exec (.registerWrite Reg.cpTimeout 5 7) live)).core.reg Reg.cpTimeout = 10000 := by decide +kernel
/-- A register page's ID word at reset (R762). -/
theorem test_page_id : live.core.reg 0x169000 = 0x96480319 := by decide +kernel
/-- A host write that fails ECRC is logged and stores nothing (R683). -/
theorem test_ecrc : (got (exec (.hostMemoryWrite true 64 [1#8] false true) live)).core.mem = [] ∧ (got (exec (.hostMemoryWrite true 64 [1#8] false true) live)).host.aer = [3] := by decide +kernel
/-- A posted write through BAR 4 (R679). -/
theorem test_host_write : (got (exec (.hostMemoryWrite true 64 [1#8, 2, 3, 4, 5, 6, 7, 8] false false) live)).core.numAt none (ergAddr 0 64) 4 = 0x04030201 := by decide +kernel
/-- RNG_DERIVE writes a key of 8 bytes (R448). -/
theorem test_rng_derive : (got (exec (.rngDerive 0) (ready 0 0x81 [(24, 0, 0), (32, 0, 4096), (40, 0, 0x2A)]))).core.numAt none 4096 8 = 0x2A := by decide +kernel
/-- Lane operations (R384). -/
theorem test_lane_integers : intOp 2 0xFFFFFFFF 0xFFFFFFFF 0 0 0 % 2 ^ 32 = 1 ∧ intOp 4 0xFFFFFFFF 0xFFFFFFFF 0 0 0 = 0xFFFFFFFE ∧ intOp 10 0x80000000 33 0 0 0 % 2 ^ 32 = 0xC0000000
    ∧ intOp 13 0xF0F 0 0 0 0 = 8 ∧ intOp 14 0 0 0 0xABCD1234 0x5678 % 2 ^ 32 = 0x56781234 := by decide +kernel
/-- IADD of group 1 in the enabled threads alone, sources read before the destination is written (R378, R384). -/
theorem test_lane_iadd : let l := laneInt (lx (group 5 4 (fun t => t + 7))) { w := 0x1000000000000000 + 4 * 2 ^ 47 + 4 * 2 ^ 40 + 4 * 2 ^ 33 }
    l.v 4 0 = 14 ∧ l.v 4 1 = 8 ∧ l.v 4 2 = 18 := by decide +kernel
/-- FP32 addition in a lane: 1 + 1; infinity minus infinity is invalid (R380, R385). -/
theorem test_lane_add : arith 0 1 Rnd.nearest 0x3F800000 0x3F800000 0 = (0x40000000, 0) ∧ (arith 0 1 Rnd.nearest 0x7F800000 0xFF800000 0).2 = 1
    ∧ arith 5 1 Rnd.nearest 0x3F800000 0 0 = (0x7F800000, 2) := by decide +kernel
/-- EXP2 of 3 is exact, LOG2 of 8 too (R387). -/
theorem test_lane_transcendentals : (transc 11 0x40400000).1 = 0x41000000 ∧ (transc 12 0x41000000).1 = 0x40400000 := by decide +kernel
/-- A lost heartbeat takes an UP port DOWN with reason 1 (R536). -/
theorem test_heartbeat_timeout : let s := got (exec (.heartbeatTimeout 31) (ported 2 id)); s.core.portState 31 = 3 ∧ s.core.fld (portKey 31 Reg.seifPortState) 3 4 = 1 := by decide +kernel
/-- IDENT keeps the peer (R551). -/
theorem test_ident : (got (exec (.ident 31 9 4) (ported 1 id))).core.reg (portKey 31 Reg.seifPeer) = 9 + 4 * 65536 := by decide +kernel
/-- A thermal trip at 115 °C holds the device; one at 114 °C does not (R665). -/
theorem test_thermal_trip : (got (exec (.thermalTrip 2 115) live)).mgmt.held = true ∧ (got (exec (.thermalTrip 2 114) live)).mgmt.held = false := by decide +kernel
/-- An estimate above 2,000 W paces COMPUTE (R647). -/
theorem test_power_estimate : (got (exec (.powerEstimate 2001) live)).pwr.short = true ∧ (got (exec (.powerEstimate 2000) live)).pwr.short = false := by decide +kernel
/-- The throttle input lowers the cap to PWR_EXT (R666). -/
theorem test_throttle : (got (exec .throttleAssert live)).cap ≤ live.core.capW ∧ (got (exec .throttleAssert live)).pwr.throttle = true := by decide +kernel
/-- A local commit waits for its member (R96). -/
theorem test_commit_waits : ((got (exec (.txnCommit 0) (ready 0 7 [(24, 0, 9), (28, 0, 1)]))).strand 0).phase = .busy := by decide +kernel
/-- One tick on an empty queue (log entry 2). -/
theorem test_tick : (got (step State.reset)).core.ct = 1 ∧ (got (step State.reset)).core.up = 1 := by decide +kernel
/-- SMBUS_IDENT answers 16 bytes, the part first (R707). -/
theorem test_smbus_ident : ((got (exec .smbusIdent live)).core.wire.map (fun m => match m.body with | .smbus bs => bs.length | _ => 0)) = [16] := by decide +kernel
/-- An owner slot is programmed once, and the first one advances the lifecycle to OWNED (R718). -/
theorem test_owner_slot : ((ownerFuses { lifecycle := 1 } 4 0 []).map (fun f => (f.lifecycle, f.programmed))) = some (2, 0x10)
    ∧ ((ownerFuses { lifecycle := 2, programmed := 0x10 } 4 0 []).isSome) = false := by decide +kernel
/-- A new epoch: 0 is older than 32,767 and not older than 32,768 (R587). -/
theorem test_epochs : epochOlder 0 32767 = true ∧ epochOlder 0 32768 = false ∧ epochOlder 65535 0 = true := by decide +kernel

end Sys2Proof.Tests
end

section
/-!
SUPPORT. O9 fails: it ranges over states in which a warm reset is already due when a function-level reset begins, and that command then ends in the warm reset.
-/
namespace Sys2Proof.Machine
open Sys2Proof

/-- A READY device with page 3 locked, in which the warm reset of R689 is due. -/
def lockedWithResetDue : State :=
  { core := State.reset.core.setFld Reg.bootStatus 0 4 11, mgmt := { locks := [3], bootDone := true, warmDue := true } }

/-- The function-level reset itself keeps the lock (R13, R690); the end of the command makes the warm reset that was due, and the lock goes with it. -/
theorem functionReset_keeps_finish_clears_lock :
    (functionReset lockedWithResetDue).mgmt.locks = [3]
    ∧ (finish lockedWithResetDue (functionReset lockedWithResetDue)).mgmt.locks = [] := by
  constructor <;> decide +kernel

/-- Refutes O9: where a warm reset is due before the command, a function-level reset ends in it, and a lock that was set is gone. The quantifier over all states admits
such a state, though the command that makes a warm reset due performs it at its own end (R689). -/
theorem not_locksHold : ¬ Obligations.LocksHold := by
  unfold Obligations.LocksHold
  intro h
  have locked : 3 ∈ lockedWithResetDue.mgmt.locks := List.mem_singleton_self 3
  obtain ⟨_, cleared⟩ := functionReset_keeps_finish_clears_lock
  rcases h .functionLevelReset lockedWithResetDue _ 3 rfl locked with kept | ⟨b, cold⟩ | ⟨other, _⟩
  · rw [cleared] at kept
    exact absurd kept List.not_mem_nil
  · cases cold
  · exact other rfl

end Sys2Proof.Machine
end

section
/-!
SUPPORT. The lane processors' register files: what a write of a V or S register leaves, and what an instruction leaves that writes one V register in each enabled thread or one
S register for the group (R344, R378).
-/
namespace Sys2Proof.Machine
open Sys2Proof

/-! ### V registers -/

@[simp] theorem Lx.vname_setV (l : Lx) (r t x q : Nat) : (l.setV r t x).vname q = l.vname q := rfl
@[simp] theorem Lx.undef_setV (l : Lx) (r t x : Nat) : (l.setV r t x).undef = l.undef := rfl
@[simp] theorem Lx.g_v_setV (l : Lx) (r t x : Nat) : (l.setV r t x).g.v = sput l.g.v (l.vname r * 32 + t) (x % 2 ^ 32) := rfl

/-- A write of thread `t`'s register reads back, modulo 2³², under every name of that register; the other registers and the other threads keep their values. -/
theorem Lx.v_setV (l : Lx) (r x q : Nat) {t u : Nat} (ht : t < 32) (hu : u < 32) :
    (l.setV r t x).v q u = if u = t ∧ l.vname q = l.vname r then x % 2 ^ 32 else l.v q u := by
  simp only [Lx.v, Lx.vname_setV, Lx.undef_setV, Lx.g_v_setV]
  by_cases same : u = t ∧ l.vname q = l.vname r
  · obtain ⟨rfl, hname⟩ := same
    simp [hname, sfind_sput_eq]
  · have key : l.vname q * 32 + u ≠ l.vname r * 32 + t := by omega
    rw [if_neg same, sfind_sput_ne _ _ _ _ key]

theorem Lx.mem_threads (l : Lx) (i : LWord) (t : Nat) : t ∈ l.threads i ↔ t < 32 ∧ (l.enabled i).testBit t = true := by
  simp [Lx.threads, upto]

/-- Writes of register `dst` in several threads leave each of those threads its own value. -/
theorem Lx.v_foldl_setV (dst : Nat) (val : Nat → Nat) (ts : List Nat) (within : ∀ t ∈ ts, t < 32) (l : Lx) (q u : Nat) (hu : u < 32) :
    (ts.foldl (fun k t => k.setV dst t (val t)) l).v q u = if u ∈ ts ∧ l.vname q = l.vname dst then val u % 2 ^ 32 else l.v q u := by
  induction ts generalizing l with
  | nil => simp
  | cons t ts ih =>
    rw [List.foldl_cons, ih (fun s hs => within s (List.mem_cons_of_mem t hs)), l.v_setV dst (val t) q (within t List.mem_cons_self) hu]
    simp only [Lx.vname_setV, List.mem_cons]
    by_cases later : u ∈ ts
    · by_cases hname : l.vname q = l.vname dst <;> simp [later, hname]
    · by_cases now : u = t
      · subst now; simp [later]
      · simp [later, now]

/-- What an instruction leaves in the V registers when it writes register `dst` in each enabled thread (R378). -/
theorem Lx.v_each_setV (l : Lx) (i : LWord) (dst : Nat) (val : Nat → Nat) (q u : Nat) (hu : u < 32) :
    (l.each i (fun k t => k.setV dst t (val t))).v q u
      = if (l.enabled i).testBit u = true ∧ l.vname q = l.vname dst then val u % 2 ^ 32 else l.v q u := by
  have within : ∀ t ∈ l.threads i, t < 32 := fun t ht => ((l.mem_threads i t).mp ht).1
  rw [Lx.each, Lx.v_foldl_setV dst val _ within l q u hu]
  simp only [Lx.mem_threads, hu, true_and]

/-- Writes of V registers change nothing but the V registers. -/
theorem Lx.each_setV_frame (l : Lx) (i : LWord) (dst : Nat) (val : Nat → Nat) :
    l.each i (fun k t => k.setV dst t (val t)) = { l with g := { l.g with v := (l.each i (fun k t => k.setV dst t (val t))).g.v } } := by
  have only : ∃ m, l.each i (fun k t => k.setV dst t (val t)) = { l with g := { l.g with v := m } } := by
    refine List.foldlRecOn (motive := fun k : Lx => ∃ m, k = { l with g := { l.g with v := m } }) _ _ ⟨l.g.v, rfl⟩ ?_
    rintro _ ⟨m, rfl⟩ t -
    exact ⟨_, rfl⟩
  obtain ⟨m, hm⟩ := only
  rw [hm]

/-! ### S registers -/

/-- A write of an S register reads back, modulo 2³², and the other S registers keep their values. -/
theorem Lx.s_setS (l : Lx) (r x q : Nat) : (l.setS r x).s q = if q % 32 = r % 32 then x % 2 ^ 32 else l.s q := by
  unfold Lx.s Lx.setS
  split
  · next same => rw [same, sget_sset_eq]
  · next other => exact sget_sset_ne _ _ _ _ _ other

/-- What an instruction leaves in the S registers when it writes register `dst` once for the group (R378). -/
theorem Lx.s_once_setS (l : Lx) (i : LWord) (dst x q : Nat) :
    (l.once i (fun k => k.setS dst x)).s q = if l.enabled i ≠ 0 ∧ q % 32 = dst % 32 then x % 2 ^ 32 else l.s q := by
  by_cases idle : l.enabled i = 0 <;> simp [Lx.once, idle, Lx.s_setS]

/-- A write of an S register changes nothing but the S registers. -/
theorem Lx.once_setS_frame (l : Lx) (i : LWord) (dst x : Nat) :
    l.once i (fun k => k.setS dst x) = { l with g := { l.g with s := (l.once i (fun k => k.setS dst x)).g.s } } := by
  unfold Lx.once
  split <;> rfl

end Sys2Proof.Machine
end

section
/-!
SUPPORT. Groups 1 and 9 of the lane instructions: the integer operations against the operations of 32-bit vectors, and what the two groups leave (R384).
-/
namespace Sys2Proof.Machine
open Sys2Proof

/-! ### Two's complement -/

theorem toSigned_toNat {w : Nat} (x : BitVec w) : toSigned w x.toNat = x.toInt := by
  cases w with
  | zero => simp [toSigned, BitVec.of_length_zero]
  | succ w =>
    have half : (2 * x.toNat < 2 ^ (w + 1)) ↔ x.toNat < 2 ^ w := by rw [Nat.pow_succ]; omega
    simp only [toSigned, Nat.mod_eq_of_lt x.isLt, BitVec.toInt_eq_toNat_cond, half, Nat.add_sub_cancel]
    push_cast
    rfl

theorem ofSigned_eq_toNat_ofInt (w : Nat) (x : Int) : ofSigned w x = (BitVec.ofInt w x).toNat := by
  simp [ofSigned, BitVec.toNat_ofInt]

/-! ### The operations of R384 whose result is not an operation of `BitVec` as it stands -/

/-- The result is named before the branch is chosen: comparing the branch with the written-out result, the kernel would count down from 2³². -/
theorem intOp_one (a b c d imm : Nat) : intOp 1 a b c d imm = (a + 2 ^ 32 - b) % 2 ^ 32 := by
  obtain ⟨x, hx⟩ : ∃ x, (a + 2 ^ 32 - b) % 2 ^ 32 = x := ⟨_, rfl⟩
  unfold intOp
  rw [hx]
  rfl

theorem intOp_isub (a b : BitVec 32) (c d imm : Nat) : intOp 1 a.toNat b.toNat c d imm = (a - b).toNat := by
  have inRange := b.isLt
  rw [intOp_one, BitVec.toNat_sub]
  congr 1
  omega

theorem intOp_imacc (a b c : BitVec 32) (d imm : Nat) : intOp 3 a.toNat b.toNat c.toNat d imm = (a * b + c).toNat := by
  change (a.toNat * b.toNat + c.toNat) % 2 ^ 32 = _
  rw [BitVec.toNat_add, BitVec.toNat_mul, Nat.mod_add_mod]

/-- A floored division by the power of two is the shift that fills with the sign. -/
theorem intOp_sar (a b : BitVec 32) (c d imm : Nat) : intOp 10 a.toNat b.toNat c d imm = (a.sshiftRight (b.toNat % 32)).toNat := by
  change ofSigned 32 (toSigned 32 a.toNat / (2 ^ (b.toNat % 32) : Nat)) = _
  rw [toSigned_toNat, ofSigned_eq_toNat_ofInt, BitVec.sshiftRight, Int.shiftRight_eq_div_pow]

theorem intOp_imin (a b : BitVec 32) (c d imm : Nat) : intOp 11 a.toNat b.toNat c d imm = (if a.toInt ≤ b.toInt then a else b).toNat := by
  change (if toSigned 32 a.toNat ≤ toSigned 32 b.toNat then a.toNat else b.toNat) = _
  rw [toSigned_toNat, toSigned_toNat, apply_ite BitVec.toNat]

theorem intOp_imax (a b : BitVec 32) (c d imm : Nat) : intOp 12 a.toNat b.toNat c d imm = (if a.toInt ≤ b.toInt then b else a).toNat := by
  change (if toSigned 32 a.toNat ≤ toSigned 32 b.toNat then b.toNat else a.toNat) = _
  rw [toSigned_toNat, toSigned_toNat, apply_ite BitVec.toNat]

/-- The two halves do not overlap, so their sum is their union. -/
theorem intOp_inshi (d : BitVec 32) (imm : BitVec 16) (a b c : Nat) :
    intOp 14 a b c d.toNat imm.toNat = ((d &&& 0xFFFF#32) ||| (imm.zeroExtend 32 <<< 16)).toNat := by
  have low : (d &&& 0xFFFF#32).toNat = d.toNat % 2 ^ 16 := by
    rw [BitVec.toNat_and]
    exact Nat.and_two_pow_sub_one_eq_mod d.toNat 16
  have high : (imm.zeroExtend 32 <<< 16).toNat = 2 ^ 16 * imm.toNat := by
    have inRange := imm.isLt
    simp only [BitVec.toNat_shiftLeft, BitVec.zeroExtend, BitVec.toNat_setWidth, Nat.shiftLeft_eq]
    omega
  calc intOp 14 a b c d.toNat imm.toNat
      = d.toNat % 2 ^ 16 + imm.toNat * 2 ^ 16 := rfl
    _ = 2 ^ 16 * imm.toNat + d.toNat % 2 ^ 16 := by rw [Nat.add_comm, Nat.mul_comm]
    _ = 2 ^ 16 * imm.toNat ||| d.toNat % 2 ^ 16 := Nat.two_pow_add_eq_or_of_lt (Nat.mod_lt _ (by decide)) _
    _ = ((d &&& 0xFFFF#32) ||| (imm.zeroExtend 32 <<< 16)).toNat := by rw [BitVec.toNat_or, high, low, Nat.or_comm]

/-! ### What the two groups leave -/

/-- Group 1: each enabled thread's V register takes the operation of that thread's operands, read before any thread writes (R378, R384). -/
theorem v_laneInt (l : Lx) (i : LWord) (r t : Nat) (ht : t < 32) :
    (laneInt l i).v r t = if (l.enabled i).testBit t = true ∧ l.vname r = l.vname i.dst
      then intOp i.op (l.v i.s1 t) (l.ib i t) (l.v i.s3 t) (l.v i.dst t) i.imm % 2 ^ 32 else l.v r t :=
  l.v_each_setV i i.dst _ r t ht

/-- The second source of a group 1 instruction, whatever FMT holds (R376, R384). -/
theorem Lx.ib_of_grp_one (l : Lx) (i : LWord) (t : Nat) (one : i.grp = 1) :
    l.ib i t = if i.k = 1 then l.s i.s2 else if i.k = 2 then i.simm else l.v i.s2 t := by
  unfold Lx.ib
  split
  · next k1 => simp [k1, Lx.is, one]
  · next k2 => simp [k2]
  · next k1 k2 => rw [if_neg k1, if_neg k2]

/-- Settles O44: a fold over the enabled threads for group 1, one write for group 9, and each operation against `BitVec`. -/
theorem laneIntegers : Obligations.LaneIntegers := by
  unfold Obligations.LaneIntegers
  refine ⟨fun l i => ⟨v_laneInt l i, l.each_setV_frame i i.dst _, l.s_once_setS i i.dst _, l.once_setS_frame i i.dst _, fun one t => l.ib_of_grp_one i t one⟩,
    fun a b c d imm => ?_⟩
  exact ⟨(BitVec.toNat_add a b).symm, intOp_isub a b _ _ _, (BitVec.toNat_mul a b).symm, intOp_imacc a b c _ _, rfl,
    (BitVec.toNat_and a b).symm, (BitVec.toNat_or a b).symm, (BitVec.toNat_xor a b).symm, (BitVec.toNat_shiftLeft (x := a)).symm,
    (BitVec.toNat_ushiftRight a _).symm, intOp_sar a b _ _ _, intOp_imin a b _ _ _, intOp_imax a b _ _ _, rfl, intOp_inshi d imm _ _ _, rfl⟩

end Sys2Proof.Machine
end

section
/-!
SUPPORT. The interleave maps of R461: which channel and channel offset hold an address of a DRAM group, in both modes, and that neither mode sends two addresses to one cell.
-/
namespace Sys2Proof.Machine
open Sys2Proof

theorem field_eq_div_mod (x lo w : Nat) : field x lo w = x / 2 ^ lo % 2 ^ w := by rw [field, Nat.shiftRight_eq_div_pow]

/-- A block's number and a byte's place within it. The dividend stands as a variable, since `omega` unfolds nested sums under two divisions by one number. -/
theorem mul_256_add_div_mod (n : Nat) {b : Nat} (hb : b < 256) : (n * 256 + b) / 256 = n ∧ (n * 256 + b) % 256 = b := by omega

/-! ### The hashes -/

/-- From core lemmas alone: the files of the model do not import the library that names this fact. -/
theorem xor_hash_twice (x hash : Nat) : x ^^^ hash ^^^ hash = x := by rw [Nat.xor_assoc, Nat.xor_self, Nat.xor_zero]

/-- What DEVICE mode mixes into the low 8 bits of a 256-byte block's number: the group and the 16 bits above (R461). -/
def deviceHash (k hi : Nat) : Nat := hi % 256 ^^^ hi / 256 ^^^ k

/-- What QUARTER mode mixes into the low 6 bits of a block's number within its slice: the group and the 16 bits above (R461). -/
def quarterHash (k hi : Nat) : Nat := hi % 64 ^^^ hi / 64 % 64 ^^^ hi / 4096 ^^^ k % 64

theorem deviceHash_lt {k hi : Nat} (hk : k < 96) (hhi : hi < 2 ^ 16) : deviceHash k hi < 2 ^ 8 :=
  Nat.xor_lt_two_pow (Nat.xor_lt_two_pow (by omega) (by omega)) (by omega)

theorem quarterHash_lt (k : Nat) {hi : Nat} (hhi : hi < 2 ^ 16) : quarterHash k hi < 2 ^ 6 :=
  Nat.xor_lt_two_pow (Nat.xor_lt_two_pow (Nat.xor_lt_two_pow (by omega) (by omega)) (by omega)) (by omega)

/-! ### The two maps, on an address in its parts -/

/-- The map of DEVICE mode as R461 writes it, from the address within the group. -/
theorem dramChan_of_device {ilv : BitVec 96} {k a : Nat} (mode : ilv.getLsbD k = false) (hk : k < 96) (ha : a < 2 ^ 32) :
    dramChan ilv (k * 2 ^ 32 + a)
      = ((a / 256 % 256) ^^^ (a / 256 / 256 % 256) ^^^ (a / 256 / 65536) ^^^ k, k * 2 ^ 24 + a / 256 / 256 * 256 + a % 256) := by
  have group : (k * 2 ^ 32 + a) / 2 ^ 32 = k := by omega
  have inGroup : (k * 2 ^ 32 + a) % 2 ^ 32 = a := by omega
  have block : a / 2 ^ 8 % 2 ^ 24 = a / 256 := by omega
  have top : a / 256 / 2 ^ 16 % 2 ^ 8 = a / 256 / 65536 := by omega
  have row : a / 256 / 2 ^ 8 % 2 ^ 16 = a / 256 / 256 := by omega
  have inRange : (a / 256 % 256) ^^^ (a / 256 / 256 % 256) ^^^ (a / 256 / 65536) ^^^ k < 2 ^ 8 :=
    Nat.xor_lt_two_pow (Nat.xor_lt_two_pow (Nat.xor_lt_two_pow (by omega) (by omega)) (by omega)) (by omega)
  simp only [dramChan, field_eq_div_mod, group, inGroup, mode, block, top, row, Bool.false_eq_true, if_false, Nat.pow_zero, Nat.div_one]
  exact congrArg (·, _) (Nat.mod_eq_of_lt inRange)

theorem dramChan_device {ilv : BitVec 96} {k hi l b : Nat} (mode : ilv.getLsbD k = false) (hk : k < 96) (hhi : hi < 2 ^ 16) (hl : l < 2 ^ 8) (hb : b < 256) :
    dramChan ilv (k * 2 ^ 32 + ((hi * 256 + l) * 256 + b)) = (l ^^^ deviceHash k hi, k * 2 ^ 24 + hi * 256 + b) := by
  obtain ⟨row, low⟩ := mul_256_add_div_mod hi hl
  have top : (hi * 256 + l) / 65536 = hi / 256 := by omega
  obtain ⟨block, byte⟩ := mul_256_add_div_mod (hi * 256 + l) hb
  rw [dramChan_of_device mode hk (by omega), byte, block, low, row, top, deviceHash]
  simp only [Nat.xor_assoc]

theorem dramAddr_device {ilv : BitVec 96} {k hi c b : Nat} (mode : ilv.getLsbD k = false) (hk : k < 96) (hhi : hi < 2 ^ 16) (hc : c < 2 ^ 8) (hb : b < 256) :
    dramAddr ilv c (k * 2 ^ 24 + hi * 256 + b) = k * 2 ^ 32 + ((hi * 256 + (c ^^^ deviceHash k hi)) * 256 + b) := by
  have group : (k * 2 ^ 24 + hi * 256 + b) / 2 ^ 24 = k := by omega
  have row : (k * 2 ^ 24 + hi * 256 + b) / 2 ^ 8 % 2 ^ 16 = hi := by omega
  have mid : hi / 2 ^ 0 % 2 ^ 8 = hi % 256 := by omega
  have top : hi / 2 ^ 8 % 2 ^ 8 = hi / 256 := by omega
  have byte : (k * 2 ^ 24 + hi * 256 + b) % 256 = b := by omega
  have hash : c ^^^ hi % 256 ^^^ hi / 256 ^^^ k = c ^^^ deviceHash k hi := by simp only [deviceHash, Nat.xor_assoc]
  have inRange : (c ^^^ deviceHash k hi) % 256 = c ^^^ deviceHash k hi := Nat.mod_eq_of_lt (Nat.xor_lt_two_pow hc (deviceHash_lt hk hhi))
  simp only [dramAddr, field_eq_div_mod, group, mode, row, mid, top, byte, hash, inRange, Bool.false_eq_true, if_false]
  simp only [Nat.add_assoc]

/-- The map of QUARTER mode as R461 writes it: `y` is the block's number within the slice. -/
theorem dramChan_of_quarter {ilv : BitVec 96} {k a y : Nat} (mode : ilv.getLsbD k = true) (ha : a < 2 ^ 32) (hy : a / 256 % 2 ^ 22 = y) :
    dramChan ilv (k * 2 ^ 32 + a)
      = (a / 2 ^ 30 * 64 + ((y % 64) ^^^ (y / 64 % 64) ^^^ (y / 4096 % 64) ^^^ (y / 2 ^ 18) ^^^ (k % 64)), k * 2 ^ 24 + y / 64 * 256 + a % 256) := by
  have group : (k * 2 ^ 32 + a) / 2 ^ 32 = k := by omega
  have inGroup : (k * 2 ^ 32 + a) % 2 ^ 32 = a := by omega
  have top : y / 2 ^ 18 % 2 ^ 4 = y / 2 ^ 18 := by omega
  have row : y / 2 ^ 6 % 2 ^ 16 = y / 64 := by omega
  have inRange : (y % 64) ^^^ (y / 64 % 64) ^^^ (y / 4096 % 64) ^^^ (y / 2 ^ 18) ^^^ (k % 64) < 2 ^ 6 :=
    Nat.xor_lt_two_pow (Nat.xor_lt_two_pow (Nat.xor_lt_two_pow (Nat.xor_lt_two_pow (by omega) (by omega)) (by omega)) (by omega)) (by omega)
  have block : a / 2 ^ 8 % 2 ^ 22 = y := hy
  simp only [dramChan, field_eq_div_mod, group, inGroup, mode, block, top, row, if_true, Nat.pow_zero, Nat.div_one]
  exact congrArg (fun h => (a / 2 ^ 30 * 64 + h, _)) (Nat.mod_eq_of_lt inRange)

theorem dramChan_quarter {ilv : BitVec 96} {k j hi l b : Nat} (mode : ilv.getLsbD k = true) (hj : j < 4) (hhi : hi < 2 ^ 16) (hl : l < 2 ^ 6) (hb : b < 256) :
    dramChan ilv (k * 2 ^ 32 + (j * 2 ^ 30 + (hi * 64 + l) * 256 + b)) = (j * 64 + (l ^^^ quarterHash k hi), k * 2 ^ 24 + hi * 256 + b) := by
  have byte : (j * 2 ^ 30 + (hi * 64 + l) * 256 + b) % 256 = b := by omega
  have slice : (j * 2 ^ 30 + (hi * 64 + l) * 256 + b) / 2 ^ 30 = j := by omega
  have low : (hi * 64 + l) % 64 = l := by omega
  have row : (hi * 64 + l) / 64 = hi := by omega
  have upper : (hi * 64 + l) / 4096 = hi / 64 := by omega
  have top : (hi * 64 + l) / 2 ^ 18 = hi / 4096 := by omega
  rw [dramChan_of_quarter (y := hi * 64 + l) mode (by omega) (by omega), byte, slice, low, row, upper, top, quarterHash]
  simp only [Nat.xor_assoc]

theorem dramAddr_quarter {ilv : BitVec 96} {k j hi h b : Nat} (mode : ilv.getLsbD k = true) (hhi : hi < 2 ^ 16) (hh : h < 2 ^ 6) (hb : b < 256) :
    dramAddr ilv (j * 64 + h) (k * 2 ^ 24 + hi * 256 + b) = k * 2 ^ 32 + (j * 2 ^ 30 + (hi * 64 + (h ^^^ quarterHash k hi)) * 256 + b) := by
  have group : (k * 2 ^ 24 + hi * 256 + b) / 2 ^ 24 = k := by omega
  have row : (k * 2 ^ 24 + hi * 256 + b) / 2 ^ 8 % 2 ^ 16 = hi := by omega
  have slice : (j * 64 + h) / 64 = j := by omega
  have chan : (j * 64 + h) % 64 = h := by omega
  have mid : hi / 2 ^ 0 % 2 ^ 6 = hi % 64 := by omega
  have upper : hi / 2 ^ 6 % 2 ^ 6 = hi / 64 % 64 := by omega
  have top : hi / 2 ^ 12 % 2 ^ 4 = hi / 4096 := by omega
  have byte : (k * 2 ^ 24 + hi * 256 + b) % 256 = b := by omega
  have hash : h ^^^ hi % 64 ^^^ hi / 64 % 64 ^^^ hi / 4096 ^^^ k % 64 = h ^^^ quarterHash k hi := by simp only [quarterHash, Nat.xor_assoc]
  have inRange : (h ^^^ quarterHash k hi) % 64 = h ^^^ quarterHash k hi := Nat.mod_eq_of_lt (Nat.xor_lt_two_pow hh (quarterHash_lt k hhi))
  simp only [dramAddr, field_eq_div_mod, group, mode, row, slice, chan, mid, upper, top, byte, hash, inRange, if_true]
  simp only [Nat.add_assoc]

/-! ### One-to-one: an address and the cell that holds it -/

/-- `HeldAt ilv a c o`: R461 places address `a` at offset `o` of channel `c`. Each constructor names the group, the block's bits and the byte within the block, from which both
sides are made: the low bits of the block's number on the address side, and their mix with the hash on the channel side. -/
inductive HeldAt (ilv : BitVec 96) : (a c o : Nat) → Prop
  | device {k hi l b : Nat} (mode : ilv.getLsbD k = false) (hk : k < 96) (hhi : hi < 2 ^ 16) (hl : l < 2 ^ 8) (hb : b < 256) :
      HeldAt ilv (k * 2 ^ 32 + ((hi * 256 + l) * 256 + b)) (l ^^^ deviceHash k hi) (k * 2 ^ 24 + hi * 256 + b)
  | quarter {k j hi l b : Nat} (mode : ilv.getLsbD k = true) (hk : k < 96) (hj : j < 4) (hhi : hi < 2 ^ 16) (hl : l < 2 ^ 6) (hb : b < 256) :
      HeldAt ilv (k * 2 ^ 32 + (j * 2 ^ 30 + (hi * 64 + l) * 256 + b)) (j * 64 + (l ^^^ quarterHash k hi)) (k * 2 ^ 24 + hi * 256 + b)

namespace HeldAt
variable {ilv : BitVec 96} {a c o : Nat}

theorem dramChan_eq (held : HeldAt ilv a c o) : dramChan ilv a = (c, o) := by
  cases held with
  | device mode hk hhi hl hb => exact dramChan_device mode hk hhi hl hb
  | quarter mode hk hj hhi hl hb => exact dramChan_quarter mode hj hhi hl hb

/-- The hash depends on the offset alone, so mixing it in a second time takes it out again. -/
theorem dramAddr_eq (held : HeldAt ilv a c o) : dramAddr ilv c o = a := by
  cases held with
  | device mode hk hhi hl hb =>
    rw [dramAddr_device mode hk hhi (Nat.xor_lt_two_pow hl (deviceHash_lt hk hhi)) hb, xor_hash_twice]
  | @quarter k _ _ _ _ mode hk hj hhi hl hb =>
    rw [dramAddr_quarter mode hhi (Nat.xor_lt_two_pow hl (quarterHash_lt k hhi)) hb, xor_hash_twice]

theorem addr_lt (held : HeldAt ilv a c o) : a < dramEnd := by
  unfold dramEnd
  cases held <;> omega

theorem chan_lt (held : HeldAt ilv a c o) : c < 256 := by
  cases held with
  | device mode hk hhi hl hb => exact Nat.xor_lt_two_pow (n := 8) hl (deviceHash_lt hk hhi)
  | @quarter k _ _ _ _ mode hk hj hhi hl hb =>
    have inQuarter := Nat.xor_lt_two_pow hl (quarterHash_lt k hhi)
    omega

/-- The frames of a group's cells are the group's own. -/
theorem offset_group (held : HeldAt ilv a c o) : o / 2 ^ 24 = a / 2 ^ 32 := by
  cases held <;> omega

end HeldAt

theorem exists_heldAt_of_addr (ilv : BitVec 96) {a : Nat} (ha : a < dramEnd) : ∃ c o, HeldAt ilv a c o := by
  unfold dramEnd at ha
  cases mode : ilv.getLsbD (a / 2 ^ 32) with
  | false =>
    have parts : a = a / 2 ^ 32 * 2 ^ 32 + ((a / 65536 % 2 ^ 16 * 256 + a / 256 % 256) * 256 + a % 256) := by omega
    have held := HeldAt.device (hi := a / 65536 % 2 ^ 16) (l := a / 256 % 256) (b := a % 256) mode (by omega) (by omega) (by omega) (by omega)
    rw [← parts] at held
    exact ⟨_, _, held⟩
  | true =>
    have parts : a = a / 2 ^ 32 * 2 ^ 32 + (a / 2 ^ 30 % 4 * 2 ^ 30 + (a / 16384 % 2 ^ 16 * 64 + a / 256 % 64) * 256 + a % 256) := by omega
    have held := HeldAt.quarter (j := a / 2 ^ 30 % 4) (hi := a / 16384 % 2 ^ 16) (l := a / 256 % 64) (b := a % 256) mode
      (by omega) (by omega) (by omega) (by omega) (by omega)
    rw [← parts] at held
    exact ⟨_, _, held⟩

theorem exists_heldAt_of_cell (ilv : BitVec 96) {c o : Nat} (hc : c < 256) (ho : o < 96 * 2 ^ 24) : ∃ a, HeldAt ilv a c o := by
  have hk : o / 2 ^ 24 < 96 := by omega
  have hhi : o / 256 % 2 ^ 16 < 2 ^ 16 := by omega
  have hb : o % 256 < 256 := by omega
  have offset : o / 2 ^ 24 * 2 ^ 24 + o / 256 % 2 ^ 16 * 256 + o % 256 = o := by omega
  cases mode : ilv.getLsbD (o / 2 ^ 24) with
  | false =>
    have held := HeldAt.device mode hk hhi (Nat.xor_lt_two_pow (n := 8) hc (deviceHash_lt hk hhi)) hb
    rw [xor_hash_twice, offset] at held
    exact ⟨_, held⟩
  | true =>
    have held := HeldAt.quarter (j := c / 64) mode hk (by omega) hhi
      (Nat.xor_lt_two_pow (n := 6) (Nat.mod_lt c (by decide)) (quarterHash_lt (o / 2 ^ 24) hhi)) hb
    rw [xor_hash_twice, offset, show c / 64 * 64 + c % 64 = c by omega] at held
    exact ⟨_, held⟩

/-! ### The statement's parts, and all of it -/

/-- Slice `j` of a QUARTER group lies on quarter `j`'s 64 channels. -/
theorem dramChan_slice {ilv : BitVec 96} {k j a : Nat} (mode : ilv.getLsbD k = true) (hj : j < 4) (ha : a < 2 ^ 30) :
    (dramChan ilv (k * 2 ^ 32 + j * 2 ^ 30 + a)).1 / 64 = j := by
  have hhi : a / 16384 < 2 ^ 16 := by omega
  have hl : a / 256 % 64 < 2 ^ 6 := by omega
  have parts : k * 2 ^ 32 + j * 2 ^ 30 + a = k * 2 ^ 32 + (j * 2 ^ 30 + (a / 16384 * 64 + a / 256 % 64) * 256 + a % 256) := by omega
  have inQuarter := Nat.xor_lt_two_pow hl (quarterHash_lt k hhi)
  rw [parts, dramChan_quarter mode hj hhi hl (by omega)]
  omega

theorem wantedIlv_reset : State.reset.core.wantedIlv = 0 := by decide +kernel

/-- Settles O11: both maps mix the low bits of the block's number with a hash of bits that the channel offset keeps. -/
theorem interleaveMap : Obligations.InterleaveMap := by
  unfold Obligations.InterleaveMap
  refine ⟨fun ilv k a hk ha => ⟨fun mode => dramChan_of_device mode hk ha, fun mode => dramChan_of_quarter mode ha rfl⟩, fun ilv a ha => ?_,
    fun ilv c o hc ho => ?_, fun ilv k j a _ hj ha mode => dramChan_slice mode hj ha, rfl, fun i _ => ?_⟩
  · obtain ⟨c, o, held⟩ := exists_heldAt_of_addr ilv ha
    rw [held.dramChan_eq]
    exact ⟨held.chan_lt, held.offset_group, held.dramAddr_eq⟩
  · obtain ⟨a, held⟩ := exists_heldAt_of_cell ilv hc ho
    rw [held.dramAddr_eq]
    exact ⟨held.addr_lt, held.dramChan_eq⟩
  · rw [wantedIlv_reset]
    exact BitVec.getLsbD_zero

end Sys2Proof.Machine
end

section
/-!
SUPPORT. The code of R488 to R490: the powers of α, what the syndromes of a pattern of flips are, that the columns of any one to four of the positions 0 to 78 are
independent, and so what the decision table gives for every pattern of one, two and three errors.
-/
namespace Sys2Proof.Machine
open Sys2Proof

/-! ### Powers of α -/

theorem gfStep_eq_shift : ∀ x, x < 128 → gfStep x = x <<< 1 ^^^ (x >>> 6) * 0x89 := by decide

/-- Multiplication by α is additive. -/
theorem gfStep_xor {x y : Nat} (hx : x < 128) (hy : y < 128) : gfStep (x ^^^ y) = gfStep x ^^^ gfStep y := by
  have mulXor : ∀ a, a < 2 → ∀ b, b < 2 → (a ^^^ b) * 0x89 = a * 0x89 ^^^ b * 0x89 := by decide
  have top {z : Nat} (hz : z < 128) : z >>> 6 < 2 := by rw [Nat.shiftRight_eq_div_pow]; omega
  rw [gfStep_eq_shift _ (Nat.xor_lt_two_pow (n := 7) hx hy), gfStep_eq_shift x hx, gfStep_eq_shift y hy, Nat.shiftLeft_xor_distrib,
    Nat.shiftRight_xor_distrib, mulXor _ (top hx) _ (top hy)]
  ac_rfl

theorem gfPow_congr {m n : Nat} (h : m % 127 = n % 127) : gfPow m = gfPow n := by rw [gfPow, gfPow, h]

theorem gfPow_mod (n : Nat) : gfPow (n % 127) = gfPow n := gfPow_congr (Nat.mod_mod n 127)

theorem gfPow_range (n : Nat) : 0 < gfPow n ∧ gfPow n < 128 := by
  have table : ∀ d, d < 127 → 0 < gfPow d ∧ gfPow d < 128 := by decide +kernel
  rw [← gfPow_mod]
  exact table _ (Nat.mod_lt n (by decide))

theorem gfPow_ne_zero (n : Nat) : gfPow n ≠ 0 := Nat.ne_of_gt (gfPow_range n).1

/-- α⁰ to α¹²⁶ are a cycle of the multiplication by α. -/
theorem gfPow_succ (n : Nat) : gfPow (n + 1) = gfStep (gfPow n) := by
  have table : ∀ d, d < 127 → gfPow (d + 1) = gfStep (gfPow d) := by decide +kernel
  rw [← gfPow_mod n, ← table _ (Nat.mod_lt n (by decide))]
  exact gfPow_congr (by omega)

theorem gfPow_add_congr {m n : Nat} (h : gfPow m = gfPow n) (k : Nat) : gfPow (m + k) = gfPow (n + k) := by
  induction k with
  | zero => exact h
  | succ k ih => rw [← Nat.add_assoc, ← Nat.add_assoc, gfPow_succ, gfPow_succ, ih]

/-- α has order 127. -/
theorem gfPow_inj {m n : Nat} : gfPow m = gfPow n ↔ m % 127 = n % 127 := by
  refine ⟨fun h => ?_, gfPow_congr⟩
  have order : ∀ d, d < 127 → gfPow d = gfPow 0 → d = 0 := by decide +kernel
  have shifted := gfPow_add_congr h (127 - n % 127)
  have back : (n + (127 - n % 127)) % 127 = 0 % 127 := by omega
  rw [gfPow_congr back, ← gfPow_mod] at shifted
  have := order _ (Nat.mod_lt _ (by decide)) shifted
  omega

theorem gfPow_inj_of_lt {m n : Nat} (hm : m < 127) (hn : n < 127) (h : gfPow m = gfPow n) : m = n := by
  have := gfPow_inj.mp h
  omega

/-- α is primitive: every element of the field but 0 is a power of it. -/
theorem exists_gfPow_eq {x : Nat} (hx : x < 128) (nonzero : x ≠ 0) : ∃ s, gfPow s = x := by
  have table : ∀ x, x < 128 → x ≠ 0 → ∃ s, s < 127 ∧ gfPow s = x := by decide +kernel
  obtain ⟨s, _, hs⟩ := table x hx nonzero
  exact ⟨s, hs⟩

/-! ### Sums of powers: the addition of GF(2⁷) is `^^^`, and a shift of the exponents multiplies -/

theorem eq_xor_of_xor_eq {x y z : Nat} (h : x ^^^ y = z) : x = z ^^^ y := by rw [← h, xor_hash_twice]

theorem eq_of_xor_eq_zero {x y : Nat} (h : x ^^^ y = 0) : x = y := by rw [eq_xor_of_xor_eq h, Nat.zero_xor]

theorem xor_left_cancel {x y z : Nat} (h : x ^^^ y = x ^^^ z) : y = z := by
  rw [Nat.xor_comm x y, Nat.xor_comm x z] at h
  rw [eq_xor_of_xor_eq h, xor_hash_twice]

theorem xor_right_swap (x y z : Nat) : x ^^^ y ^^^ z = x ^^^ z ^^^ y := by ac_rfl

theorem xor_cancel_mid (x y z : Nat) : (x ^^^ y) ^^^ (y ^^^ z) = x ^^^ z := by rw [← Nat.xor_assoc, xor_hash_twice]

/-- `a`, `b` and `c` are the exponents `i`, `j` and `s` after the shift by `n`. -/
theorem gfPow_sum_shift {i j s : Nat} (h : gfPow i ^^^ gfPow j = gfPow s) (n : Nat) {a b c : Nat}
    (ha : a = i + n := by omega) (hb : b = j + n := by omega) (hc : c = s + n := by omega) : gfPow a ^^^ gfPow b = gfPow c := by
  subst ha hb hc
  induction n with
  | zero => exact h
  | succ n ih => rw [← Nat.add_assoc, ← Nat.add_assoc, ← Nat.add_assoc, gfPow_succ, gfPow_succ, gfPow_succ,
      ← gfStep_xor (gfPow_range _).2 (gfPow_range _).2, ih]

theorem exists_gfPow_eq_xor {i j : Nat} (h : gfPow i ≠ gfPow j) : ∃ s, gfPow i ^^^ gfPow j = gfPow s := by
  obtain ⟨s, hs⟩ := exists_gfPow_eq (Nat.xor_lt_two_pow (n := 7) (gfPow_range i).2 (gfPow_range j).2) (fun zero => h (eq_of_xor_eq_zero zero))
  exact ⟨s, hs.symm⟩

/-! ### Independence of the columns -/

/-- Newton's identity for two locators: X³ + Y³ = (X + Y)³ + XY(X + Y). -/
theorem gfPow_cubes {i j s : Nat} (h : gfPow i ^^^ gfPow j = gfPow s) :
    gfPow (3 * i) ^^^ gfPow (3 * j) = gfPow (3 * s) ^^^ gfPow (i + j + s) := by
  have square_i : gfPow (2 * i + s) ^^^ gfPow (i + j + s) = gfPow (i + 2 * s) := gfPow_sum_shift h (i + s)
  have square_j : gfPow (i + j + s) ^^^ gfPow (2 * j + s) = gfPow (j + 2 * s) := gfPow_sum_shift h (j + s)
  have cube : gfPow (i + 2 * s) ^^^ gfPow (j + 2 * s) = gfPow (3 * s) := gfPow_sum_shift h (2 * s)
  have cube_i : gfPow (3 * i) ^^^ gfPow (2 * i + j) = gfPow (2 * i + s) := gfPow_sum_shift h (2 * i)
  have cube_j : gfPow (i + 2 * j) ^^^ gfPow (3 * j) = gfPow (2 * j + s) := gfPow_sum_shift h (2 * j)
  have mixed : gfPow (2 * i + j) ^^^ gfPow (i + 2 * j) = gfPow (i + j + s) := gfPow_sum_shift h (i + j)
  calc gfPow (3 * i) ^^^ gfPow (3 * j)
      = (gfPow (3 * i) ^^^ gfPow (2 * i + j)) ^^^ ((gfPow (2 * i + j) ^^^ gfPow (i + 2 * j)) ^^^ (gfPow (i + 2 * j) ^^^ gfPow (3 * j))) := by
        rw [xor_cancel_mid, xor_cancel_mid]
    _ = gfPow (2 * i + s) ^^^ gfPow (2 * j + s) ^^^ gfPow (i + j + s) := by rw [cube_i, mixed, cube_j]; ac_rfl
    _ = gfPow (3 * s) ^^^ gfPow (i + j + s) := by rw [← cube, ← square_i, ← square_j, xor_cancel_mid]

/-- Three columns are independent. -/
theorem columns_three {i j k : Nat} (h1 : gfPow i ^^^ gfPow j = gfPow k) : gfPow (3 * i) ^^^ gfPow (3 * j) ≠ gfPow (3 * k) := by
  intro h3
  have cubes := gfPow_cubes h1
  rw [h3, ← Nat.xor_zero (gfPow (3 * k)), Nat.xor_assoc] at cubes
  have zero := xor_left_cancel cubes
  rw [Nat.zero_xor] at zero
  exact gfPow_ne_zero _ zero.symm

/-- Four columns are independent: the sum and the product of two locators are those of the other two. -/
theorem columns_pair_unique {i j k l : Nat} (hi : i < 127) (hj : j < 127) (hk : k < 127) (hl : l < 127) (distinct : i ≠ j)
    (h1 : gfPow i ^^^ gfPow j = gfPow k ^^^ gfPow l)
    (h3 : gfPow (3 * i) ^^^ gfPow (3 * j) = gfPow (3 * k) ^^^ gfPow (3 * l)) : i = k ∧ j = l ∨ i = l ∧ j = k := by
  obtain ⟨s, sum⟩ := exists_gfPow_eq_xor (fun h => distinct (gfPow_inj_of_lt hi hj h))
  have sum' : gfPow k ^^^ gfPow l = gfPow s := h1.symm.trans sum
  rw [gfPow_cubes sum, gfPow_cubes sum'] at h3
  have product : (i + j + s) % 127 = (k + l + s) % 127 := gfPow_inj.mp (xor_left_cancel h3)
  have product' : gfPow (i + j) = gfPow (k + l) := gfPow_congr (by omega)
  by_cases hik : i = k
  · subst hik
    exact .inl ⟨rfl, gfPow_inj_of_lt hj hl (xor_left_cancel h1)⟩
  · obtain ⟨u, diff⟩ := exists_gfPow_eq_xor (fun h => hik (gfPow_inj_of_lt hi hk h))
    have square : gfPow (2 * i) ^^^ gfPow (k + l) = gfPow (s + i) := product' ▸ gfPow_sum_shift sum i
    have square' : gfPow (k + i) ^^^ gfPow (l + i) = gfPow (s + i) := gfPow_sum_shift sum' i
    have root : gfPow (u + i) = gfPow (u + l) := calc
      gfPow (u + i) = gfPow (2 * i) ^^^ gfPow (k + i) := (gfPow_sum_shift diff i).symm
      _ = gfPow (l + i) ^^^ gfPow (k + l) := by rw [eq_xor_of_xor_eq square, ← square', Nat.xor_comm (gfPow (k + i)), xor_right_swap, xor_hash_twice]
      _ = gfPow (u + l) := gfPow_sum_shift diff l
    have hil : i = l := by have := gfPow_inj.mp root; omega
    subst hil
    rw [Nat.xor_comm (gfPow k)] at h1
    exact .inr ⟨rfl, gfPow_inj_of_lt hj hk (xor_left_cancel h1)⟩

/-! ### The searches of the decision table -/

theorem gf_gfTable (j : Nat) : gf gfTable j = gfPow j := by
  rw [← gfPow_mod]
  simp [gf, gfTable, nth, upto, Nat.mod_lt j (show 0 < 127 by decide)]

theorem onePos_eq_some {s1 s3 i : Nat} (h : onePos gfTable s1 s3 = some i) : i ≤ 78 ∧ gfPow i = s1 ∧ gfPow (3 * i) = s3 := by
  have found := List.find?_some h
  have inRange := List.mem_range.mp (List.mem_of_find?_eq_some h)
  simp only [gf_gfTable, Bool.and_eq_true, beq_iff_eq] at found
  exact ⟨by omega, found⟩

theorem onePos_eq_none {s1 s3 : Nat} : onePos gfTable s1 s3 = none ↔ ∀ i, i ≤ 78 → ¬(gfPow i = s1 ∧ gfPow (3 * i) = s3) := by
  simp [onePos, firstN, upto, List.find?_eq_none, gf_gfTable, Nat.lt_succ_iff]

theorem onePos_gfPow {i : Nat} (hi : i ≤ 78) : onePos gfTable (gfPow i) (gfPow (3 * i)) = some i := by
  cases h : onePos gfTable (gfPow i) (gfPow (3 * i)) with
  | none => exact absurd ⟨rfl, rfl⟩ (onePos_eq_none.mp h i hi)
  | some j =>
    obtain ⟨hj, same, _⟩ := onePos_eq_some h
    exact congrArg some (gfPow_inj_of_lt (by omega) (by omega) same)

theorem twoPos_eq_some {s1 s3 i j : Nat} (h : twoPos gfTable s1 s3 = some (i, j)) :
    i < j ∧ j ≤ 78 ∧ gfPow i ^^^ gfPow j = s1 ∧ gfPow (3 * i) ^^^ gfPow (3 * j) = s3 := by
  obtain ⟨m, -, found⟩ := List.exists_of_findSome?_eq_some h
  split at found
  · next n single =>
    obtain ⟨hn, sum, cubes⟩ := onePos_eq_some single
    split at found
    · next less =>
      cases found
      rw [gf_gfTable] at sum cubes
      exact ⟨less, hn, by rw [sum, Nat.xor_comm, xor_hash_twice], by rw [cubes, Nat.xor_comm, xor_hash_twice]⟩
    · cases found
  · cases found

theorem twoPos_eq_none {s1 s3 : Nat} : twoPos gfTable s1 s3 = none ↔
    ∀ i j, i < j → j ≤ 78 → ¬(gfPow i ^^^ gfPow j = s1 ∧ gfPow (3 * i) ^^^ gfPow (3 * j) = s3) := by
  refine ⟨fun h i j hij hj => ?_, fun h => ?_⟩
  · rintro ⟨rfl, rfl⟩
    have missed := List.findSome?_eq_none_iff.mp h i (List.mem_range.mpr (by omega))
    rw [gf_gfTable, gf_gfTable, Nat.xor_comm (gfPow i), Nat.xor_comm (gfPow (3 * i)), xor_hash_twice, xor_hash_twice, onePos_gfPow hj] at missed
    simp [hij] at missed
  · cases found : twoPos gfTable s1 s3 with
    | none => rfl
    | some p =>
      obtain ⟨hij, hj, sums⟩ := twoPos_eq_some found
      exact absurd sums (h p.1 p.2 hij hj)

theorem twoPos_gfPow {i j : Nat} (hij : i < j) (hj : j ≤ 78) :
    twoPos gfTable (gfPow i ^^^ gfPow j) (gfPow (3 * i) ^^^ gfPow (3 * j)) = some (i, j) := by
  cases found : twoPos gfTable (gfPow i ^^^ gfPow j) (gfPow (3 * i) ^^^ gfPow (3 * j)) with
  | none => exact absurd ⟨rfl, rfl⟩ (twoPos_eq_none.mp found i j hij hj)
  | some p =>
    obtain ⟨k, l⟩ := p
    obtain ⟨hkl, hl, sum, cubes⟩ := twoPos_eq_some found
    obtain ⟨rfl, rfl⟩ | ⟨rfl, rfl⟩ := columns_pair_unique (by omega) (by omega) (by omega) (by omega) (by omega) sum cubes
    · rfl
    · omega

/-! ### The rows of the decision table -/

theorem eccDecide_of_zero {e : BitVec 80} {s0 : Nat} (h : syndromes e = (0, 0, s0)) :
    eccDecide e = if s0 = 0 then .clean else .corrected (2 ^ 79) 79 0xFF := by
  simp [eccDecide, h]

theorem eccDecide_of_one {e : BitVec 80} {i s0 : Nat} (hi : i ≤ 78) (h : syndromes e = (gfPow i, gfPow (3 * i), s0)) :
    eccDecide e = if s0 = 1 then .corrected (2 ^ i) i 0xFF else .corrected (2 ^ i + 2 ^ 79) i 79 := by
  simp [eccDecide, h, gfPow_ne_zero, onePos_gfPow hi]

theorem eccDecide_of_two {e : BitVec 80} {i j : Nat} (hij : i < j) (hj : j ≤ 78)
    (h : syndromes e = (gfPow i ^^^ gfPow j, gfPow (3 * i) ^^^ gfPow (3 * j), 0)) : eccDecide e = .corrected (2 ^ i + 2 ^ j) i j := by
  have nonzero : gfPow i ^^^ gfPow j ≠ 0 := fun zero => Nat.ne_of_lt hij (gfPow_inj_of_lt (by omega) (by omega) (eq_of_xor_eq_zero zero))
  have single : onePos gfTable (gfPow i ^^^ gfPow j) (gfPow (3 * i) ^^^ gfPow (3 * j)) = none :=
    onePos_eq_none.mpr fun k _ ⟨sum, cubes⟩ => columns_three sum.symm cubes.symm
  simp [eccDecide, h, nonzero, single, twoPos_gfPow hij hj]

theorem eccDecide_of_other {e : BitVec 80} {s1 s3 s0 : Nat} (h : syndromes e = (s1, s3, s0)) (nonzero : ¬(s1 = 0 ∧ s3 = 0))
    (single : ∀ i, i ≤ 78 → ¬(gfPow i = s1 ∧ gfPow (3 * i) = s3))
    (double : s0 = 0 → ∀ i j, i < j → j ≤ 78 → ¬(gfPow i ^^^ gfPow j = s1 ∧ gfPow (3 * i) ^^^ gfPow (3 * j) = s3)) :
    eccDecide e = .uncorrectable := by
  by_cases even : s0 = 0
  · simp [eccDecide, h, nonzero, onePos_eq_none.mpr single, even, twoPos_eq_none.mpr (double even)]
  · simp [eccDecide, h, nonzero, onePos_eq_none.mpr single, even]

/-! ### The syndromes of a pattern of flips -/

/-- The sum of the weights of the positions below `n` that `x` flips. -/
def flipSum (w : Nat → Nat) (x : Nat) : Nat → Nat
  | 0 => 0
  | n + 1 => if x.testBit n then flipSum w x n ^^^ w n else flipSum w x n

theorem foldl_upto_succ {α : Type} (f : α → Nat → α) (a : α) (n : Nat) : (upto (n + 1)).foldl f a = f ((upto n).foldl f a) n := by
  simp [upto, List.range_succ]

theorem foldl_xor_eq_flipSum (w : Nat → Nat) (x n : Nat) :
    (upto n).foldl (fun a j => if x.testBit j then a ^^^ w j else a) 0 = flipSum w x n := by
  induction n with
  | zero => rfl
  | succ n ih => rw [foldl_upto_succ, ih, flipSum]

/-- The parity that S0 keeps is the sum of weights 1. -/
theorem foldl_parity_eq_flipSum (x n : Nat) :
    (upto n).foldl (fun a j => if x.testBit j then 1 - a else a) 0 = flipSum (fun _ => 1) x n ∧ flipSum (fun _ => 1) x n < 2 := by
  have toggle : ∀ a, a < 2 → 1 - a = a ^^^ 1 ∧ a ^^^ 1 < 2 := by decide
  induction n with
  | zero => exact ⟨rfl, Nat.two_pos⟩
  | succ n ih =>
    rw [foldl_upto_succ, ih.1, flipSum]
    split
    · exact toggle _ ih.2
    · exact ⟨rfl, ih.2⟩

theorem syndromes_eq_flipSum (e : BitVec 80) :
    syndromes e = (flipSum gfPow e.toNat 79, flipSum (fun j => gfPow (3 * j)) e.toNat 79, flipSum (fun _ => 1) e.toNat 80) := by
  simp only [syndromes, gf_gfTable, foldl_xor_eq_flipSum, (foldl_parity_eq_flipSum _ _).1]

theorem testBit_add_two_pow {x j : Nat} (hx : x < 2 ^ j) (n : Nat) : (x + 2 ^ j).testBit n = (decide (n = j) || x.testBit n) := by
  rw [Nat.add_comm, ← Nat.mul_one (2 ^ j), Nat.two_pow_add_eq_or_of_lt hx, Nat.mul_one, Nat.testBit_or, Nat.testBit_two_pow]
  simp [eq_comm]

theorem flipSum_add_two_pow (w : Nat → Nat) {x j : Nat} (hx : x < 2 ^ j) (n : Nat) :
    flipSum w (x + 2 ^ j) n = flipSum w x n ^^^ if j < n then w j else 0 := by
  induction n with
  | zero => simp [flipSum]
  | succ n ih =>
    rw [flipSum, flipSum, ih, testBit_add_two_pow hx]
    by_cases here : n = j
    · subst here
      simp [Nat.testBit_lt_two_pow hx]
    · have below : j < n + 1 ↔ j < n := by omega
      simp only [here, below, decide_false, Bool.false_or]
      split
      · exact xor_right_swap _ _ _
      · rfl

theorem syndromes_zero : syndromes (BitVec.ofNat 80 0) = (0, 0, 0) := by decide +kernel

theorem toNat_ofNat_add_two_pow {x j : Nat} (hx : x < 2 ^ j) (hj : j < 80) :
    (BitVec.ofNat 80 x).toNat = x ∧ (BitVec.ofNat 80 (x + 2 ^ j)).toNat = x + 2 ^ j := by
  have room : 2 ^ j * 2 ≤ 2 ^ 80 := by rw [← Nat.pow_succ]; exact Nat.pow_le_pow_right (by decide) hj
  exact ⟨Nat.mod_eq_of_lt (by omega), Nat.mod_eq_of_lt (by omega)⟩

/-- One more flip, above all others, adds its column to the syndromes. -/
theorem syndromes_flip {x j s1 s3 s0 : Nat} (hx : x < 2 ^ j) (hj : j ≤ 78) (h : syndromes (BitVec.ofNat 80 x) = (s1, s3, s0)) :
    syndromes (BitVec.ofNat 80 (x + 2 ^ j)) = (s1 ^^^ gfPow j, s3 ^^^ gfPow (3 * j), s0 ^^^ 1) := by
  obtain ⟨before, after⟩ := toNat_ofNat_add_two_pow hx (by omega)
  rw [syndromes_eq_flipSum, before] at h
  cases h
  rw [syndromes_eq_flipSum, after]
  simp only [flipSum_add_two_pow _ hx, show j < 79 by omega, show j < 80 by omega, if_true]

/-- The parity bit has no column in S1 and S3. -/
theorem syndromes_flip_parity {x s1 s3 s0 : Nat} (hx : x < 2 ^ 79) (h : syndromes (BitVec.ofNat 80 x) = (s1, s3, s0)) :
    syndromes (BitVec.ofNat 80 (x + 2 ^ 79)) = (s1, s3, s0 ^^^ 1) := by
  obtain ⟨before, after⟩ := toNat_ofNat_add_two_pow hx (by decide)
  rw [syndromes_eq_flipSum, before] at h
  cases h
  rw [syndromes_eq_flipSum, after]
  simp only [flipSum_add_two_pow _ hx, Nat.lt_irrefl, if_false, Nat.xor_zero, Nat.lt_succ_self, if_true]

theorem syndromes_one {i : Nat} (hi : i ≤ 78) : syndromes (BitVec.ofNat 80 (2 ^ i)) = (gfPow i, gfPow (3 * i), 1) := by
  simpa using syndromes_flip (Nat.two_pow_pos i) hi syndromes_zero

theorem syndromes_two {i j : Nat} (hij : i < j) (hj : j ≤ 78) :
    syndromes (BitVec.ofNat 80 (2 ^ i + 2 ^ j)) = (gfPow i ^^^ gfPow j, gfPow (3 * i) ^^^ gfPow (3 * j), 0) :=
  syndromes_flip (Nat.pow_lt_pow_right (by decide) hij) hj (syndromes_one (by omega))

theorem two_flips_lt {i j k : Nat} (hij : i < j) (hjk : j < k) : 2 ^ i + 2 ^ j < 2 ^ k := by
  have below : 2 ^ i < 2 ^ j := Nat.pow_lt_pow_right (by decide) hij
  have room : 2 ^ j * 2 ≤ 2 ^ k := by rw [← Nat.pow_succ]; exact Nat.pow_le_pow_right (by decide) hjk
  omega

/-! ### Patterns of one, two and three errors -/

theorem eccDecide_one_flip {i : Nat} (hi : i < 80) : ∃ a b, eccDecide (BitVec.ofNat 80 (2 ^ i)) = .corrected (2 ^ i) a b := by
  obtain inColumns | rfl : i ≤ 78 ∨ i = 79 := by omega
  · exact ⟨_, _, eccDecide_of_one inColumns (syndromes_one inColumns)⟩
  · have parity := syndromes_flip_parity (by decide) syndromes_zero
    rw [Nat.zero_add] at parity
    exact ⟨_, _, eccDecide_of_zero parity⟩

theorem eccDecide_two_flips {i j : Nat} (hij : i < j) (hj : j < 80) :
    ∃ a b, eccDecide (BitVec.ofNat 80 (2 ^ i + 2 ^ j)) = .corrected (2 ^ i + 2 ^ j) a b := by
  obtain inColumns | rfl : j ≤ 78 ∨ j = 79 := by omega
  · exact ⟨_, _, eccDecide_of_two hij inColumns (syndromes_two hij inColumns)⟩
  · have inColumns : i ≤ 78 := by omega
    exact ⟨_, _, eccDecide_of_one inColumns (syndromes_flip_parity (Nat.pow_lt_pow_right (by decide) hij) (syndromes_one inColumns))⟩

/-- An odd pattern is uncorrectable where no single column explains its sums: the table tries pairs of columns at even parity alone. -/
theorem eccDecide_three_flips {i j k : Nat} (hij : i < j) (hjk : j < k) (hk : k < 80) :
    eccDecide (BitVec.ofNat 80 (2 ^ i + 2 ^ j + 2 ^ k)) = .uncorrectable := by
  have hi : i < 127 := by omega
  have hj : j < 127 := by omega
  have pair := syndromes_two hij (show j ≤ 78 by omega)
  obtain inColumns | rfl : k ≤ 78 ∨ k = 79 := by omega
  · refine eccDecide_of_other (syndromes_flip (two_flips_lt hij hjk) inColumns pair) (fun ⟨sum, cubes⟩ => ?_) (fun m hm ⟨sum, cubes⟩ => ?_) (fun even => ?_)
    · exact columns_three (eq_of_xor_eq_zero sum) (eq_of_xor_eq_zero cubes)
    · have split := columns_pair_unique hi hj (by omega) (by omega) (by omega) (eq_xor_of_xor_eq sum.symm) (eq_xor_of_xor_eq cubes.symm)
      omega
    · exact absurd even (by decide)
  · refine eccDecide_of_other (syndromes_flip_parity (two_flips_lt hij hjk) pair) (fun ⟨sum, _⟩ => ?_) (fun m _ ⟨sum, cubes⟩ => ?_) (fun even => ?_)
    · exact Nat.ne_of_lt hij (gfPow_inj_of_lt hi hj (eq_of_xor_eq_zero sum))
    · exact columns_three sum.symm cubes.symm
    · exact absurd even (by decide)

/-- Settles O10: the rows of the table do not overlap, since any four columns of the code are independent, and a pattern's syndromes are the sums of its columns. -/
theorem eccTable : Obligations.EccTable := by
  unfold Obligations.EccTable
  refine ⟨fun e => ?_, fun i hi => eccDecide_one_flip hi, fun i j hij hj => eccDecide_two_flips hij hj,
    fun i j k hij hjk hk => eccDecide_three_flips hij hjk hk⟩
  obtain ⟨s1, s3, s0, h⟩ : ∃ s1 s3 s0, syndromes e = (s1, s3, s0) := ⟨_, _, _, rfl⟩
  rw [h]
  refine ⟨?_, ?_, ?_, ?_, ?_, fun nonzero single double => eccDecide_of_other h nonzero single double⟩
  · rintro ⟨rfl, rfl, rfl⟩
    exact eccDecide_of_zero h
  · rintro ⟨rfl, rfl, rfl⟩
    exact eccDecide_of_zero h
  · rintro i hi rfl rfl rfl
    exact eccDecide_of_one hi h
  · rintro i hi rfl rfl rfl
    exact eccDecide_of_one hi h
  · rintro i j hij hj rfl rfl rfl
    exact eccDecide_of_two hij hj h

end Sys2Proof.Machine
end

section
/-!
SUPPORT. What every operation on the state keeps: the waiting commands, the invariant, and the fuses of a sound state, which only burn. One lemma per operation, in the order
of the model's files; each goes from `Keeps s t` to `Keeps s` of the operation on `t`, so that chains of operations read as chains of lemmas.
-/
namespace Sys2Proof.Machine
open Sys2Proof

-- Threads that wait for the kernel keep their stacks, and the check limits the memory of one text.
set_option Elab.async false

/-- From `s` to `t` the waiting commands stay, the invariant is kept, and the fuses of a sound state only burn. -/
structure Keeps (s t : State) : Prop where
  pending : t.pending = s.pending
  sound : s.Sound → t.Sound
  burned : s.Sound → s.mgmt.fuses.Burned t.mgmt.fuses

theorem Fuses.Burned.refl (f : Fuses) : f.Burned f := by simp [Fuses.Burned]

/-- A mask that holds another's bits passes them on. -/
theorem and_eq_left_trans {x y z : BitVec 8} (hxy : x &&& y = x) (hyz : y &&& z = y) : x &&& z = x := by
  rw [← hxy, BitVec.and_assoc, hyz]

theorem Fuses.Burned.trans {f g h : Fuses} (hfg : f.Burned g) (hgh : g.Burned h) : f.Burned h := by
  obtain ⟨life, svn, prog, rev, uds, serial, part, vendor, hash⟩ := hfg
  obtain ⟨life', svn', prog', rev', uds', serial', part', vendor', hash'⟩ := hgh
  exact ⟨Nat.le_trans life life', Nat.le_trans svn svn', and_eq_left_trans prog prog', and_eq_left_trans rev rev', uds'.trans uds, serial'.trans serial, part'.trans part,
    vendor'.trans vendor, hash'.trans hash⟩

theorem mem_sput {α : Type} {m : SMap α} {i : Nat} {v : α} {e : Nat × α} (h : e ∈ sput m i v) : e ∈ m ∨ e = (i, v) := by
  induction m with
  | nil => exact .inr (List.mem_singleton.mp h)
  | cons x m ih =>
    simp only [sput] at h
    split at h
    · exact (List.mem_cons.mp h).elim .inr fun h => .inl (List.mem_cons_of_mem _ h)
    · split at h
      · exact (List.mem_cons.mp h).elim .inr .inl
      · exact (List.mem_cons.mp h).elim (fun h => .inl (h ▸ List.mem_cons_self)) fun h => (ih h).imp_left (List.mem_cons_of_mem _)

theorem mem_sset {α : Type} [DecidableEq α] {d : α} {m : SMap α} {i : Nat} {v : α} {e : Nat × α} (h : e ∈ sset d m i v) : e ∈ m ∨ e = (i, v) := by
  unfold sset at h
  split at h
  · rw [sdel_eq_filter] at h
    exact .inl (List.mem_filter.mp h).1
  · exact mem_sput h

variable {s t u : State}

namespace Keeps
variable {α : Type}

theorem refl (s : State) : Keeps s s := ⟨rfl, id, fun _ => Fuses.Burned.refl _⟩

theorem trans (h : Keeps s t) (k : Keeps t u) : Keeps s u :=
  ⟨k.pending.trans h.pending, fun sound => k.sound (h.sound sound), fun sound => (h.burned sound).trans (k.burned (h.sound sound))⟩

/-- What the relation looks at stays: the rest of the state is free. -/
theorem same (h : Keeps s t) (pending : u.pending = t.pending := by rfl) (strands : u.ctl.strands.length = t.ctl.strands.length := by rfl)
    (events : u.ctl.events = t.ctl.events := by rfl) (fuses : u.mgmt.fuses = t.mgmt.fuses := by rfl) : Keeps s u := by
  refine h.trans ⟨pending, fun sound => ?_, fun _ => ?_⟩
  · rw [State.Sound, strands, events, fuses]
    exact sound
  · rw [fuses]
    exact Fuses.Burned.refl _

/-- A reset: strands and event counters as a cold reset leaves them. -/
theorem fresh (h : Keeps s t) (pending : u.pending = t.pending := by rfl) (strands : u.ctl.strands.length = 64 := by rfl) (events : u.ctl.events = [] := by rfl)
    (fuses : u.mgmt.fuses = t.mgmt.fuses := by rfl) : Keeps s u := by
  refine h.trans ⟨pending, fun ⟨_, _, _, life, svn⟩ => ?_, fun _ => ?_⟩
  · rw [State.Sound, strands, events, fuses]
    exact ⟨rfl, rfl, fun _ none => absurd none List.not_mem_nil, life, svn⟩
  · rw [fuses]
    exact Fuses.Burned.refl _

theorem ite {c : Prop} [Decidable c] (h : Keeps s t) (k : Keeps s u) : Keeps s (if c then t else u) := by split <;> assumption

theorem foldl {f : State → α → State} {l : List α} (step : ∀ u a, Keeps s u → Keeps s (f u a)) (h : Keeps s t) : Keeps s (l.foldl f t) :=
  List.foldlRecOn (motive := Keeps s) l f h fun u hu a _ => step u a hu

/-! ### The parts of the state -/

theorem withCore {c : Core} (h : Keeps s t) : Keeps s { t with core := c } := h.same
theorem on {g : Core → Core} (h : Keeps s t) : Keeps s (t.on g) := h.same
theorem onJob {g : Job → Job} (h : Keeps s t) : Keeps s (t.onJob g) := h.same
theorem onPwr {g : Power → Power} (h : Keeps s t) : Keeps s (t.onPwr g) := h.same
theorem onSync {g : Sync → Sync} (h : Keeps s t) : Keeps s (t.onSync g) := h.same
theorem onHost {g : HostSt → HostSt} (h : Keeps s t) : Keeps s (t.onHost g) := h.same
theorem powered {g : Power → Power} (h : Keeps s t) : Keeps s (t.powered g) := h.same
theorem toHost {b : Body} (h : Keeps s t) : Keeps s (t.toHost b) := h.same
theorem setStrand {k : Nat} {f : Strand → Strand} (h : Keeps s t) : Keeps s (t.setStrand k f) := h.same (strands := t.setStrand_length k f)
theorem withDx {k : Nat} {x : Dx} (h : Keeps s t) : Keeps s (t.withDx k x) := h.same (strands := by simp [State.withDx])
theorem withDev {x : Dx} (h : Keeps s t) : Keeps s (t.withDev x) := h.same
theorem worked {us : List Nat} (h : Keeps s t) : Keeps s (t.worked us) := h.same

/-- A counter takes a 32-bit value in its place. -/
theorem setEvent {i v : Nat} (h : Keeps s t) : Keeps s (t.setEvent i v) := by
  refine h.trans ⟨rfl, fun ⟨strands, canonical, narrow, life, svn⟩ => ?_, fun _ => Fuses.Burned.refl _⟩
  refine ⟨strands, swf_sset 0 _ i _ canonical, fun e he => ?_, life, svn⟩
  rcases mem_sset he with old | rfl
  · exact narrow e old
  · exact Nat.mod_lt v (by decide)

theorem addEvent {i n : Nat} (h : Keeps s t) : Keeps s (t.addEvent i n) := h.setEvent

end Keeps
end Sys2Proof.Machine
end

section
/-!
SUPPORT. What the operations on strands, interrupts, power and cluster time keep.
-/
namespace Sys2Proof.Machine
open Sys2Proof

-- Threads that wait for the kernel keep their stacks, and the check limits the memory of one text.
set_option Elab.async false

variable {s t u : State}

namespace Keeps

/-! ### Strands -/

theorem disarm {p : Nat} (h : Keeps s t) : Keeps s (t.disarm p) := h.same
theorem fireSwap {p : Nat} (h : Keeps s t) : Keeps s (t.fireSwap p) := h.disarm.on
theorem descSwaps {k : Nat} (h : Keeps s t) : Keeps s (t.descSwaps k) := foldl (fun _ _ hu => hu.fireSwap.ite hu) h
theorem leave {k : Nat} (h : Keeps s t) : Keeps s (t.leave k) := h.on
theorem endDesc {k st : Nat} (h : Keeps s t) : Keeps s (t.endDesc k st) := by
  unfold State.endDesc
  exact h.on.leave.setStrand
theorem cancelMember {k id : Nat} (h : Keeps s t) : Keeps s (t.cancelMember k id) := h.endDesc.setStrand.ite h

theorem markAborted {id but : Nat} (h : Keeps s t) : Keeps s (t.markAborted id but) := by
  unfold State.markAborted
  split
  · exact h
  · refine h.ite (foldl (fun u w hu => ?_) (foldl (fun _ _ hu => hu.cancelMember) (h.on.on.ite h.on)))
    split
    · exact hu.endDesc
    · exact hu.on.ite hu
    · exact hu

theorem startStrand {k index : Nat} {restart : Bool} (h : Keeps s t) : Keeps s (t.startStrand k index restart) := by
  unfold State.startStrand
  exact h.ite ((setStrand h.same).on.ite (setStrand h.same))

theorem stopStrand {k reason : Nat} {fault : Bool} (h : Keeps s t) : Keeps s (t.stopStrand k reason fault) := h.setStrand.on
theorem cancelStrand {k reason : Nat} (h : Keeps s t) : Keeps s (t.cancelStrand k reason) := h.ite (h.stopStrand.ite (h.ite h.endDesc).setStrand)
theorem writeRecord {k : Nat} (h : Keeps s t) : Keeps s (t.writeRecord k) := h.ite h.on.setStrand
theorem memberDone {k id st : Nat} (h : Keeps s t) : Keeps s (t.memberDone k id st) := h.on.markAborted.ite h.on
theorem jobPolicy {k st : Nat} (h : Keeps s t) : Keeps s (t.jobPolicy k st) := h.onJob.ite h
theorem completeWork {k : Nat} (h : Keeps s t) : Keeps s (t.completeWork k) := h.withDx.ite (h.withDx.ite h.setStrand)

theorem completeTxn {k : Nat} (h : Keeps s t) : Keeps s (t.completeTxn k) := by
  unfold State.completeTxn
  extract_lets s1 r s2
  have h2 : Keeps s s2 := by
    unfold s2
    split
    · exact h.completeWork.memberDone
    · exact h.completeWork
  refine h2.ite ?_
  split
  · split
    · exact h2.on.ite h2
    · exact h2
  · exact h2

theorem completeEffects {k : Nat} {r : Strand} (h : Keeps s t) : Keeps s (t.completeEffects k r) := by
  unfold State.completeEffects
  extract_lets st t1 s4 s5 s6
  have h4 : Keeps s s4 := h.on.writeRecord.on
  have h5 : Keeps s s5 := h4.descSwaps.ite h4
  have h6 : Keeps s s6 := h5.addEvent.ite h5
  exact h6.setStrand.on.ite (h6.on.ite h6)

theorem withdrawn {new : State} (h : Keeps s t) : Keeps s (t.withdrawn new) := h.on.ite h

/-- Work that is tried keeps what the work itself keeps. -/
theorem ifFree {f : State → State} (step : ∀ {u}, Keeps s u → Keeps s (f u)) (h : Keeps s t) : Keeps s (t.ifFree f) := h.withdrawn.ite (step h)

theorem goOn {k : Nat} {r : Strand} (h : Keeps s t) : Keeps s (t.goOn k r) :=
  h.setStrand.stopStrand.ite (h.setStrand.stopStrand.ite (h.setStrand.setStrand.stopStrand.ite h.setStrand.setStrand))

theorem complete {k : Nat} {policy : Bool} (h : Keeps s t) : Keeps s (t.complete k policy) := by
  have done : Keeps s (((t.completeTxn k).completeEffects k ((t.completeTxn k).strand k)).worked ((t.completeTxn k).strand k).units) :=
    h.completeTxn.completeEffects.worked
  exact h.ite (done.goOn.jobPolicy.ite done.goOn)

/-! ### Interrupts -/

theorem sendVector {v : Nat} (h : Keeps s t) : Keeps s (t.sendVector v) := h.ite (h.on.ite h.on)
theorem deliverPending (h : Keeps s t) : Keeps s t.deliverPending := foldl (fun _ _ hu => hu.on.sendVector.ite hu) h
theorem irqSettle (h : Keeps s t) : Keeps s t.irqSettle := by
  unfold State.irqSettle
  exact (foldl (fun _ _ hu => hu.sendVector) h).onHost
theorem eoi {hi : Bool} {vecs : Nat} (h : Keeps s t) : Keeps s (t.eoi hi vecs) := foldl (fun _ _ hu => hu.sendVector.ite hu) h
theorem watchFire {n : Nat} (h : Keeps s t) : Keeps s (watchFire t n) := h.on.ite h

/-! ### Power -/

theorem setVolts {mv : Nat} (h : Keeps s t) : Keeps s (t.setVolts mv) := by
  unfold State.setVolts
  exact h.onPwr.on
theorem raiseVolts {req : Nat} (h : Keeps s t) : Keeps s (t.raiseVolts req) := h.setVolts.ite h
theorem lowerVolts (h : Keeps s t) : Keeps s t.lowerVolts := h.setVolts.ite h

theorem applyFreq {f n : Nat} (h : Keeps s t) : Keeps s (t.applyFreq f n) := by
  unfold State.applyFreq
  extract_lets job s1 s2 more s3
  have h2 : Keeps s s2 := h.on.ite h.on.on
  have h3 : Keeps s s3 := h2.on.onPwr
  exact h2.on.onPwr.lowerVolts.ite (h3.ite h3.lowerVolts)

theorem freqStep (h : Keeps s t) : Keeps s (freqStep t) := by
  unfold Machine.freqStep
  split
  · exact h
  · exact h.ite (h.on.onPwr.ite h.on.onPwr.lowerVolts)

theorem controlPeriod {m : PeriodMeasure} (h : Keeps s t) : Keeps s (controlPeriod t m) := by
  unfold Machine.controlPeriod
  split
  · exact h
  · extract_lets s0 draw old
    split
    next c1 _ _ =>
      have h1 : Keeps s { s0 with core := c1 } := h.onPwr.withCore
      generalize State.request _ _ _ _ = r
      exact h1.on.powered.raiseVolts.applyFreq.ite h1.on.powered

theorem avsSample {w : List (Nat × Nat)} (h : Keeps s t) : Keeps s (avsSample t w) := by
  unfold Machine.avsSample
  extract_lets lost
  split
  exact h.withCore.onPwr
theorem avsTimeout {r : Nat} (h : Keeps s t) : Keeps s (avsTimeout t r) := h.onPwr.on
theorem powerEstimate {w : Nat} (h : Keeps s t) : Keeps s (powerEstimate t w) := (h.on.ite h).powered
theorem thermalLoop {tj : Nat} {temps : List Nat} (h : Keeps s t) : Keeps s (thermalLoop t tj temps) := h.ite h.on.on.powered
theorem thermalTrip {sensor temp : Nat} (h : Keeps s t) : Keeps s (thermalTrip t sensor temp) := by
  unfold Machine.thermalTrip
  split
  · exact h
  · extract_lets s1
    have h1 : Keeps s s1 := h.on
    clear_value s1
    exact h1.same
theorem droopDetect {q mv : Nat} (h : Keeps s t) : Keeps s (droopDetect t q mv) := h.ite (h.ite h.on).powered

theorem droopEnd {q : Nat} (h : Keeps s t) : Keeps s (droopEnd t q) := by
  unfold Machine.droopEnd
  split
  · exact h.ite h.powered
  · exact h

theorem throttleAssert (h : Keeps s t) : Keeps s (throttleAssert t) := h.ite (h.on.onPwr.on.ite h.on.onPwr).powered
theorem throttleRelease (h : Keeps s t) : Keeps s (throttleRelease t) := h.ite h.on.powered
theorem rebudget {old : Nat} (h : Keeps s t) : Keeps s (t.rebudget old) := h.onPwr
theorem openColumns {v : Nat} (h : Keeps s t) : Keeps s (t.openColumns v) := h.onPwr.ite h
theorem takeCharge {v : Nat} (h : Keeps s t) : Keeps s (t.takeCharge v) := h.onPwr.openColumns

theorem askUnit {v k : Nat} (h : Keeps s t) : Keeps s (t.askUnit v k).1 := by
  unfold State.askUnit
  split
  · exact h
  · split
    · dsimp only
      exact h.onPwr
    · split
      · exact h.takeCharge
      · exact h.powered

theorem askUnits {us : List Nat} {k : Nat} (h : Keeps s t) : Keeps s (t.askUnits us k).1 :=
  List.foldlRecOn (motive := fun p : State × Bool => Keeps s p.1) us _ h fun _ hp _ _ => hp.askUnit

theorem dropStarts (h : Keeps s t) : Keeps s t.dropStarts := h.ite h.powered

theorem rampAdmit (h : Keeps s t) : Keeps s (rampAdmit t) := by
  unfold Machine.rampAdmit
  split
  · exact h
  · exact h.takeCharge.powered.ite h

theorem columnEnable {q : Nat} (h : Keeps s t) : Keeps s (columnEnable t q) := h.ite ((h.ite h.onPwr).ite (h.onPwr.ite h))

/-! ### Time -/

theorem becomeRoot (h : Keeps s t) : Keeps s t.becomeRoot := h.on.onSync

theorem follow {p : Option Nat} (h : Keeps s t) : Keeps s (t.follow p) := by
  unfold State.follow
  split
  · exact h.onSync
  · exact h.ite h.on.onSync

theorem freeRun (h : Keeps s t) : Keeps s t.freeRun := h.onSync.ite h
theorem becomeFollower (h : Keeps s t) : Keeps s t.becomeFollower := h.on.onSync.follow

theorem roleWritten {old : Nat} (h : Keeps s t) : Keeps s (t.roleWritten old) := by
  have h1 : Keeps s (if t.core.role ≠ old then t.onSync (fun y => { y with rootAt := t.core.up }) else t) := h.onSync.ite h
  exact (h1.becomeRoot.ite (h1.becomeFollower.ite h1)).freeRun

theorem timeSend {p : Nat} (h : Keeps s t) : Keeps s (timeSend t p) := h.ite h.on
theorem setTime {v : Nat} (h : Keeps s t) : Keeps s (t.setTime v) := h.on.onSync.ite h.onSync
theorem correct {o : Int} (h : Keeps s t) : Keeps s (t.correct o) := h.ite (h.setTime.onSync.ite h.onSync)

theorem followFreq {o : Int} (h : Keeps s t) : Keeps s (t.followFreq o) := by
  unfold State.followFreq
  refine onSync ?_
  split
  · exact h.onSync.ite h
  · exact h

theorem timeReceive {p : Nat} {m : TimeMsg} {o : Int} (h : Keeps s t) : Keeps s (timeReceive t p m o) := by
  unfold Machine.timeReceive
  extract_lets s1 s2 s3 s4
  have h1 : Keeps s s1 := h.onSync
  have h2 : Keeps s s2 := by
    unfold s2
    split
    · exact h1.follow
    · exact h1
  have h3 : Keeps s s3 := h2.on.onSync
  have h4 : Keeps s s4 := h3.on.ite h3
  exact h.ite (h1.ite (h2.ite h4.followFreq.correct))

theorem parentLoss (h : Keeps s t) : Keeps s (parentLoss t) := h.ite (h.on.onSync.follow.ite h.on.onSync)
theorem trainedTime (h : Keeps s t) : Keeps s t.trainedTime := h.ite h.onSync
theorem rootLoss {others : List (Nat × Nat)} (h : Keeps s t) : Keeps s (rootLoss t others) := h.ite h.becomeRoot

theorem rootYield {p : Nat} (h : Keeps s t) : Keeps s (rootYield t p) := by
  unfold Machine.rootYield
  split
  · exact h
  · exact h.becomeFollower.on.ite h

theorem loadTime (h : Keeps s t) : Keeps s t.loadTime := by
  unfold State.loadTime
  split
  · exact h
  · exact h.setTime.onSync.ite h.onSync

theorem disciplineFreq {cycles : Nat} (h : Keeps s t) : Keeps s (t.disciplineFreq cycles) := h.onSync.ite h

theorem ppsEdge {cycles : Nat} {clk : Bool} (h : Keeps s t) : Keeps s (ppsEdge t cycles clk) := by
  unfold Machine.ppsEdge
  extract_lets ok s0 s1 s2
  have h2 : Keeps s s2 := (h.disciplineFreq.ite h).on.onSync.on
  exact (h2.loadTime.ite h2.onSync).ite h2

theorem refClkLoss (h : Keeps s t) : Keeps s (refClkLoss t) := h.on.onSync
theorem ppsLoss (h : Keeps s t) : Keeps s (ppsLoss t) := h.on.onSync
theorem armTimeLoad (h : Keeps s t) : Keeps s t.armTimeLoad := (h.onSync.ite h.onSync.loadTime).ite h
theorem tick (h : Keeps s t) : Keeps s t.tick := h.same

end Keeps
end Sys2Proof.Machine
end

section
/-!
SUPPORT. What register writes, transactions and timed events keep.
-/
namespace Sys2Proof.Machine
open Sys2Proof

-- Threads that wait for the kernel keep their stacks, and the check limits the memory of one text.
set_option Elab.async false

variable {s t u : State}

namespace Keeps

/-! ### Register space -/

theorem readWord {reader off : Nat} (h : Keeps s t) : Keeps s (t.readWord reader off).1 := by
  unfold State.readWord
  extract_lets v
  split
  · split
    · dsimp only
      exact h.on
    · exact h
  · exact h

theorem clrCounts {p : Nat} (h : Keeps s t) : Keeps s (t.clrCounts p) := by
  unfold State.clrCounts
  split
  · exact h
  · extract_lets ds inPage keys s1 s2
    have h2 : Keeps s s2 := h.on.onPwr.ite h.on
    exact (h2.same (strands := List.length_map _)).ite h2

theorem shadowWrite {p v : Nat} (h : Keeps s t) : Keeps s (t.shadowWrite p v) := by
  unfold State.shadowWrite
  extract_lets k s1 s2 s3
  have h3 : Keeps s s3 := (h.on.disarm.ite h.on).on.ite (h.on.disarm.ite h.on)
  clear_value s3
  refine on ?_ |>.ite ?_ <;> exact (h3.fireSwap.on.ite h3.same).ite h3

theorem writeHeader {p o v : Nat} (h : Keeps s t) : Keeps s (t.writeHeader p o v) := by
  unfold State.writeHeader
  extract_lets k
  split
  · exact h.clrCounts.ite h
  · exact h.on
  · exact h.on
  · exact h.on
  · exact h.same.ite h
  · exact h.shadowWrite
  · exact h.on
  · exact h.on
  · exact h

theorem writeStrand {k r v : Nat} (h : Keeps s t) : Keeps s (t.writeStrand k r v) := by
  unfold State.writeStrand
  split
  · exact (h.on.startStrand.ite h.on).ite (h.on.cancelStrand.ite (h.on.setStrand.ite h.on))
  · exact h.on
  · exact h.on
  · exact h.on
  · exact h

theorem writeTable {off v : Nat} (h : Keeps s t) : Keeps s (t.writeTable off v) := h.on.deliverPending.ite h
theorem writeFields {p off v : Nat} {d : RegDef} (h : Keeps s t) : Keeps s (t.writeFields p off d v) := by
  unfold State.writeFields
  exact h.on

theorem devEffect {off v old : Nat} (h : Keeps s t) : Keeps s (t.devEffect off v old) :=
  h.roleWritten.ite (h.armTimeLoad.ite (h.rebudget.ite (h.setEvent.ite (h.addEvent.ite (h.on.ite (h.on.ite (h.eoi.ite (h.eoi.ite
    ((h.same.ite h.on).ite ((h.same.ite h).ite ((h.same.ite h).ite (h.onJob.ite (h.ite h)))))))))))))

theorem quarterEffect {b q o v old : Nat} (h : Keeps s t) : Keeps s (t.quarterEffect b q o v old) :=
  h.on.ite (h.on.ite ((h.on.ite h).ite (((h.on.ite h).on.ite (h.on.ite h)).on.ite ((h.on.ite h).on.ite (h.on.ite h)) |>.ite
    (h.on.ite ((h.on.ite h).ite (h.on.ite ((h.on.on.ite h.on).ite h)))))))

theorem writeWord {off v : Nat} (h : Keeps s t) : Keeps s (t.writeWord off v) := by
  unfold State.writeWord
  extract_lets v page
  split
  · exact h
  · refine h.writeHeader.ite ?_
    split
    · exact h.writeStrand
    · refine h.writeTable.ite ?_
      split
      · exact h
      · exact h.ite (h.on.ite (h.writeFields.devEffect.ite h.writeFields.quarterEffect))

theorem hostWrite {off v e : Nat} (h : Keeps s t) : Keeps s (t.hostWrite off v e) := h.ite (h.on.ite h.writeWord)
theorem hostRead {off : Nat} (h : Keeps s t) : Keeps s (t.hostRead off).1 := by
  unfold State.hostRead
  split
  · exact h
  · exact h.readWord

/-! ### Transactions -/

theorem discardTxn {id : Nat} (h : Keeps s t) : Keeps s (t.discardTxn id) := by
  unfold State.discardTxn
  split
  · exact h
  · extract_lets s1 live s2
    have h2 : Keeps s s2 := foldl (fun _ _ hu => hu.endDesc) h.markAborted
    exact h2.on.ite h2

theorem announce {d : Decision} {nodes : List Nat} {src : Option Nat} (h : Keeps s t) : Keeps s (t.announce d nodes src) := by
  unfold State.announce
  extract_lets c twin others _ s1 s2
  have h1 : Keeps s s1 := h.same
  have h2 : Keeps s s2 := h1.on.ite h1
  exact h2.onJob.ite h2.on

theorem abortBoundary {id : Nat} (h : Keeps s t) : Keeps s (t.abortBoundary id) := (h.discardTxn.ite h.on).on

theorem decideAbort {group id : Nat} {src : Option Nat} (h : Keeps s t) : Keeps s (t.decideAbort group id src) := by
  unfold State.decideAbort
  exact h.abortBoundary.on.announce.onJob.ite h.discardTxn.announce

theorem tellAbort {id : Nat} (h : Keeps s t) : Keeps s (t.tellAbort id) := by
  unfold State.tellAbort
  split
  · exact h
  · exact h.ite (h.on.on.decideAbort.ite h.on.on.on)

theorem localCommit {id : Nat} {x : Txn} {w : Waiter} (h : Keeps s t) : Keeps s (t.localCommit id x w) := by
  unfold State.localCommit
  exact h.ite ((h.raiseVolts.ite h).on.on.ite (h.raiseVolts.ite h).on)

theorem coordinate {id : Nat} {x : Txn} {w : Waiter} (h : Keeps s t) : Keeps s (t.coordinate id x w) := by
  unfold State.coordinate
  exact h.decideAbort.ite (h.ite (h.decideAbort.ite (h.ite (h.raiseVolts.ite h).on.announce)))

theorem participate {id : Nat} {x : Txn} {w : Waiter} (h : Keeps s t) : Keeps s (t.participate id x w) := by
  unfold State.participate
  exact h.ite (h.ite (h.on.ite (h.ite (h.raiseVolts.ite h).on)))

theorem settleTxn {id : Nat} (h : Keeps s t) : Keeps s (t.settleTxn id) := by
  unfold State.settleTxn
  extract_lets s0
  have h0 : Keeps s s0 := h.tellAbort
  split
  · exact h0
  · refine foldl (fun v w hv => ?_) (h0.on.ite h0)
    split
    · exact hv
    · refine hv.ite ?_
      split
      · exact hv.localCommit
      · exact hv.coordinate
      · exact hv.participate

theorem settleTxns (h : Keeps s t) : Keeps s t.settleTxns := foldl (fun _ _ hu => hu.settleTxn) h

theorem boundaryEffects {x : Txn} {time : Nat} (h : Keeps s t) : Keeps s (t.boundaryEffects x time) := by
  unfold State.boundaryEffects
  exact same (t := (t.on _).withDev _) h.on.withDev

theorem publish {id : Nat} (h : Keeps s t) : Keeps s (t.publish id) := by
  unfold State.publish
  split
  · exact h
  · split
    · extract_lets s1 s2 s3 s4 s5 s6 s7
      have h2 : Keeps s s2 := foldl (fun _ _ hu => hu.writeWord) h.on
      have h5 : Keeps s s5 := h2.withDev.on.boundaryEffects.ite h2.withDev.on
      have h7 : Keeps s s7 := foldl (fun _ _ hu => hu.setStrand.ite hu) h5.on
      exact h.ite h7.on
    · exact h

theorem txnVote {v : Vote} (h : Keeps s t) : Keeps s (txnVote t v) := by
  unfold Machine.txnVote
  refine h.onJob.ite (ite ?_ h.same)
  split
  · exact h.ite h.decideAbort
  · exact h.ite h.decideAbort

/-! ### Timed events -/

theorem afterTime {k : Nat} (h : Keeps s t) : Keeps s (t.afterTime k) := h.setStrand
theorem waitOver {k : Nat} (h : Keeps s t) : Keeps s (t.waitOver k) := h.ite ((h.ite h.setStrand).ite (h.ite h.setStrand.afterTime))

theorem swapDue {p : Nat} (h : Keeps s t) : Keeps s (t.swapDue p) := by
  unfold State.swapDue
  split
  · exact h.fireSwap.ite h
  · exact h

theorem freqNow (h : Keeps s t) : Keeps s t.freqNow := by
  unfold State.freqNow
  split
  · exact applyFreq h.same
  · exact h

theorem fireEvent {e : Nat × Nat × Nat} (h : Keeps s t) : Keeps s (t.fireEvent e) := by
  unfold State.fireEvent
  split
  · exact h.publish
  · exact h.swapDue
  · exact h.freqNow
  · exact h.waitOver

theorem catchUp {e : Nat × Nat × Nat} {n : Nat} (h : Keeps s t) : Keeps s (t.catchUp e n) := by
  induction n generalizing t with
  | zero => exact h
  | succ n ih =>
    unfold State.catchUp
    split
    · exact h.ite (ih h.fireEvent)
    · exact h

theorem before {e : Nat × Nat × Nat} (h : Keeps s t) : Keeps s (t.before e) := h.catchUp

theorem takeCommit {d : Decision} (h : Keeps s t) : Keeps s (t.takeCommit d) := by
  unfold State.takeCommit
  split
  · exact h
  · exact h.ite (h.discardTxn.ite (h.before.on.onJob.on.publish.ite (ite h.same h.on.onJob)))

theorem takeDecision {d : Decision} (h : Keeps s t) : Keeps s (t.takeDecision d) := by
  unfold State.takeDecision
  refine h.takeCommit.ite (h.abortBoundary.onJob.ite ?_)
  split
  · exact h.discardTxn.ite h
  · exact h

theorem takeEntry {k : Nat} (h : Keeps s t) : Keeps s (t.takeEntry k) := by
  unfold State.takeEntry
  exact h.ite (h.setStrand.on.setStrand.waitOver.setStrand.ite h.setStrand)

theorem settleEntries (h : Keeps s t) : Keeps s t.settleEntries := foldl (fun _ _ hu => hu.takeEntry) (foldl (fun _ _ hu => hu.takeCommit) h.same)
theorem txnDecision {src : Nat} {d : Decision} {twin : Bool} (h : Keeps s t) : Keeps s (txnDecision t src d twin) := (h.onJob.on.ite h).takeDecision

theorem decisionAck {g x : Nat} (h : Keeps s t) : Keeps s (decisionAck t g x) := by
  unfold Machine.decisionAck
  split
  · exact h
  · exact h.onJob.on

theorem beforeSwap {off v : Nat} (h : Keeps s t) : Keeps s (t.beforeSwap off v) := h.before.ite h
theorem hostRegister {off v e : Nat} (h : Keeps s t) : Keeps s (t.hostRegister off v e) := (h.beforeSwap.ite h).hostWrite

theorem txnPublish (h : Keeps s t) : Keeps s (txnPublish t) := by
  unfold Machine.txnPublish
  split
  · exact h.before.publish
  · exact h

theorem shadowSwap {p : Nat} (h : Keeps s t) : Keeps s (shadowSwap t p) := by
  unfold Machine.shadowSwap
  split
  · exact h.before.swapDue.ite h
  · exact h

theorem waitTimeEnd {k : Nat} (h : Keeps s t) : Keeps s (waitTimeEnd t k) := h.ite h.before.waitOver

theorem timedEvent (h : Keeps s t) : Keeps s (timedEvent t) := by
  unfold Machine.timedEvent
  refine h.ite ?_
  split
  · exact h
  · exact h.fireEvent

end Keeps
end Sys2Proof.Machine
end

section
/-!
SUPPORT. What the job and the twin, the host's accesses, resets and the boot keep, and which fuses they burn.
-/
namespace Sys2Proof.Machine
open Sys2Proof

-- Threads that wait for the kernel keep their stacks, and the check limits the memory of one text.
set_option Elab.async false

variable {s t u : State}

/-! ### Fuses -/

/-- Burning a bit more keeps the bits that a mask holds. -/
theorem and_or_self_left (x y : BitVec 8) : x &&& (x ||| y) = x := by
  ext i hi
  cases hx : x[i] <;> simp [hx]

/-- The fuses of an image's requests (R715): the minimum security version rises to the image's where it lies below, and slots are revoked. -/
theorem requestFuses_burned (f : Fuses) (r : ImageReq) (svn : f.svnMin ≤ 64) : f.Burned (requestFuses f r) ∧ (requestFuses f r).lifecycle = f.lifecycle
    ∧ (requestFuses f r).svnMin ≤ 64 := by
  unfold requestFuses
  refine List.foldlRecOn (motive := fun g : Fuses => f.Burned g ∧ g.lifecycle = f.lifecycle ∧ g.svnMin ≤ 64) _ _ ?_ ?_
  · split
    · next raise => exact ⟨⟨Nat.le_refl _, by dsimp only; omega, BitVec.and_self, BitVec.and_self, rfl, rfl, rfl, rfl, rfl⟩, rfl, Nat.min_le_left _ _⟩
    · exact ⟨Fuses.Burned.refl f, rfl, svn⟩
  · rintro g ⟨burned, life, low⟩ k -
    dsimp only
    split
    · exact ⟨burned.trans ⟨Nat.le_refl _, Nat.le_refl _, BitVec.and_self, and_or_self_left _ _, rfl, rfl, rfl, rfl, rfl⟩, life, low⟩
    · exact ⟨burned, life, low⟩

/-- What an owner-slot request burns (R718). -/
theorem ownerFuses_burned {f g : Fuses} {slot op : Nat} {hash : List Byte} (h : ownerFuses f slot op hash = some g) :
    f.Burned g ∧ g.lifecycle ≤ 3 ∧ g.svnMin = f.svnMin := by
  unfold ownerFuses at h
  split at h
  · cases h
  · next life =>
    split at h
    · split at h
      · cases h
        exact ⟨⟨Nat.le_refl _, Nat.le_refl _, BitVec.and_self, and_or_self_left _ _, rfl, rfl, rfl, rfl, rfl⟩, by dsimp only; omega, rfl⟩
      · cases h
    · split at h
      · cases h
        exact ⟨⟨by dsimp only; omega, Nat.le_refl _, BitVec.and_self, BitVec.and_self, rfl, rfl, rfl, rfl, rfl⟩, Nat.le_refl _, rfl⟩
      · split at h
        · cases h
        · cases h
          refine ⟨⟨?_, Nat.le_refl _, and_or_self_left _ _, BitVec.and_self, rfl, rfl, rfl, rfl, rfl⟩, ?_, rfl⟩
          · dsimp only; split <;> omega
          · dsimp only; split <;> omega

namespace Keeps

/-- Burning fuses of a sound state, legally. -/
theorem burn {f : Fuses} (h : Keeps s t) (burned : t.Sound → t.mgmt.fuses.Burned f ∧ f.lifecycle ≤ 4 ∧ f.svnMin ≤ 64) (fuses : u.mgmt.fuses = f := by rfl)
    (pending : u.pending = t.pending := by rfl) (strands : u.ctl.strands.length = t.ctl.strands.length := by rfl)
    (events : u.ctl.events = t.ctl.events := by rfl) : Keeps s u := by
  refine h.trans ⟨pending, fun sound => ?_, fun sound => fuses ▸ (burned sound).1⟩
  obtain ⟨-, legal⟩ := burned sound
  obtain ⟨len, canonical, narrow, -⟩ := sound
  rw [State.Sound, strands, events, fuses]
  exact ⟨len, canonical, narrow, legal⟩

/-! ### The job and the twin -/

theorem mirrorBlock {m : MirrorMsg} (h : Keeps s t) : Keeps s (mirrorBlock t m) := by
  unfold Machine.mirrorBlock
  refine h.ite (ite ?_ h.withCore.on)
  dsimp only
  exact (h.withCore.ite h.withCore.markAborted).on

theorem mirrorAck {addr kind : Nat} (h : Keeps s t) : Keeps s (mirrorAck t addr kind) := h.on.ite (h.on.ite h.on)
theorem mirrorResend {addr : Nat} (h : Keeps s t) : Keeps s (mirrorResend t addr) := h.on

theorem stepFaults {n : Nat} (h : Keeps s t) : Keeps s (t.stepFaults n) := by
  unfold State.stepFaults
  extract_lets ue resign s1
  have h1 : Keeps s s1 := foldl (fun _ _ hu => hu.on) h
  exact h.ite (h1.onJob.ite h1)

theorem abortStep (h : Keeps s t) : Keeps s t.abortStep := h.onJob.ite h.onJob.on.markAborted
theorem cancelAll (h : Keeps s t) : Keeps s t.cancelAll := foldl (fun _ _ hu => hu.cancelStrand.complete.ite hu) h
theorem jobStop (h : Keeps s t) : Keeps s (jobStop t) := h.ite h.cancelAll.on.onJob
theorem stopAll (h : Keeps s t) : Keeps s t.stopAll := h.on.jobStop

theorem resignNow (h : Keeps s t) : Keeps s t.resignNow := by
  unfold State.resignNow
  exact h.onJob.ite (h.onJob.on.ite h.onJob).on.cancelAll.on

theorem restart {n : Nat} (h : Keeps s t) : Keeps s (t.restart n) := by
  unfold State.restart
  exact h.onJob.ite h.onJob.onJob.cancelAll.on.onJob

theorem restartDrop (h : Keeps s t) : Keeps s t.restartDrop := by
  unfold State.restartDrop
  extract_lets s1 _ s2
  have h1 : Keeps s s1 := foldl (fun _ _ hu => hu.markAborted.on) h
  have h2 : Keeps s s2 := h1.same
  exact h.ite h2.on.onJob

theorem restartReady {node number : Nat} (h : Keeps s t) : Keeps s (restartReady t node number) := by
  unfold Machine.restartReady
  exact h.ite (h.onJob.on.on.onJob.ite h.onJob.on)

theorem sendReady {node : Nat} (h : Keeps s t) : Keeps s (t.sendReady node) := h.restartReady.ite h.on

theorem restartReadyNow (h : Keeps s t) : Keeps s t.restartReadyNow := by
  unfold State.restartReadyNow
  refine h.ite ?_
  extract_lets s0 img s1 s2 step fresh _ s3 s4
  have h2 : Keeps s s2 := by
    unfold s2
    exact foldl (fun _ _ hu => hu.setEvent) h.on.on
  clear_value s2
  have h3 : Keeps s s3 := h2.same (strands := List.length_map _)
  have h4 : Keeps s s4 := h3.onJob.sendReady
  split
  · exact h4.sendReady
  · exact h4

theorem restartStart {number time : Nat} (h : Keeps s t) : Keeps s (restartStart t number time) := (h.onJob.on.ite h.onJob).ite h
theorem readyTimeout (h : Keeps s t) : Keeps s (readyTimeout t) := h.stopAll.ite h

theorem startAgain (h : Keeps s t) : Keeps s t.startAgain := by
  unfold State.startAgain
  split
  · exact h
  · extract_lets s1 s2 s3 s4 adopted
    have h2 : Keeps s s2 := foldl (fun _ _ hu => hu.withDev) h.before
    exact h.ite (foldl (fun _ _ hu => hu.startStrand.ite hu) h2.onJob.on)

theorem failover {lost stand number : Nat} {refused : Bool} (h : Keeps s t) : Keeps s (failover t lost stand number refused) := by
  unfold Machine.failover
  exact h.resignNow.ite (h.on.withDev.on.ite h.on.withDev).onJob

theorem handback {lost stand number : Nat} (h : Keeps s t) : Keeps s (handback t lost stand number) := by
  unfold Machine.handback
  extract_lets s1 s2 s3
  have h2 : Keeps s s2 := h.on.on.ite h.on
  have h3 : Keeps s s3 := h2.on.onJob.ite h2
  exact h3.onJob

theorem failoverReq {lost stand : Nat} {formed : Bool} (h : Keeps s t) : Keeps s (failoverReq t lost stand formed) := by
  unfold Machine.failoverReq
  extract_lets j id undecided s1 adopted r1 r2 n s2
  have h1 : Keeps s s1 := h.on.on.decideAbort.ite h
  have hr : Keeps s r2 := h1.onJob.resignNow.ite h1.onJob.on
  exact (hr.stopAll.ite hr).ite h1.onJob.on.failover

theorem handBackAll {lost stand : Nat} (h : Keeps s t) : Keeps s (t.handBackAll lost stand) := by
  unfold State.handBackAll
  exact h.onJob.handback.on

theorem handBackStep (h : Keeps s t) : Keeps s t.handBackStep := by
  unfold State.handBackStep
  extract_lets u s1
  have h1 : Keeps s s1 := by
    refine h.ite ?_
    split
    · exact h.onJob
    · exact h.onJob.onJob.ite h.onJob.on.on
  split
  · exact h1.handBackAll
  · exact h1

theorem loseStash (h : Keeps s t) : Keeps s t.loseStash := foldl (fun _ _ hu => hu.endDesc) h

theorem declareLost (h : Keeps s t) : Keeps s t.declareLost := by
  unfold State.declareLost
  extract_lets c formed s1 held s2 s3 l kept s4
  have h2 : Keeps s s2 := foldl (fun _ _ hu => hu.on) h.loseStash.on
  have h3 : Keeps s s3 := h2.onJob.on
  have h4 : Keeps s s4 := (foldl (fun _ _ hu => hu.on) h3).onJob
  exact h.ite (h3.ite (h4.failoverReq.ite h4.on))

theorem twinLoss (h : Keeps s t) : Keeps s (twinLoss t) := by
  unfold Machine.twinLoss
  split
  · exact h.declareLost.ite h
  · exact h

theorem twinHeartbeatSend (h : Keeps s t) : Keeps s (twinHeartbeatSend t) := h.on.onJob.ite h
theorem twinHeartbeat (h : Keeps s t) : Keeps s (twinHeartbeat t) := h.on.onJob.ite h
theorem formNow {attach : Bool} (h : Keeps s t) : Keeps s (t.formNow attach) := h.onJob.ite h.onJob.onJob.on

theorem twinForm {f : FormMsg} (h : Keeps s t) : Keeps s (twinForm t f) := by
  unfold Machine.twinForm
  extract_lets twin changed s1 s2 s3
  have h2 : Keeps s s2 := h.onJob.on.ite h.onJob
  have h3 : Keeps s s3 := h2.formNow.ite h2
  exact h3.on

theorem fillEnd (h : Keeps s t) : Keeps s (fillEnd t) := h.on

theorem restartStep (h : Keeps s t) : Keeps s t.restartStep := by
  unfold State.restartStep
  split
  · exact h
  · exact h.restart.stopAll.ite h.restart

theorem settleJob {n : Nat} (h : Keeps s t) : Keeps s (t.settleJob n) := by
  unfold State.settleJob
  extract_lets s1 s2 s3 s4 s5 s6 s7 s8
  have h2 : Keeps s s2 := h.stepFaults.abortStep.ite h.stepFaults
  have h3 : Keeps s s3 := ifFree (fun hu => hu.settleEntries.settleTxns) h2
  have h4 : Keeps s s4 := h3.resignNow.ite h3
  have h5 : Keeps s s5 := (h4.formNow.ite h4.on).on
  have h7 : Keeps s s7 := ifFree startAgain (ifFree restartReadyNow h5.restartStep.restartDrop)
  exact h7.handBackStep.restartStep.on.on

/-! ### The host's accesses -/

theorem hostWord {off v : Nat} (h : Keeps s t) : Keeps s (t.hostWord off v) := h.hostWrite
theorem strandCtrl {k b e q : Nat} (h : Keeps s t) : Keeps s (t.strandCtrl k b e q) := h.hostWord
theorem strandBit {k b : Nat} (h : Keeps s t) : Keeps s (t.strandBit k b) := h.strandCtrl
theorem aer {e : Nat} (h : Keeps s t) : Keeps s (t.aer e) := h.onHost

theorem unsupported {tag : Option Nat} (h : Keeps s t) : Keeps s (unsupported t tag) := by
  unfold Machine.unsupported
  split
  · exact h.aer.toHost
  · exact h.aer

theorem serveRead {a n tag : Nat} (h : Keeps s t) : Keeps s (t.serveRead a n tag) := h.withCore.toHost
theorem park {p : Parked} (h : Keeps s t) : Keeps s (t.park p) := h.on

theorem serve {p : Parked} (h : Keeps s t) : Keeps s (t.serve p) := by
  unfold State.serve
  split
  · exact h.on
  · exact h.serveRead

theorem hostAccess {p : Parked} (h : Keeps s t) : Keeps s (t.hostAccess p) := h.park.ite (h.withdrawn.park.ite h.serve)

theorem memoryWrite {bar4 ep bad : Bool} {off : Nat} {bytes : List Byte} (h : Keeps s t) : Keeps s (memoryWrite t bar4 off bytes ep bad) := by
  unfold Machine.memoryWrite
  refine h.ite (h.aer.ite ?_)
  split
  · exact h.unsupported
  · exact h.on.ite (h.on.aer.ite h).hostAccess

theorem memoryRead {bar4 : Bool} {off n tag : Nat} (h : Keeps s t) : Keeps s (memoryRead t bar4 off n tag) := by
  unfold Machine.memoryRead
  refine h.ite ?_
  split
  · exact h.unsupported
  · exact h.toHost.ite (h.toHost.ite h.hostAccess)

theorem serveParked (h : Keeps s t) : Keeps s t.serveParked := foldl (fun _ _ hu => hu.hostAccess) h.on
theorem wordRead {reader off tag : Nat} (h : Keeps s t) : Keeps s (wordRead t reader off tag) := h.hostRead.toHost.ite h.readWord
theorem linkTrain {p : PciePartner} {g : PcieConfig} (h : Keeps s t) : Keeps s (linkTrain t p g) := h.ite h.on.onHost.deliverPending
theorem linkRecovery {p : PciePartner} (h : Keeps s t) : Keeps s (linkRecovery t p) := h.ite h.on
theorem smbusWords {offs : List Nat} (h : Keeps s t) : Keeps s (t.smbusWords offs) := h.toHost
theorem smbusAddr {off : Nat} (h : Keeps s t) : Keeps s (smbusAddr t off) := h.same
theorem smbusRead (h : Keeps s t) : Keeps s (smbusRead t) := h.readWord.toHost.ite h.toHost

theorem attestDone {ok : Bool} (h : Keeps s t) : Keeps s (attestDone t ok) := by
  unfold Machine.attestDone
  extract_lets k _ s1 s2 r
  have h1 : Keeps s s1 := h.same
  exact h.ite (h1.on.on.ite h1.on.on)

theorem ownerDone (h : Keeps s t) : Keeps s (ownerDone t) := by
  unfold Machine.ownerDone
  refine h.ite ?_
  dsimp only
  split
  · next f burnt =>
    refine h.burn (f := f) fun ⟨_, _, _, _, svn⟩ => ?_
    split at burnt
    · cases burnt
    · obtain ⟨burned, life, same⟩ := ownerFuses_burned burnt
      exact ⟨burned, by omega, by omega⟩
  · exact on h.same

theorem pulseEnds (h : Keeps s t) : Keeps s (pulseEnds t) := by
  unfold Machine.pulseEnds
  split
  · exact ite h.same h
  · exact h

theorem lightLost {input : Nat} (h : Keeps s t) : Keeps s (lightLost t input) := h.ite (h.on.ite h).on
theorem lightBack {input : Nat} (h : Keeps s t) : Keeps s (lightBack t input) := h.on.ite h

/-! ### Resets and boot -/

theorem coldReset {b : BoardPins} (h : Keeps s t) : Keeps s (coldReset t b) := by
  unfold Machine.coldReset
  exact ite (ite h.fresh h) h.fresh

theorem warmReset (h : Keeps s t) : Keeps s (warmReset t) := by
  unfold Machine.warmReset
  exact h.ite h.fresh

theorem functionReset (h : Keeps s t) : Keeps s (functionReset t) := by
  unfold Machine.functionReset
  extract_lets s1 s2 dev
  have h2 : Keeps s s2 := (h.resignNow.ite h.cancelAll).on
  exact h.ite h2.fresh

theorem stage {n : Nat} (h : Keeps s t) : Keeps s (t.stage n) := h.on
theorem failBoot {code detail : Nat} (h : Keeps s t) : Keeps s (t.failBoot code detail) := h.stage.on

theorem bootIdent {b : BootTests} (h : Keeps s t) : Keeps s (bootIdent b t).1 := by
  unfold Machine.bootIdent
  dsimp only
  split
  · exact h
  · split
    · exact h
    · split
      · exact h
      · exact h.on.onHost.stage

theorem bootLogic {b : BootTests} (h : Keeps s t) : Keeps s (bootLogic b t).1 := by
  unfold Machine.bootLogic
  split <;> dsimp only <;> exact h.on

theorem bootMarch {b : BootTests} (h : Keeps s t) : Keeps s (bootMarch b t).1 := by
  unfold Machine.bootMarch
  extract_lets used s1 bad
  have h1 : Keeps s s1 := h.on
  have hbad : Keeps s bad := h1.on
  split
  · exact hbad
  · split
    · exact hbad
    · dsimp only
      exact h1.on

theorem bootFirmware (h : Keeps s t) : Keeps s (bootFirmware t).1 := by
  unfold Machine.bootFirmware
  extract_lets f tried
  split
  · exact h
  · extract_lets _ s1 _
    have h1 : Keeps s s1 := h.on
    clear_value s1
    exact h1.same

theorem bootRepair (h : Keeps s t) : Keeps s (bootRepair t).1 := by
  unfold Machine.bootRepair
  extract_lets ok best s1
  have h1 : Keeps s s1 := h.on
  cases best with
  | none => dsimp only; exact h1.on
  | some r => dsimp only; exact h1.on

theorem bootTrain {b : BootTests} (h : Keeps s t) : Keeps s (bootTrain b t).1 := h.withCore
theorem bootSeif {b : BootTests} (h : Keeps s t) : Keeps s (bootSeif b t).1 := h.withCore
theorem bootDram {b : BootTests} (h : Keeps s t) : Keeps s (bootDram b t).1 := h.withCore

/-- Every stage of a boot keeps what the relation looks at. -/
theorem bootStage {warm : Bool} {b : BootTests} {f : BootStage} (mem : f ∈ stages warm b) (h : Keeps s t) : Keeps s (f t).1 := by
  have all : f = Machine.bootIdent b ∨ f = Machine.bootLogic b ∨ f = Machine.bootMarch b ∨ f = Machine.bootFirmware ∨ f = Machine.bootRepair ∨ f = bootStopped b
      ∨ f = Machine.bootTrain b ∨ f = Machine.bootSeif b ∨ f = Machine.bootDram b ∨ f = bootFill := by
    cases warm <;> simp [stages] at mem <;> grind
  rcases all with rfl | rfl | rfl | rfl | rfl | rfl | rfl | rfl | rfl | rfl
  · exact h.bootIdent
  · exact h.bootLogic
  · exact h.bootMarch
  · exact h.bootFirmware
  · exact h.bootRepair
  · exact h
  · exact h.bootTrain
  · exact h.bootSeif
  · exact h.bootDram
  · unfold bootFill
    dsimp only
    exact h.on

theorem runStages {fs : List BootStage} (each : ∀ f ∈ fs, ∀ {u}, Keeps s u → Keeps s (f u).1) (h : Keeps s t) : Keeps s (runStages fs t) := by
  induction fs generalizing t with
  | nil => exact h.same
  | cons f fs ih =>
    have first := each f List.mem_cons_self h
    unfold Machine.runStages
    split
    · next v hv => exact ih (fun g hg => each g (List.mem_cons_of_mem _ hg)) (by simpa [hv] using first)
    · next v e hv => exact failBoot (by simpa [hv] using first)

theorem supplyCheck {k : SupplyCheck} {b : BootTests} (h : Keeps s t) : Keeps s (supplyCheck t k b) := by
  unfold Machine.supplyCheck
  refine h.ite ?_
  extract_lets s1
  have h1 : Keeps s s1 := h.on
  split
  · exact runStages (fun f mem u hu => hu.bootStage mem) (stage h1.same)
  · exact ite (failBoot h1.same) h1.same

theorem ready {ms : Nat} (h : Keeps s t) : Keeps s (ready t ms) := by
  unfold Machine.ready
  refine h.ite (h.burn (f := requestFuses t.mgmt.fuses t.mgmt.image) fun ⟨_, _, _, life, svn⟩ => ?_)
  obtain ⟨burned, same, low⟩ := requestFuses_burned t.mgmt.fuses t.mgmt.image svn
  exact ⟨burned, by omega, low⟩

end Keeps
end Sys2Proof.Machine
end

section
/-!
SUPPORT. What descriptors and engines keep, and what the end of a command keeps.
-/
namespace Sys2Proof.Machine
open Sys2Proof

-- Threads that wait for the kernel keep their stacks, and the check limits the memory of one text.
set_option Elab.async false

variable {s t u : State}

namespace Keeps

/-! ### Running descriptors -/

theorem header {k : Nat} (h : Keeps s t) : Keeps s (t.header k) := by
  unfold State.header
  extract_lets r s1 dead
  have h1 : Keeps s s1 := by
    unfold s1
    split
    · exact h.on
    · exact h
  exact h1.setStrand.ite ((h1.on.setStrand.afterTime.ite h1.setStrand).ite h1.afterTime)

theorem descriptorFetch {k : Nat} (h : Keeps s t) : Keeps s (descriptorFetch t k) := by
  unfold Machine.descriptorFetch
  refine h.ite (h.stopStrand.ite (h.stopStrand.ite ?_))
  exact h.withCore.setStrand.ite (h.withCore.stopStrand.ite (h.withCore.stopStrand.ite (h.withCore.setStrand.before.ite h.withCore.setStrand).header))

theorem eventWait {k : Nat} (h : Keeps s t) : Keeps s (eventWait t k) := h.ite (h.ite h.setEvent.setStrand)

theorem runDesc {k : Nat} {units : Dx → List Nat} {f : Dx → Dx × Bool} (h : Keeps s t) : Keeps s (t.runDesc k units f) := by
  unfold State.runDesc
  refine h.askUnits.ite ?_
  extract_lets held s2
  have h2 : Keeps s s2 := h.askUnits.withDx.worked.setStrand
  clear_value s2
  split
  · exact h2.same
  · exact h2

theorem runNow {k : Nat} {units : List Nat} {f : Dx → Dx} (h : Keeps s t) : Keeps s (t.runNow k units f) := h.runDesc
theorem work {k : Nat} {f : Dx → Dx × Bool} (h : Keeps s t) : Keeps s (t.work k f) := h.ite (h.withDx.setStrand.ite h.withDx)
theorem ends {k : Nat} {f : Strand → Strand} (h : Keeps s t) : Keeps s (t.ends k f) := h.setStrand
theorem nop {k : Nat} (h : Keeps s t) : Keeps s (nop t k) := h.ends.ite h
theorem jump {k : Nat} (h : Keeps s t) : Keeps s (jump t k) := h.ends.ite h
theorem loopOp {k : Nat} (h : Keeps s t) : Keeps s (loopOp t k) := h.ends.ite h
theorem halt {k : Nat} (h : Keeps s t) : Keeps s (halt t k) := h.ends.ite h
theorem eventSet {k : Nat} (h : Keeps s t) : Keeps s (eventSet t k) := (foldl (fun _ _ hu => hu.setEvent) h).ends.ite h

theorem stepMark {k : Nat} (h : Keeps s t) : Keeps s (stepMark t k) := by
  unfold Machine.stepMark
  exact (ends h.same).ite h

theorem await {k id : Nat} {w : Waiter} (h : Keeps s t) : Keeps s (t.await k id w) := h.on.setStrand
theorem txnPrepare {k : Nat} (h : Keeps s t) : Keeps s (txnPrepare t k) := h.await.ite h

theorem txnCommit {k : Nat} (h : Keeps s t) : Keeps s (txnCommit t k) := by
  unfold Machine.txnCommit
  exact (h.ends.ite h.await).ite h

theorem txnAbort {k : Nat} (h : Keeps s t) : Keeps s (txnAbort t k) := by
  unfold Machine.txnAbort
  exact (h.ends.markAborted.ite h.ends).ite h

theorem storeReg {k off v : Nat} (h : Keeps s t) : Keeps s (t.storeReg k off v) := by
  unfold State.storeReg
  refine h.on.setStrand.ite ?_
  split
  · exact h.withCore.ite h.setStrand
  · exact h.beforeSwap.writeWord

theorem storeWord {k a v : Nat} (h : Keeps s t) : Keeps s (t.storeWord k a v) := by
  unfold State.storeWord
  split
  · exact h.storeReg.storeReg
  · exact h.withDx

theorem storeImm {k : Nat} (h : Keeps s t) : Keeps s (storeImm t k) := (foldl (fun _ _ hu => hu.storeWord) h).ends.ite h
theorem strandStart {k : Nat} (h : Keeps s t) : Keeps s (strandStart t k) := (h.ends.ite h.startStrand.ends).ite h

theorem descriptorTimeout {k : Nat} (h : Keeps s t) : Keeps s (descriptorTimeout t k) := by
  unfold Machine.descriptorTimeout
  extract_lets r waits id decided s1
  have h1 : Keeps s s1 := h.ite (h.decideAbort.ite h.markAborted)
  exact h.ite ((h1.ite h1.endDesc).ite h.endDesc)

theorem strandWatchdog {k : Nat} (h : Keeps s t) : Keeps s (strandWatchdog t k) := h.ite h.cancelStrand

theorem stepWatchdog (h : Keeps s t) : Keeps s (stepWatchdog t) := by
  unfold Machine.stepWatchdog
  exact h.ite ((onJob h.same).ite h.same)

theorem descriptorComplete {k : Nat} (h : Keeps s t) : Keeps s (descriptorComplete t k) := h.ite (foldl (fun _ _ hu => hu.complete) h).complete

/-! ### Engines and their messages -/

theorem product {k op : Nat} {f : Dx → Dx} (h : Keeps s t) : Keeps s (t.product k op f) := h.ite (h.runNow.ite h.runNow)
theorem spmmRun {k : Nat} {fails : List CheckFail} {slabs : List SlabFail} (h : Keeps s t) : Keeps s (spmmRun t k fails slabs) := h.ite h.runDesc

theorem sampServe {dst wadi : Nat} {r : SampReq} (h : Keeps s t) : Keeps s (t.sampServe dst wadi r) := by
  unfold State.sampServe
  dsimp only
  split
  · exact h.withDev
  · exact h.withDev

theorem sampTake {dst : Nat} {a : SampAns} (h : Keeps s t) : Keeps s (t.sampTake dst a) := by
  unfold State.sampTake
  split
  · exact h.work.ite h
  · exact h

theorem embServe {dst : Nat} {f : Dx → Dx} (h : Keeps s t) : Keeps s (t.embServe dst f) := h.withDev

theorem lookTake {dst src : Nat} {a : EmbAns} (h : Keeps s t) : Keeps s (t.lookTake dst src a) := by
  unfold State.lookTake
  split
  · exact h.work.ite h
  · exact h.embServe

theorem serveMsg {m : Msg} (h : Keeps s t) : Keeps s (t.serveMsg m) := by
  unfold State.serveMsg
  dsimp only
  split
  case h_1 => exact h.sampServe
  case h_2 => exact h.sampTake
  case h_4 => exact h.lookTake
  case h_13 => exact h
  all_goals exact h.embServe

theorem takeMsg {m : Msg} (h : Keeps s t) : Keeps s (t.takeMsg m) := by
  unfold State.takeMsg
  refine h.ite (h.on.ite ?_)
  exact h.askUnits.on.ite (h.withdrawn.on.ite h.askUnits.serveMsg.worked)

theorem settleInbox (h : Keeps s t) : Keeps s t.settleInbox := foldl (fun _ _ hu => hu.takeMsg) h.on
theorem settleLooks (h : Keeps s t) : Keeps s t.settleLooks := foldl (fun _ _ hu => hu.work) h
theorem settleHeld (h : Keeps s t) : Keeps s t.settleHeld := h.ite h.withDev
theorem settleGrads (h : Keeps s t) : Keeps s t.settleGrads := foldl (fun _ _ hu => hu.work) h
theorem endGrads (h : Keeps s t) : Keeps s t.endGrads := foldl (fun _ _ hu => hu.work) h
theorem settleColls (h : Keeps s t) : Keeps s t.settleColls := foldl (fun _ _ hu => hu.work) h

theorem settleReady (h : Keeps s t) : Keeps s t.settleReady := by
  refine foldl (fun u r hu => ?_) h
  split
  · exact hu.work
  · exact hu

/-- An engine's descriptor that runs when its turn has come. -/
theorem ran {c : Prop} [Decidable c] {k : Nat} {units : Dx → List Nat} {f : Dx → Dx × Bool} (h : Keeps s t) :
    Keeps s (if c then t.runDesc k units f else t) := h.runDesc.ite h

theorem event {f : State → State} (step : Keeps s (f t)) (h : Keeps s t) : Keeps s (t.event? f) := step.ite h
theorem windowStage1 {k : Nat} (h : Keeps s t) : Keeps s (windowStage1 t k) := h.ite (event h.work h)

theorem windowStage2 {k : Nat} (h : Keeps s t) : Keeps s (windowStage2 t k) := by
  unfold Machine.windowStage2
  exact h.ite (event (h.ite (h.askUnit.ite h.askUnit.work.worked)) h)

theorem migrationVerdict {table r : Nat} {good : Bool} (h : Keeps s t) : Keeps s (migrationVerdict t table r good) :=
  h.ite (foldl (fun _ _ hu => hu.work.ite hu) h.on)

theorem selectMigrations {mean : Nat} {low : List (Nat × Nat × List (Nat × Nat))} (h : Keeps s t) : Keeps s (selectMigrations t mean low) := h.embServe.ite h
theorem endForward {table r : Nat} (h : Keeps s t) : Keeps s (endForward t table r) := h.embServe.ite h

theorem dispatchRun {k : Nat} (h : Keeps s t) : Keeps s (dispatchRun t k) := by
  refine event ?_ h
  split
  · exact h
  · split
    · exact h
    · exact h.ite (h.askUnit.work.worked.ite h.askUnit)

theorem laneWorked {k g : Nat} (h : Keeps s t) : Keeps s (t.laneWorked k g) := by
  unfold State.laneWorked
  split
  · split
    · exact h.worked
    · exact h
  · exact h

theorem laneOp {grp op k g fails : Nat} (h : Keeps s t) : Keeps s (laneOp t grp op k g fails) := event h.laneWorked.work h
theorem reservedOp {k g : Nat} (h : Keeps s t) : Keeps s (reservedOp t k g) := event h.work h
theorem applyDeferred {k : Nat} (h : Keeps s t) : Keeps s (applyDeferred t k) := event h.work h

theorem saveRun {k : Nat} (h : Keeps s t) : Keeps s (saveRun t k) := by
  unfold Machine.saveRun
  refine h.ite ?_
  dsimp only
  split
  · exact h.runDesc.endDesc.setStrand
  · exact h.runDesc

theorem collRun {op k : Nat} (h : Keeps s t) : Keeps s (collRun t op k) := by
  unfold Machine.collRun
  exact h.ite (h.runNow.ite h.runDesc)

theorem collPacket {dst port : Nat} {p : CollPkt} (h : Keeps s t) : Keeps s (collPacket t dst port p) := by
  unfold Machine.collPacket
  refine h.ite ?_
  dsimp only
  split
  · exact h.withCore.on.ite (h.withCore.withdrawn.on.ite h.withCore.on.work)
  · exact h.withCore.on

theorem settlePackets (h : Keeps s t) : Keeps s t.settlePackets := by
  refine h.ite (foldl (fun u r hu => ifFree (fun {v} hv => ?_) hu) h)
  refine foldl (fun w e hw => ?_) hv.withCore
  split
  · exact hw.work
  · exact hw

theorem collAbort {dst group tag : Nat} (h : Keeps s t) : Keeps s (collAbort t dst group tag) := by
  unfold Machine.collAbort
  refine h.ite ?_
  split
  · exact h.work
  · exact h.on

theorem permuteAcked {dst group tag bytes : Nat} (h : Keeps s t) : Keeps s (permuteAcked t dst group tag bytes) := by
  unfold Machine.permuteAcked
  refine h.ite ?_
  split
  · exact h.work.ite h
  · exact h

theorem dmaRun {op k : Nat} {f : Dx → Dx} (h : Keeps s t) : Keeps s (dmaRun t op k f) := h.runNow.ite h
theorem cacheRun {o k : Nat} {f : Dx → Dx} (h : Keeps s t) : Keeps s (cacheRun t o k f) := h.dmaRun.ite h
theorem rngRun {op k : Nat} {f : Dx → Dx} (h : Keeps s t) : Keeps s (rngRun t op k f) := h.runNow.ite h
theorem twinTransfer {r : StashReq} (h : Keeps s t) : Keeps s (twinTransfer t r) := h.withDev.ite h
theorem stashAnswered {a : StashAns} (h : Keeps s t) : Keeps s (stashAnswered t a) := h.work.ite h
theorem hostReadBack {k off : Nat} {bytes : List Byte} {bad : Bool} (h : Keeps s t) : Keeps s (hostReadBack t k off bytes bad) := h.work.ite h
theorem settleSeeds (h : Keeps s t) : Keeps s t.settleSeeds := foldl (fun _ _ hu => hu.work) h

/-! ### The end of a command -/

theorem ifAwake {f : State → State} (step : Keeps s (f t)) (h : Keeps s t) : Keeps s (t.ifAwake f) := step.ite h
theorem ifLive {f : State → State} (step : Keeps s (f t)) (h : Keeps s t) : Keeps s (t.ifLive f) := step.ite h
theorem ifServes {f : State → State} (step : Keeps s (f t)) (h : Keeps s t) : Keeps s (t.ifServes f) := step.ite h

theorem loseLink {k : Nat} (h : Keeps s t) : Keeps s (t.loseLink k) := by
  unfold State.loseLink
  refine h.ite ?_
  split
  · exact h.work
  · exact h.endDesc

theorem settleLinks (h : Keeps s t) : Keeps s t.settleLinks := by
  unfold State.settleLinks
  exact (foldl (fun _ _ hu => hu.loseLink) h.on).on.on
theorem settleReset (h : Keeps s t) : Keeps s t.settleReset := h.warmReset.ite h

theorem settleAll {n : Nat} (h : Keeps s t) : Keeps s (t.settleAll n) := by
  unfold State.settleAll
  simp only [List.foldl_cons, List.foldl_nil]
  have h2 := ifFree settleColls (ifFree settlePackets (ifFree settleLooks (ifFree settleHeld (ifFree settleInbox (ifFree settleSeeds (h.settleJob (n := n)))))))
  exact (ifFree settleReady h2.serveParked.on.settleGrads.on.settleLinks).endGrads.settleReset.irqSettle.dropStarts.on

theorem settle {n : Nat} (h : Keeps s t) : Keeps s (t.settle n) := h.ite h.settleAll

/-- The end of a command given in `s` keeps what the command's effect keeps. -/
theorem finish (h : Keeps s t) : Keeps s (finish s t) := by
  unfold Machine.finish
  exact (refl s).withdrawn.ite h.settle

end Keeps
end Sys2Proof.Machine
end

section
/-!
SUPPORT. The invariants that hold along every execution: O1, O3, O7 and what O8 says of sound states. O8 itself fails in a state that no run reaches.
-/
namespace Sys2Proof.Machine
open Sys2Proof

-- Threads that wait for the kernel keep their stacks, and the check limits the memory of one text.
set_option Elab.async false

/-- Every command has an effect, which keeps what the invariants speak of and which the end of the command then settles. -/
theorem exec_effect (c : Instr) (s : State) : ∃ u, exec c s = .next (finish s u) ∧ Keeps s u := by
  have h := Keeps.refl s
  cases c <;> refine ⟨_, rfl, ?_⟩
  case coldReset => exact h.coldReset
  case supplyCheck => exact h.supplyCheck
  case ready => exact h.ready
  case warmReset => exact h.warmReset
  case functionLevelReset => exact h.functionReset
  case pcieLinkTrain => exact h.linkTrain
  case unsupportedRequest => exact Keeps.ifAwake h.unsupported h
  case hostMemoryWrite => exact h.memoryWrite
  case hostMemoryRead => exact h.memoryRead
  case registerWrite | armTime | armDesc | swapNow | disarm => exact h.hostRegister
  case latchedLoRead => exact h.wordRead
  case lock | clrCounts | intForce | hostIrqEoi | hostAttestReq | ownerProg | ctSetHi | cpEventValue | cpEventAdd | memRetrainReq | tgStart
    | tgAll | tgStop | retrain | seifCredit | twinResign | form | detach | attach => exact h.hostWord
  case watchFire => exact Keeps.ifLive h.watchFire h
  case attestDone => exact h.attestDone
  case ownerProgDone => exact h.ownerDone
  case smbusStatus | smbusTrip | smbusIdent | smbusTemp => exact h.smbusWords
  case smbusAddr => exact h.smbusAddr
  case smbusRead => exact h.smbusRead
  case timeMessageSend => exact Keeps.ifLive h.timeSend h
  case timeMessageReceive => exact Keeps.ifLive h.timeReceive h
  case rootYield => exact Keeps.ifLive h.rootYield h
  case trefPpsEdge => exact Keeps.ifAwake h.ppsEdge h
  case parentLoss => exact Keeps.ifLive h.parentLoss h
  case rootLoss => exact Keeps.ifLive h.rootLoss h
  case refClkLoss => exact Keeps.ifAwake h.refClkLoss h
  case timedEvent => exact h.timedEvent
  case start => exact h.strandCtrl
  case stop | abort => exact h.strandBit
  case descriptorFetch => exact h.descriptorFetch
  case waitTimeEnd => exact h.waitTimeEnd
  case eventWaitSatisfied => exact h.eventWait
  case descriptorTimeout => exact h.descriptorTimeout
  case descriptorComplete => exact h.descriptorComplete
  case strandWatchdog => exact h.strandWatchdog
  case stepWatchdog => exact h.stepWatchdog
  case nop => exact h.nop
  case jump => exact h.jump
  case loop => exact h.loopOp
  case halt => exact h.halt
  case eventSet => exact h.eventSet
  case stepMark => exact h.stepMark
  case txnPrepare => exact h.txnPrepare
  case txnCommit => exact h.txnCommit
  case txnAbort => exact h.txnAbort
  case storeImm => exact h.storeImm
  case strandStart => exact h.strandStart
  case txnVote => exact Keeps.ifServes h.txnVote h
  case txnDecision => exact Keeps.ifServes h.txnDecision h
  case decisionAck => exact Keeps.ifServes h.decisionAck h
  case txnPublish => exact Keeps.ifLive h.txnPublish h
  case shadowSwap => exact Keeps.ifLive h.shadowSwap h
  case matmul | matmulS28 => exact h.product
  case spmm => exact h.spmmRun
  case spConvert => exact h.runNow.ite h
  case threshTune | marginAdapt | spareAnnounce => exact h.on.ite h
  case sample | embLookup | embGrad | embUpdate | embSync | laneLaunch | laneRestore | actStash | actFetch | rngLaneSeed => exact h.ran
  case sampleRemoteRequest | sampleRemoteAnswer | embLookupRequest | embLookupAnswer | embBagGradient | embContribution | embFlush
    | embForwardFlush | migrationCopy | migrationNotice | embContributionAck | migrationCopyAck => exact h.takeMsg
  case updateWindowStage1 => exact h.windowStage1
  case updateWindowStage2 => exact h.windowStage2
  case migrationSelect => exact h.selectMigrations
  case migrationVerdict => exact h.migrationVerdict
  case forwardEnd => exact h.endForward
  case groupDispatch => exact h.dispatchRun
  case deferredAddApply => exact h.applyDeferred
  case laneSave => exact h.saveRun
  case rngRound | rngDerive | rngFill => exact h.rngRun
  case copy | fill | skew => exact h.dmaRun
  case prefetch | writeback | discard | unpin | setHint => exact h.cacheRun
  case allreduce | reduceScatter | allgather | broadcast | permute | alltoall => exact h.collRun
  case collectivePacket => exact h.collPacket
  case collectiveAbort => exact h.collAbort
  case layoutChange | interleaveChange | interleaveFillEnd | lastDrop | hiddenRetrain | fullRetrainEnd | tgDone | correctionWrite
    | ergCorrectionRewrite | bucketLeak | mergeWindowExpire | scrubRead | scrubLapEnd | lapSlow | historyExpire | rowRemap
    | repairRecordWrite | remapCopyEnd => exact Keeps.ifLive h.on h
  case codewordReceive | packetReceive | ack | nak | credit | heartbeat | heartbeatSend | ident | abortEnd | heartbeatTimeout | lossOfSignal
    | lossOfAlignment | portRetrain | unreachableNotice => exact Keeps.ifAwake h.on h
  case lightLoss => exact h.lightLost
  case trainingComplete => exact Keeps.ifAwake h.on.trainedTime h
  case mirrorBlock => exact Keeps.ifServes h.mirrorBlock h
  case mirrorAck => exact Keeps.ifServes h.mirrorAck h
  case mirrorResendRequest => exact Keeps.ifServes h.mirrorResend h
  case restartReady => exact Keeps.ifServes h.restartReady h
  case restartStart => exact Keeps.ifServes h.restartStart h
  case readyTimeout => exact Keeps.ifServes h.readyTimeout h
  case jobStop => exact Keeps.ifServes h.jobStop h
  case twinHeartbeatSend => exact Keeps.ifServes h.twinHeartbeatSend h
  case twinHeartbeat => exact Keeps.ifServes h.twinHeartbeat h
  case twinLoss => exact Keeps.ifServes h.twinLoss h
  case resign => exact Keeps.ifServes h.declareLost h
  case failoverReq => exact Keeps.ifServes h.failoverReq h
  case failover => exact Keeps.ifServes h.failover h
  case handback => exact Keeps.ifServes h.handback h
  case fillEnd => exact Keeps.ifServes h.fillEnd h
  case controlPeriod => exact Keeps.ifLive h.controlPeriod h
  case avsSample => exact Keeps.ifLive h.avsSample h
  case powerEstimate => exact Keeps.ifLive h.powerEstimate h
  case freqStep => exact Keeps.ifLive h.freqStep h
  case thermalLoop => exact Keeps.ifLive h.thermalLoop h
  case droopDetect => exact Keeps.ifAwake h.droopDetect h
  case droopEnd => exact Keeps.ifAwake h.droopEnd h
  case rampAdmit => exact Keeps.ifLive h.rampAdmit h
  case columnEnable => exact Keeps.ifLive h.columnEnable h
  case throttleAssert => exact Keeps.ifAwake h.throttleAssert h
  case throttleRelease => exact Keeps.ifAwake h.throttleRelease h
  case thermalTrip => exact h.ite h.thermalTrip
  case avsTimeout => exact Keeps.ifLive h.avsTimeout h
  case gpioPulseEnd => exact h.pulseEnds
  case trefPpsLoss => exact Keeps.ifAwake h.ppsLoss h
  case lightReturn => exact h.lightBack
  case twinFormExchange => exact Keeps.ifServes h.twinForm h
  case twinStashTransfer => exact h.twinTransfer
  case stashAnswer => exact h.stashAnswered
  case hostReadCompletion => exact h.hostReadBack
  case permuteAck => exact h.permuteAcked
  case pcieLinkRecovery => exact h.linkRecovery
  case laneReservedOpcode => exact h.reservedOp
  all_goals exact h.laneOp

theorem exec_keeps (c : Instr) (s : State) : ∃ t, exec c s = .next t ∧ Keeps s t := by
  obtain ⟨u, hu, keeps⟩ := exec_effect c s
  exact ⟨_, hu, keeps.finish⟩

/-- A step is its command's effect over the rest of the queue; on an empty queue the clock's, which keeps the same. -/
theorem step_keeps (s : State) : ∃ t, step s = .next t ∧ Keeps { s with pending := s.pending.tail } t := by
  unfold step
  cases queue : s.pending with
  | nil =>
    have same : { s with pending := ([] : List Instr) } = s := by rw [← queue]
    refine ⟨_, rfl, ?_⟩
    rw [List.tail_nil, same]
    exact (Keeps.refl s).tick.finish
  | cons c rest => exact exec_keeps c _

/-- Settles O1: the effect of the front command, and `exec_keeps` for its being one. -/
theorem stepTakesFront : Obligations.StepTakesFront := by
  unfold Obligations.StepTakesFront
  intro c rest s
  obtain ⟨t, next, -⟩ := exec_keeps c s
  exact ⟨rfl, t, next⟩

/-- Settles O3: no operation of the model touches the queue. -/
theorem stepConsumesOne : Obligations.StepConsumesOne := by
  unfold Obligations.StepConsumesOne
  intro s
  obtain ⟨t, next, keeps⟩ := step_keeps s
  exact ⟨t, next, keeps.pending⟩

/-- Settles O7: every operation of the model keeps the invariant. -/
theorem stepKeepsSound : Obligations.StepKeepsSound := by
  unfold Obligations.StepKeepsSound
  intro s t sound next
  obtain ⟨v, next', keeps⟩ := step_keeps s
  cases next.symm.trans next'
  exact keeps.sound sound

/-- What O8 says holds in every sound state: no step unblows a fuse (R716, R717). -/
theorem step_burns_fuses {s t : State} (sound : s.Sound) (next : step s = .next t) : s.mgmt.fuses.Burned t.mgmt.fuses := by
  obtain ⟨v, next', keeps⟩ := step_keeps s
  cases next.symm.trans next'
  exact keeps.burned sound

/-- A device about to become READY whose minimum security version lies above the 64 fuses that hold it, with an image that raises it further. -/
def versionBeyondFuses : State :=
  { core := State.reset.core.setFld Reg.bootStatus 0 4 10
    mgmt := { bootDone := true, fuses := { svnMin := 70 }, image := { raiseSvn := true, svn := 80 } }
    pending := [.ready 0] }

theorem step_versionBeyondFuses : ∃ t, step versionBeyondFuses = .next t ∧ t.mgmt.fuses.svnMin = 64 := by
  refine ⟨_, rfl, ?_⟩
  decide +kernel

/-- Refutes O8: R715 raises the minimum security version to at most the 64 that its fuses can hold, so a version above 64, which no sound state has, falls to 64. In sound
states the statement holds, by `step_burns_fuses`. -/
theorem not_fusesOnlyBurn : ¬ Obligations.FusesOnlyBurn := by
  unfold Obligations.FusesOnlyBurn
  intro h
  obtain ⟨t, next, low⟩ := step_versionBeyondFuses
  obtain ⟨-, rises, -⟩ := h _ t next
  rw [low] at rises
  exact absurd rises (by decide)

end Sys2Proof.Machine
end

section
/-!
SUPPORT. The state at reset, and commands that leave nothing due (O2, O4, O5, O6).
-/
namespace Sys2Proof.Machine
open Sys2Proof

-- Threads that wait for the kernel keep their stacks, and the check limits the memory of one text.
set_option Elab.async false

/-- Settles O4: a quiet state is settled, and no writer waits in it. -/
theorem finishOfQuiet : Obligations.FinishOfQuiet := by
  unfold Obligations.FinishOfQuiet
  intro s t quiet
  have free : t.core.stall = false := by
    simp only [State.quiet, Bool.and_eq_true, Bool.not_eq_true'] at quiet
    grind
  have settled : t.settle s.core.faults = t := if_pos quiet
  simp [finish, settled, free]

/-- Settles O6: nothing is listed at reset. -/
theorem soundAtReset : Obligations.SoundAtReset := by
  unfold Obligations.SoundAtReset
  exact ⟨⟨rfl, rfl, fun _ none => absurd none List.not_mem_nil, by decide, by decide⟩, Memory.wf_reset⟩

theorem nth_replicate {α : Type} (d : α) (n i : Nat) : nth d (List.replicate n d) i = d := by
  simp only [nth, List.getD_eq_getElem?_getD, List.getElem?_replicate]
  split <;> rfl

theorem strand_reset (k : Nat) : State.reset.strand k = {} := nth_replicate _ 64 k

/-- Settles O5: the reset state lists nothing, so that every register, byte and counter reads as the table of reset values has it. -/
theorem resetState : Obligations.ResetState := by
  unfold Obligations.ResetState
  refine ⟨by decide +kernel, fun k _ => by rw [strand_reset], by decide +kernel, rfl, by decide +kernel, rfl, rfl, fun a => ?_, fun key => rfl, fun i => rfl, rfl, ?_,
    by decide +kernel, by decide +kernel⟩
  · change (match place a with | .dram => 0 | .erg q off => if off < State.reset.core.top q then (0 : Byte) else 0 | _ => 0) = 0
    split
    · rfl
    · exact ite_self _
    · rfl
  · unfold State.Calm
    decide +kernel

/-! ### One nanosecond -/

/-- Where a frequency difference asks for nothing, a nanosecond counts as one. -/
theorem freqTick_of_no_error (y : Sync) (h : y.freqErr = 0) : y.freqTick = (0, y.freqAcc) := by simp [Sync.freqTick, h]

/-- Cluster time counts 0, 1 or 2 up to the end of its 64 bits, and 0 while it waits; the time that timers count goes on with it, and by 1 while it waits. -/
theorem tick_core (s : State) : ∃ n, n ≤ 2 ∧ (s.sync.hold ≠ 0 → n = 0) ∧ s.tick.core.ct = (if s.core.ct + n < 2 ^ 64 then s.core.ct + n else s.core.ct)
    ∧ s.tick.core.up = s.core.up + if s.sync.hold ≠ 0 then 1 else n := by
  refine ⟨_, ?_, fun hold => if_pos hold, rfl, rfl⟩
  repeat' split
  all_goals omega

/-- Settles O2: the nanosecond that `State.tick` lets pass counts for 0, 1 or 2 of cluster time. -/
theorem idlePasses : Obligations.IdlePasses := by
  unfold Obligations.IdlePasses
  intro s queue
  have next : step s = .next (finish s s.tick) := by simp [step, queue, idle]
  obtain ⟨n, few, waits, ct, up⟩ := tick_core s
  refine ⟨s.tick, next, rfl, ?_, ?_, ?_, fun slew err hold room => ?_, fun hold room => ?_, fun hold => ⟨?_, ?_, rfl⟩⟩
  · rw [ct]; split <;> omega
  · rw [ct]; split <;> omega
  · rw [up]; exact Nat.le_add_right _ _
  · have one : s.core.ct + 1 < 18446744073709551616 := room
    simp [State.tick, freqTick_of_no_error _ err, slew, hold, one]
  · rw [ct, up, if_neg (not_not_intro hold), if_pos (by omega)]; omega
  · rw [ct, waits hold]; split <;> omega
  · rw [up, if_pos hold]

end Sys2Proof.Machine
end

section
/-! SUPPORT. Little-endian byte strings (R6) and the bytes of a repair record (R513). -/
namespace Sys2Proof.Machine
open Sys2Proof

-- Threads that wait for the kernel keep their stacks, and the check limits the memory of one text.
set_option Elab.async false

/-! ### Byte strings -/

@[simp] theorem length_leBytes (n v : Nat) : (leBytes n v).length = n := by
  induction n generalizing v with
  | zero => rfl
  | succ n ih => simp [leBytes, ih]

theorem ofLE_leBytes_mod (n v : Nat) : ofLE (leBytes n v) = v % 256 ^ n := by
  induction n generalizing v with
  | zero => simp [leBytes, ofLE, Nat.mod_one]
  | succ n ih => rw [Nat.pow_succ', Nat.mod_mul]; simp only [leBytes, ofLE, ih, BitVec.toNat_ofNat]

theorem ofLE_leBytes {n v : Nat} (h : v < 256 ^ n) : ofLE (leBytes n v) = v := by
  rw [ofLE_leBytes_mod, Nat.mod_eq_of_lt h]

/-- Strings of one length, one after the other, have the total length. -/
theorem length_flatten_map {α : Type} (f : α → List Byte) (k : Nat) (hf : ∀ x, (f x).length = k) (l : List α) :
    ((l.map f).flatten).length = k * l.length := by
  induction l with
  | nil => rfl
  | cons x l ih => simp [hf, ih, Nat.mul_succ, Nat.add_comm]

/-- The `i`-th of strings of one length, one after the other, begins at `k * i`. -/
theorem take_drop_flatten_map {α : Type} (f : α → List Byte) (k : Nat) (hf : ∀ x, (f x).length = k) (l : List α) (i : Nat) (h : i < l.length) :
    (((l.map f).flatten).drop (k * i)).take k = f l[i] := by
  induction l generalizing i with
  | nil => simp at h
  | cons x l ih =>
    cases i with
    | zero => simp [List.take_left' (hf x)]
    | succ i =>
      have hi : i < l.length := by simpa using h
      simp only [List.map_cons, List.flatten_cons, List.getElem_cons_succ]
      rw [← ih i hi, Nat.mul_succ, Nat.add_comm, ← List.drop_drop, List.drop_left' (hf x)]

/-! ### The length of a digest -/

theorem length_shaRounds (kw h : List Nat) (hh : h.length = 8) : (kw.foldl shaRound h).length = 8 := by
  induction kw generalizing h with
  | nil => exact hh
  | cons w kw ih => exact ih _ rfl

theorem length_shaBlocks (n : Nat) (bs : List Byte) (h : List Nat) (hh : h.length = 8) : (shaBlocks n bs h).length = 8 := by
  induction n generalizing bs h with
  | zero => exact hh
  | succ n ih => exact ih _ _ (by simp [shaBlock, length_shaRounds _ _ hh, hh])

theorem length_shaInit : shaInit.length = 8 := by decide +kernel

theorem length_sha512 (bs : List Byte) : (sha512 bs).length = 64 := by
  unfold sha512
  rw [length_flatten_map (fun w => (leBytes 8 w).reverse) 8 (by simp), length_shaBlocks _ _ _ length_shaInit]

/-! ### The repair record -/

/-- The numbers of a record's entries, remaps first (R513). -/
def RepairCopy.words (r : RepairCopy) : List Nat := r.remaps.map Remap.entry ++ r.retired.map (· + 2 ^ 63)

theorem RepairCopy.length_words (r : RepairCopy) : r.words.length = r.remaps.length + r.retired.length := by simp [RepairCopy.words]

/-- The fields of a remap entry lie apart (R513). -/
theorem Remap.entry_fields (m : Remap) (h : m.chan < 256 ∧ m.bank < 32 ∧ m.row < 65536 ∧ m.spare < 8 ∧ m.bad < 256) :
    field m.entry 0 8 = m.chan ∧ field m.entry 8 5 = m.bank ∧ field m.entry 13 16 = m.row ∧ field m.entry 29 3 = m.spare ∧ field m.entry 32 8 = m.bad
      ∧ m.entry / 2 ^ 63 = 1 := by
  simp only [field_eq_div_mod, Remap.entry]; omega

/-- The remap entry that a number of the record says (R513). -/
def Remap.ofEntry (e : Nat) : Remap :=
  { chan := field e 0 8, bank := field e 8 5, row := field e 13 16, spare := field e 29 3, bad := field e 32 8 }

theorem Remap.ofEntry_entry (m : Remap) (h : m.chan < 256 ∧ m.bank < 32 ∧ m.row < 65536 ∧ m.spare < 8 ∧ m.bad < 256) : Remap.ofEntry m.entry = m := by
  obtain ⟨chan, bank, row, spare, bad, -⟩ := m.entry_fields h
  rw [Remap.ofEntry, chan, bank, row, spare, bad]

/-- A number of a page of the retirement list (R513). -/
theorem page_field {p : Nat} (h : p < 2 ^ 32) : field (p + 2 ^ 63) 0 32 = p ∧ (p + 2 ^ 63) / 2 ^ 63 = 1 := by
  rw [field_eq_div_mod]; omega

/-- Of a list whose elements carry their places, those before `a.length` are `a`'s, and the rest `b`'s. -/
theorem filter_places {α : Type} (a b : List α) :
    ((a ++ b).mapIdx (fun i e => (i, e))).filter (fun e => decide (e.1 < a.length)) = a.mapIdx (fun i e => (i, e))
    ∧ ((a ++ b).mapIdx (fun i e => (i, e))).filter (fun e => decide (a.length ≤ e.1)) = b.mapIdx (fun i e => (i + a.length, e)) := by
  have before : ∀ e ∈ a.mapIdx (fun i e => (i, e)), e.1 < a.length := by
    simp only [List.mem_mapIdx]; rintro _ ⟨i, hi, rfl⟩; exact hi
  have behind : ∀ e ∈ b.mapIdx (fun i e => (i + a.length, e)), a.length ≤ e.1 := by
    simp only [List.mem_mapIdx]; rintro _ ⟨i, hi, rfl⟩; exact Nat.le_add_left _ _
  rw [List.mapIdx_append]
  simp only [List.filter_append]
  constructor
  · rw [List.filter_eq_self.2 (by simpa using before), List.filter_eq_nil_iff.2 (by simpa using behind), List.append_nil]
  · rw [List.filter_eq_nil_iff.2 (by simpa using before), List.filter_eq_self.2 (by simpa using behind), List.nil_append]

/-- The elements of a list whose elements carry their places. -/
theorem map_places {α β : Type} (place : Nat → Nat) (g : α → β) (l : List α) : (l.mapIdx (fun i e => (place i, e))).map (fun e => g e.2) = l.map g := by
  exact List.ext_getElem (by simp) fun i h h' => by simp

theorem map_map_left_inverse {α β : Type} {f : α → β} {g : β → α} {l : List α} (h : ∀ x ∈ l, g (f x) = x) : (l.map f).map g = l := by
  rw [List.map_map]
  exact (List.map_congr_left h).trans (List.map_id l)

/-- The bytes below a record's header and digest (R513). -/
def RepairCopy.body (r : RepairCopy) : List Byte := (r.words.map (leBytes 8)).flatten

theorem RepairCopy.length_body (r : RepairCopy) : r.body.length = 8 * (r.remaps.length + r.retired.length) := by
  rw [RepairCopy.body, length_flatten_map _ 8 (length_leBytes 8), r.length_words]

/-- A record's bytes, part by part (R513). -/
theorem repairBytes_eq (r : RepairCopy) :
    repairBytes r = leBytes 4 0x52455052 ++ (leBytes 1 1 ++ (leBytes 3 0 ++ (leBytes 4 r.seq ++ (leBytes 4 r.remaps.length
      ++ (leBytes 4 r.retired.length ++ (leBytes 44 0 ++ (sha512 r.body ++ r.body))))))) := by
  have body : (r.remaps.map (fun m => leBytes 8 m.entry)).flatten ++ (r.retired.map (fun p => leBytes 8 (p + 2 ^ 63))).flatten = r.body := by
    simp [RepairCopy.body, RepairCopy.words, Function.comp_def]
  simp only [repairBytes, body, List.append_assoc]

theorem repair_header (r : RepairCopy) :
    (repairBytes r).take 4 = leBytes 4 0x52455052 ∧ ((repairBytes r).drop 4).take 1 = leBytes 1 1 ∧ ((repairBytes r).drop 8).take 4 = leBytes 4 r.seq
      ∧ ((repairBytes r).drop 12).take 4 = leBytes 4 r.remaps.length ∧ ((repairBytes r).drop 16).take 4 = leBytes 4 r.retired.length
      ∧ ((repairBytes r).drop 64).take 64 = sha512 r.body ∧ (repairBytes r).drop 128 = r.body := by
  rw [repairBytes_eq]
  simp [List.drop_append, List.drop_eq_nil_of_le, length_sha512]

theorem repairBytes_length (r : RepairCopy) : (repairBytes r).length = 128 + 8 * (r.remaps.length + r.retired.length) := by
  rw [repairBytes_eq]
  simp only [List.length_append, length_leBytes, length_sha512, r.length_body]
  omega

/-- The numbers that stand behind the header are the entries. -/
theorem repair_words (r : RepairCopy) (fits : ∀ w ∈ r.words, w < 256 ^ 8) :
    (upto (r.remaps.length + r.retired.length)).map (fun i => ofLE (((repairBytes r).drop (128 + 8 * i)).take 8)) = r.words := by
  obtain ⟨-, -, -, -, -, -, body⟩ := repair_header r
  refine List.ext_getElem (by simp [upto, r.length_words]) fun i h h' => ?_
  simp only [upto, List.getElem_map, List.getElem_range]
  rw [← List.drop_drop, body, RepairCopy.body, take_drop_flatten_map _ 8 (length_leBytes 8) _ _ h',
    ofLE_leBytes (fits _ (List.getElem_mem h'))]

/-- Settles O12: header, digest and entries are read where they were put, and an entry's fields lie apart. -/
theorem repairRecord : Obligations.RepairRecord := by
  unfold Obligations.RepairRecord
  intro r hseq hremaps hretired hentry hpage
  have valid : ∀ w ∈ r.words, w / 2 ^ 63 = 1 := by
    intro w hw
    obtain hw | hw := List.mem_append.1 hw <;> obtain ⟨x, hx, rfl⟩ := List.mem_map.1 hw
    · obtain ⟨-, -, -, -, -, top⟩ := x.entry_fields (hentry x hx)
      exact top
    · exact (page_field (hpage x hx)).2
  obtain ⟨magic, version, seq, nRemaps, nRetired, digest, body⟩ := repair_header r
  have all := repair_words r fun w hw => by have := valid w hw; omega
  have on : (r.words.mapIdx (fun i e => (i, e))).filter (fun e => e.2.testBit 63) = r.words.mapIdx (fun i e => (i, e)) := by
    refine List.filter_eq_self.2 fun e he => ?_
    obtain ⟨i, hi, rfl⟩ := List.mem_mapIdx.1 he
    simp only [Nat.testBit_eq_decide_div_mod_eq, valid _ (List.getElem_mem hi)]
    rfl
  have whole : r.body.take (8 * (r.remaps.length + r.retired.length)) = r.body := List.take_of_length_le (Nat.le_of_eq r.length_body)
  have length : ¬(repairBytes r).length < 128 := by rw [repairBytes_length]; omega
  have places := filter_places (r.remaps.map Remap.entry) (r.retired.map (· + 2 ^ 63))
  rw [List.length_map] at places
  obtain ⟨remaps, retired⟩ := places
  unfold readRepair
  rw [if_neg length]
  simp only [magic, version, seq, nRemaps, nRetired, digest, body, List.drop_zero, ofLE_leBytes (show r.remaps.length < 256 ^ 4 by omega),
    ofLE_leBytes (show r.retired.length < 256 ^ 4 by omega), ofLE_leBytes (show r.seq < 256 ^ 4 by omega), all, on, whole]
  rw [RepairCopy.words, remaps, retired]
  rw [if_neg (by simp [ofLE_leBytes]; omega)]
  refine congrArg some (congr (congrArg (RepairCopy.mk r.seq) ?_) ?_)
  · exact (map_places (fun i => i) Remap.ofEntry _).trans (map_map_left_inverse fun m hm => m.ofEntry_entry (hentry m hm))
  · exact (map_places (· + r.remaps.length) (field · 0 32) _).trans (map_map_left_inverse fun p hp => (page_field (hpage p hp)).1)

end Sys2Proof.Machine
end

section
/-! SUPPORT. Memory and registers read back (O13, O14). -/
namespace Sys2Proof.Machine
open Sys2Proof

-- Threads that wait for the kernel keep their stacks, and the check limits the memory of one text.
set_option Elab.async false

/-- A memory whose list is out of order: it lists an address above the Erg store before address 0. -/
def Core.unordered : Core := { ({} : Core) with mem := [(2 ^ 40, 1), (0, 1)] }

/-- A store of no bytes leaves the list as it is, and `putBytes` puts it in order around its address. -/
theorem store_nothing_unordered : (Core.unordered.store {} ergBase []).mem ≠ putBytes Core.unordered.mem ergBase [] := by decide +kernel

/-- Refutes O13: a memory that is not in canonical form is not what `putBytes` leaves of it, even with no byte to store. -/
theorem not_bytesReadBack : ¬ Obligations.BytesReadBack := by
  unfold Obligations.BytesReadBack
  rintro ⟨-, exact_store⟩
  obtain ⟨mem, -, -⟩ := exact_store Core.unordered {} ergBase 0 0 [] (by decide) (by decide) rfl (Nat.zero_le _) (by decide +kernel) (by decide +kernel)
  exact store_nothing_unordered mem

/-- Settles O14: `reg_setReg_eq`, `reg_setReg_ne` and the rules of sorted tables. -/
theorem registersReadBack : Obligations.RegistersReadBack := by
  unfold Obligations.RegistersReadBack
  intro c key v
  refine ⟨c.reg_setReg_eq key v, fun j hj => c.reg_setReg_ne key v j hj, fun canonical => ?_⟩
  unfold Core.setReg
  dsimp only
  split
  · exact sdel_eq_filter c.regs key ▸ sorted_filter c.regs 0 _ canonical
  · exact sorted_sput c.regs 0 key _ (Nat.zero_le _) canonical

end Sys2Proof.Machine
end

section
/-! SUPPORT. Register writes and the commands of a page (O15, O16). -/
namespace Sys2Proof.Machine
open Sys2Proof

-- Threads that wait for the kernel keep their stacks, and the check limits the memory of one text.
set_option Elab.async false

/-! ### Register writes -/

/-- A live device with a collective open on quarter 0. -/
def State.reducing : State :=
  let run : CollRun := { strand := 0, quarter := 0, op := 0, group := 0, tag := 0, epoch := 0, det := false, arith := false, count := 0, thinK := 0, wadi := 0, members := [], rank := 0 }
  State.reset.on (fun c => { c.setFld Reg.bootStatus 0 4 11 with coll := { c.coll with runs := [run] } })

/-- The collective page's RESERVE register of quarter 0 is a block register without write-one bits. -/
theorem names_reserve : Names 0x109040 0x19 0 { blk := 0x19, off := 0x040, reset := 0x8, rw := 0x3F } :=
  ⟨by decide, by decide, by decide, by decide⟩

/-- A write of RESERVE while a collective is open keeps the lanes in force until none is (R593). -/
theorem reserve_keeps_lanes : ∃ u, exec (.registerWrite 0x109040 5 15) State.reducing = .next u ∧ sfind u.core.coll.lanes 0 = some 8 :=
  ⟨_, rfl, by decide +kernel⟩

/-- Refutes O15: a write of RESERVE also keeps the lanes that the open collectives use (R593), which is no part of the register's value. -/
theorem not_registerWrites : ¬ Obligations.RegisterWrites := by
  unfold Obligations.RegisterWrites
  rintro ⟨whole, -⟩
  obtain ⟨plain, -⟩ := whole State.reducing 0x109040 5 0x19 0 _ (by decide +kernel) names_reserve (by decide) (by decide) (by decide)
  obtain ⟨u, stepped, lanes⟩ := reserve_keeps_lanes
  rw [plain rfl] at stepped
  obtain rfl := Host.Outcome.next.inj stepped
  exact absurd lanes (by decide +kernel)

/-! ### The commands of a page -/

theorem pageBlock_lt {page b q : Nat} (h : pageBlock page = some (b, q)) : page < 0x180 ∧ q < 4 := by
  unfold pageBlock at h
  repeat' split at h
  all_goals simp at h
  all_goals omega

/-- A whole word that the host writes to a live device is written, at its word's offset (R677). -/
theorem State.hostWord_live {s : State} (live : s.live = true) (off v : Nat) : s.hostWord off v = s.writeWord (off % 2 ^ 26 / 4 * 4) v := by
  simp [State.hostWord, State.hostWrite, live]

/-- A whole word that the host writes to a header register of a live device (R762). -/
theorem State.hostWord_header {s : State} {page b q : Nat} (live : s.live = true) (mapped : pageBlock page = some (b, q)) {o v : Nat} (ho : o < 0x40)
    (word : o % 4 = 0) (hv : v < 2 ^ 32) : s.hostWord (page * 4096 + o) v = s.writeHeader page o v := by
  obtain ⟨hp, -⟩ := pageBlock_lt mapped
  have off : (page * 4096 + o) % 2 ^ 26 / 4 * 4 = page * 4096 + o := by omega
  have number : (page * 4096 + o) / 4096 = page := by omega
  have place : (page * 4096 + o) % 4096 = o := by omega
  rw [State.hostWord_live live, off]
  simp only [State.writeWord, number, place, mapped, ho, if_true, Nat.mod_eq_of_lt hv]

/-- The blocks of register space (R759, R760). -/
def blockCodes : List Nat := upto 9 ++ (upto 10).map (0x10 + ·)

theorem pageBlock_code {page b q : Nat} (h : pageBlock page = some (b, q)) : b ∈ blockCodes ∧ (b = 5 ↔ page = 5) ∧ (b = 2 ↔ page = 2) := by
  unfold pageBlock at h
  simp only [blockCodes, upto, List.mem_append, List.mem_map, List.mem_range]
  repeat' split at h
  all_goals simp at h
  · omega
  · exact ⟨.inr ⟨page % 0x20, by omega, h.1⟩, by omega, by omega⟩

/-- The registers of a block in a quarter whose counting fields CLR_COUNTS clears (R763). -/
def countRegs (b q : Nat) : List RegDef := (blockRegs b).filter (fun d => d.cnt != 0 && (!d.q0 || q == 0))

/-- Each register of a block stands alone at its offset, behind the header and before the strand registers and the MSI-X table, and counts from zero. -/
theorem blockRegs_facts : ∀ b ∈ blockCodes, ∀ q ∈ upto 4, ∀ d ∈ blockRegs b, (d.q0 = true → q = 0) →
    (0x40 ≤ d.off ∧ (b = 5 → d.off < 0x100) ∧ (b = 2 → d.off < 0x400) ∧ d.reset &&& (0xFFFFFFFF - d.cnt) = d.reset)
    ∧ (blockRegs b).find? (fun e => e.off == d.off && (!e.q0 || q == 0)) = some d
    ∧ (countRegs b q).find? (fun e => e.off == d.off) = (if d.cnt = 0 then none else some d) := by decide +kernel

/-- A counting field reads zero at reset, so clearing it there changes nothing. -/
theorem resetWord_cleared {page b q key : Nat} {d : RegDef} (mapped : pageBlock page = some (b, q)) (hkey : key % 2 ^ 26 / 4096 = page) (hd : d ∈ blockRegs b)
    (hoff : d.off = key % 4096) (hq : d.q0 = true → q = 0) : resetWord key &&& (0xFFFFFFFF - d.cnt) = resetWord key := by
  obtain ⟨code, hb5, hb2⟩ := pageBlock_code mapped
  obtain ⟨⟨low, strands, table, cleared⟩, found, -⟩ := blockRegs_facts b code q (List.mem_range.mpr (pageBlock_lt mapped).2) d hd hq
  have o : key % 2 ^ 26 % 4096 = d.off := by omega
  have reset : resetWord key = d.reset := by
    have strand : strandReg? (key % 2 ^ 26) = none := by
      rw [strandReg?, if_neg]; omega
    have def_ : regDef? (key % 2 ^ 26) = some d := by simp only [regDef?, hkey, mapped, o, found]
    have msix : ¬(page = 2 ∧ 0x400 ≤ d.off ∧ d.off < 0x800) := by omega
    simp only [resetWord, hkey, mapped, o, strand, def_, msix, show d.off ≠ 0 by omega, show d.off ≠ 4 by omega, show ¬d.off < 0x40 by omega, if_false]
  rw [reset, cleared]

theorem sfind_eq_none {α : Type} {m : SMap α} {key : Nat} (h : key ∉ m.map (·.1)) : sfind m key = none := by
  induction m with
  | nil => rfl
  | cons e m ih =>
    obtain ⟨k, w⟩ := e
    obtain ⟨hk, hm⟩ : key ≠ k ∧ key ∉ m.map (·.1) := by simpa using h
    rw [sfind, if_neg hk, ih hm]

/-- CLR_COUNTS clears the counting fields of the register at a key, if `ds` has one there. -/
def Core.clearCount (ds : List RegDef) (c : Core) (key : Nat) : Core :=
  match ds.find? (fun r => r.off == key % 4096) with
  | some r => c.setReg key (c.reg key &&& (0xFFFFFFFF - r.cnt))
  | none => c

/-- Clearing counts changes the register file alone. -/
theorem Core.clearCounts_frame (ds : List RegDef) (keys : List Nat) (c : Core) :
    keys.foldl (Core.clearCount ds) c = { c with regs := (keys.foldl (Core.clearCount ds) c).regs } := by
  induction keys generalizing c with
  | nil => rfl
  | cons k keys ih =>
    rw [List.foldl_cons, ih]
    unfold Core.clearCount
    split <;> rfl

/-- A register that has no counting field keeps its value. -/
theorem Core.reg_clearCounts_none {ds : List RegDef} {key : Nat} (keys : List Nat) (c : Core) (h : ds.find? (fun r => r.off == key % 4096) = none ∨ key ∉ keys) :
    (keys.foldl (Core.clearCount ds) c).reg key = c.reg key := by
  induction keys generalizing c with
  | nil => rfl
  | cons k keys ih =>
    rw [List.foldl_cons, ih _ (h.imp_right fun h => List.not_mem_of_not_mem_cons h)]
    unfold Core.clearCount
    split
    next r found =>
      refine c.reg_setReg_ne k _ key fun hk => ?_
      subst hk
      obtain h | h := h
      · rw [h] at found; cases found
      · exact h List.mem_cons_self
    next => rfl

/-- A register that has counting fields loses them, however often it is cleared. -/
theorem Core.reg_clearCounts {ds : List RegDef} {key : Nat} {r : RegDef} (h : ds.find? (fun r => r.off == key % 4096) = some r) (keys : List Nat) (c : Core)
    (hk : key ∈ keys) : (keys.foldl (Core.clearCount ds) c).reg key = c.reg key &&& (0xFFFFFFFF - r.cnt) := by
  have once (c : Core) : (c.clearCount ds key).reg key = c.reg key &&& (0xFFFFFFFF - r.cnt) := by
    have small : c.reg key &&& (0xFFFFFFFF - r.cnt) < 2 ^ 32 := Nat.lt_of_le_of_lt Nat.and_le_right (by omega)
    simp only [Core.clearCount, h, c.reg_setReg_eq, Nat.mod_eq_of_lt small]
  induction keys generalizing c with
  | nil => cases hk
  | cons k keys ih =>
    rw [List.foldl_cons]
    by_cases here : k = key
    · subst here
      by_cases again : k ∈ keys
      · rw [ih _ again, once, Nat.and_assoc, Nat.and_self]
      · rw [Core.reg_clearCounts_none keys _ (.inr again), once]
    · rw [ih _ ((List.mem_cons.1 hk).resolve_left (Ne.symm here))]
      have same : (c.clearCount ds k).reg key = c.reg key := Core.reg_clearCounts_none [k] c (.inr (by simpa using Ne.symm here))
      rw [same]

/-- Whether a key is that of a word of a page, its banked instances included. -/
def keyInPage (page key : Nat) : Bool := key % 2 ^ 26 / 4096 == page && decide (key < 2 ^ 41)

/-- The registers of a page that hold a value. -/
def Core.pageKeys (c : Core) (page : Nat) : List Nat := (c.regs.map (·.1)).filter (keyInPage page)

/-- What CLR_COUNTS of a page leaves of the machine below the strands (R763). -/
def Core.clrPage (c : Core) (page b q : Nat) : Core :=
  let c1 := (c.pageKeys page).foldl (Core.clearCount (countRegs b q)) c
  { c1.setReg (page * 4096 + 0x2C) 0 with latch := c1.latch.filter (fun e => !keyInPage page (e.1 % 2 ^ 44)) }

theorem State.clrCounts_facts (s : State) {page b q : Nat} (mapped : pageBlock page = some (b, q)) :
    (s.clrCounts page).core = s.core.clrPage page b q ∧ (s.clrCounts page).mgmt = s.mgmt
    ∧ (s.clrCounts page).ctl = (if page = 5 then { s.ctl with strands := s.ctl.strands.map (fun t => { t with wraps := 0 }) } else s.ctl)
    ∧ (page = 6 → (s.clrCounts page).pwr.reasonNs = [0, 0, 0, 0, 0] ∧ (s.clrCounts page).pwr.reasonAt = (s.core.clrPage page b q).up) := by
  simp only [State.clrCounts, mapped]
  by_cases power : page = 6
  · subst power
    exact ⟨rfl, rfl, rfl, fun _ => ⟨rfl, rfl⟩⟩
  · rw [if_neg power]
    by_cases command : page = 5
    · subst command
      exact ⟨rfl, rfl, rfl, fun h => absurd h power⟩
    · rw [if_neg command, if_neg command]
      exact ⟨rfl, rfl, rfl, fun h => absurd h power⟩

/-- No strand's ring has wrapped where all counts of wraps were cleared. -/
theorem wraps_cleared (ts : List Strand) (k : Nat) : (nth ({} : Strand) (ts.map (fun t : Strand => { t with wraps := 0 })) k).wraps = 0 := by
  simp only [nth, List.getD_eq_getElem?_getD, List.getElem?_map]
  cases ts[k]? <;> rfl

/-- Besides registers and latched halves, CLR_COUNTS leaves the machine below the strands alone. -/
theorem Core.clrPage_frame (c : Core) (page b q : Nat) : c.clrPage page b q = { c with regs := (c.clrPage page b q).regs, latch := (c.clrPage page b q).latch } := by
  unfold Core.clrPage
  rw [Core.clearCounts_frame]
  rfl

theorem Core.reg_clrPage {page b q : Nat} (c : Core) (mapped : pageBlock page = some (b, q)) (key : Nat) (d : RegDef) (small : key < 2 ^ 41)
    (hkey : key % 2 ^ 26 / 4096 = page) (hd : d ∈ blockRegs b) (hoff : d.off = key % 4096) (hq : d.q0 = true → q = 0) :
    (c.clrPage page b q).reg key = if d.cnt = 0 then c.reg key else c.reg key &&& (0xFFFFFFFF - d.cnt) := by
  obtain ⟨⟨low, -, -, -⟩, -, found⟩ := blockRegs_facts b (pageBlock_code mapped).1 q (List.mem_range.mpr (pageBlock_lt mapped).2) d hd hq
  have other : key ≠ page * 4096 + 0x2C := by omega
  refine (Core.reg_setReg_ne _ _ 0 key other).trans ?_
  rw [hoff] at found
  by_cases counts : d.cnt = 0
  · rw [if_pos counts] at found ⊢
    exact Core.reg_clearCounts_none _ c (.inl found)
  · rw [if_neg counts] at found ⊢
    by_cases listed : key ∈ c.pageKeys page
    · exact Core.reg_clearCounts found _ c listed
    · have unlisted : key ∉ c.regs.map (·.1) := fun h => listed (List.mem_filter.2 ⟨h, by rw [keyInPage, hkey]; simpa using small⟩)
      have reset : c.reg key = resetWord key := by rw [Core.reg, sfind_eq_none unlisted]
      rw [Core.reg_clearCounts_none _ c (.inr listed), reset, resetWord_cleared mapped hkey hd hoff hq]

theorem Core.reg_clrPage_other {page b q : Nat} (c : Core) (mapped : pageBlock page = some (b, q)) (key : Nat) (hkey : key % 2 ^ 26 / 4096 ≠ page) :
    (c.clrPage page b q).reg key = c.reg key := by
  obtain ⟨small, -⟩ := pageBlock_lt mapped
  have listed : key ∉ c.pageKeys page := fun h => by
    have inPage := (List.mem_filter.1 h).2
    simp only [keyInPage, Bool.and_eq_true, beq_iff_eq] at inPage
    exact hkey inPage.1
  have other : key ≠ page * 4096 + 0x2C := by omega
  exact (Core.reg_setReg_ne _ _ 0 key other).trans (Core.reg_clearCounts_none _ c (.inr listed))

/-- Settles O16: each is a write of a header register, and CLR_COUNTS clears every count that is not already zero. -/
theorem pageCommands : Obligations.PageCommands := by
  unfold Obligations.PageCommands
  intro s page b q live mapped
  have header {o v : Nat} (ho : o < 0x40) (word : o % 4 = 0) (hv : v < 2 ^ 32) := State.hostWord_header live mapped ho word hv
  refine ⟨?_, fun bits hbits => ?_, s.clrCounts page, ?_, ?_⟩
  · show Host.Outcome.next (finish s (s.hostWord (page * 4096 + 0x1C) 1)) = _
    rw [header (by omega) (by omega) (by omega)]
    rfl
  · show Host.Outcome.next (finish s (s.hostWord (page * 4096 + 0x18) bits)) = _
    rw [header (by omega) (by omega) hbits]
    rfl
  · show Host.Outcome.next (finish s (s.hostWord (page * 4096 + 0x08) 1)) = _
    rw [header (by omega) (by omega) (by omega)]
    rfl
  obtain ⟨core, mgmt, ctl, power⟩ := s.clrCounts_facts mapped
  have frame := s.core.clrPage_frame page b q
  rw [core, mgmt, ctl]
  refine ⟨rfl, ?_, ?_, ?_, fun key d small hkey hd hoff hq => s.core.reg_clrPage mapped key d small hkey hd hoff hq, ?_, s.core.reg_clrPage_other mapped, ?_, ?_, ?_, fun h => if_neg h⟩
  · rw [frame]
  · split <;> rfl
  · rw [frame]
  · exact Core.reg_setReg_eq _ _ 0
  · intro e he
    have in_latch : e ∈ (s.core.clrPage page b q).latch := he
    rw [Core.clrPage] at in_latch
    obtain ⟨old, outside⟩ := List.mem_filter.1 in_latch
    rw [Core.clearCounts_frame] at old
    refine ⟨old, fun inside => ?_⟩
    rw [keyInPage, inside.1, decide_eq_true inside.2] at outside
    simp at outside
  · rintro rfl k
    exact (congrArg (fun l => (nth ({} : Strand) l k).wraps) (congrArg Ctl.strands ctl)).trans (wraps_cleared s.ctl.strands k)
  · intro h
    obtain ⟨ns, at_⟩ := power h
    exact ⟨ns, at_.trans (by rw [frame])⟩

end Sys2Proof.Machine
end

section
/-! SUPPORT. Owner slots, the SMBus, and the host's accesses (O22, O23, O18). -/
namespace Sys2Proof.Machine
open Sys2Proof

-- Threads that wait for the kernel keep their stacks, and the check limits the memory of one text.
set_option Elab.async false

/-- Settles O22: the lifecycle comes first, then the operation, then whether the slot is programmed. -/
theorem ownerSlots : Obligations.OwnerSlots := by
  unfold Obligations.OwnerSlots
  intro f slot hash low high
  refine ⟨fun closed op => if_pos closed, fun opened => ?_⟩
  have life : ¬(f.lifecycle = 0 ∨ 3 ≤ f.lifecycle) := by omega
  refine ⟨fun once => ?_, fun free => ?_, fun free => ?_, fun used => ?_, ?_⟩
  · simp [ownerFuses, life, once]
  · have burnt : ownerFuses f slot 0 hash = some { f with programmed := f.programmed ||| BitVec.ofNat 8 (2 ^ slot), ownerHash := setNth f.ownerHash (slot - 4) hash, lifecycle := if f.lifecycle = 1 then 2 else f.lifecycle } := by
      simp [ownerFuses, life, free]
    refine ⟨_, burnt, rfl, by dsimp only; split <;> omega, fun four => nth_setNth_eq [] _ _ hash (by omega), (ownerFuses_burned burnt).1⟩
  · simp [ownerFuses, life, free]
  · exact ⟨_, (if_neg life).trans ((if_pos rfl).trans (if_pos used)), rfl, rfl⟩
  · exact ⟨_, (if_neg life).trans ((if_neg (by decide)).trans (if_pos rfl)), rfl, rfl, rfl⟩

/-! ### The SMBus (R707) -/

/-- A read of a register word answers its value and changes no more than what its reader has latched. -/
theorem State.readWord_latch (s : State) (reader off : Nat) :
    ∃ l, s.readWord reader off = ({ s with core := { s.core with latch := l } }, s.peek reader off) := by
  unfold State.readWord
  dsimp only
  split
  · split
    · exact ⟨_, rfl⟩
    · exact ⟨s.core.latch, rfl⟩
  · exact ⟨s.core.latch, rfl⟩

/-- Settles O23: a block read sends its words, and a register read sends the word it names. -/
theorem smbus : Obligations.Smbus := by
  unfold Obligations.Smbus
  intro s
  refine ⟨rfl, rfl, rfl, rfl, fun off => rfl, fun open_ => ?_, fun closed => ?_⟩
  · obtain ⟨l, read⟩ := s.readWord_latch 1 (s.mgmt.smbOffset / 4 * 4)
    refine ⟨smbusRead s, rfl, ?_⟩
    rw [smbusRead, if_pos open_, read]
    rfl
  · show Host.Outcome.next (finish s (smbusRead s)) = _
    rw [smbusRead, if_neg closed]
    rfl

/-! ### The host's accesses to memory (R675, R680 to R683) -/

/-- A host access that waits for nothing and is not withdrawn takes place at once. -/
theorem State.hostAccess_serves {s : State} {p : Parked} (free : s.core.parkedWaits p = false) (room : (s.serve p).core.stall = false) :
    s.hostAccess p = s.serve p := by
  simp [State.hostAccess, free, room]

/-- A host access that must wait is kept. -/
theorem State.hostAccess_parks {s : State} {p : Parked} (waits : s.core.parkedWaits p = true) : s.hostAccess p = s.park p := if_pos waits

/-- A host write without EP that a live device takes. -/
theorem memoryWrite_taken {s : State} {bar4 : Bool} {off a : Nat} {bytes : List Byte} (live : s.live = true) (window : s.winAddr bar4 off bytes.length = some a)
    (noLog : inLog a = false) : memoryWrite s bar4 off bytes false false = s.hostAccess { addr := a, len := bytes.length, data := some (bytes, false) } := by
  simp [memoryWrite, live, window, noLog]

/-- A host read takes place: its completion carries the bytes, with EP for an error or poison. -/
theorem State.serve_read (s : State) (a n tag : Nat) :
    let r := s.core.read { q := 0, src := 2 } a n
    s.serve ⟨a, n, tag, none⟩ = { s with core := r.1 }.toHost (.readCompletion tag r.2.2 (r.2.1 != 0 || r.1.poisoned a n)) := by
  simp only [State.serve, State.serveRead]

/-- A poisoned block meets a range of bytes when it is one of the blocks from that of the first byte to that of the last. -/
theorem Core.poisoned_iff (c : Core) {a n : Nat} (hn : n ≠ 0) :
    c.poisoned a n = true ↔ ∃ i, i < (a + n - 1) / 64 - a / 64 + 1 ∧ a / 64 + i ∈ c.poison := by
  simp only [Core.poisoned, meets, List.any_eq_true, Bool.and_eq_true, decide_eq_true_eq]
  constructor
  · rintro ⟨b, hb, ⟨-, above⟩, below⟩
    exact ⟨b - a / 64, by omega, by rwa [show a / 64 + (b - a / 64) = b by omega]⟩
  · rintro ⟨i, hi, hb⟩
    exact ⟨_, hb, ⟨hn, by omega⟩, by omega⟩

theorem Core.length_bytesAt (c : Core) (txn : Option Nat) (a n : Nat) : (c.bytesAt txn a n).length = n := by
  simp [Core.bytesAt, upto]

/-- Settles O18: an access that waits for nothing takes place, one that must wait is parked, and one outside its BAR is unsupported. -/
theorem hostMemory : Obligations.HostMemory := by
  unfold Obligations.HostMemory
  intro s live
  have written {bar4 off bytes ep} : exec (.hostMemoryWrite bar4 off bytes ep false) s = .next (finish s (memoryWrite s bar4 off bytes ep false)) := rfl
  have readFrom {bar4 off n tag} : exec (.hostMemoryRead bar4 off n tag) s = .next (finish s (memoryRead s bar4 off n tag)) := rfl
  have refused {tag} (awake : s.awake = true) : exec (.unsupportedRequest tag) s = .next (finish s (unsupported s tag)) :=
    congrArg (fun t => Host.Outcome.next (finish s t)) (if_pos awake)
  refine ⟨fun bar4 off bytes a window noLog => ⟨fun free room => ?_, fun waits => ?_⟩, fun bar4 off n tag a awake window noLog free => ?_,
    fun bar4 off n tag awake outside => ?_, fun bar4 off bytes ep awake outside => ?_, fun awake tag => ⟨unsupported s tag, refused awake, ?_⟩⟩
  · rw [written, memoryWrite_taken live window noLog]
    exact congrArg (fun t => Host.Outcome.next (finish s t)) (State.hostAccess_serves (p := ⟨a, bytes.length, 0, some (bytes, false)⟩) free room)
  · rw [written, memoryWrite_taken live window noLog]
    exact congrArg (fun t => Host.Outcome.next (finish s t)) (State.hostAccess_parks (p := ⟨a, bytes.length, 0, some (bytes, false)⟩) waits)
  · intro r room
    refine ⟨r.2.1 != 0 || r.1.poisoned a n, ?_, fun bytes => ?_⟩
    · rw [readFrom]
      have taken : memoryRead s bar4 off n tag = s.hostAccess { addr := a, len := n, tag := tag } := by
        simp [memoryRead, awake, live, window, noLog]
      have room' : (s.serve ⟨a, n, tag, none⟩).core.stall = false := by
        rw [s.serve_read]
        exact room
      rw [taken, State.hostAccess_serves (p := ⟨a, n, tag, none⟩) free room', s.serve_read]
    · have some_ : n ≠ 0 := fun none_ => bytes (List.length_eq_zero_iff.1 ((Core.length_bytesAt _ _ _ _).trans none_))
      rw [Bool.or_eq_true, r.1.poisoned_iff some_, bne_iff_ne]
  · rw [readFrom, refused awake]
    simp [memoryRead, awake, outside]
  · rw [written, refused awake]
    simp [memoryWrite, live, outside]
  · cases tag with
    | none => exact ⟨rfl, by simp [unsupported]; rfl, rfl, rfl, rfl, rfl⟩
    | some t => exact ⟨rfl, rfl, rfl, rfl, rfl, rfl⟩

end Sys2Proof.Machine
end

section
/-! SUPPORT. Fields of registers: what a field reads after a write to it, to another field and to another register. -/
namespace Sys2Proof.Machine
open Sys2Proof

-- Threads that wait for the kernel keep their stacks, and the check limits the memory of one text.
set_option Elab.async false

/-! ### Fields of a word -/

theorem testBit_field (x lo w i : Nat) : (field x lo w).testBit i = (decide (i < w) && x.testBit (lo + i)) := by
  rw [field, Nat.testBit_mod_two_pow, Nat.testBit_shiftRight]

/-- A written field stands between the bits above it and those below. -/
theorem putField_eq (x lo w v : Nat) : putField x lo w v = 2 ^ lo * (2 ^ w * (x / 2 ^ lo / 2 ^ w) + v % 2 ^ w) + x % 2 ^ lo := by
  have low := Nat.div_add_mod x (2 ^ lo)
  have high := Nat.div_add_mod (x / 2 ^ lo) (2 ^ w)
  rw [putField, field_eq_div_mod]
  generalize x / 2 ^ lo = d at low high ⊢
  have : x = 2 ^ lo * (2 ^ w * (d / 2 ^ w)) + d % 2 ^ w * 2 ^ lo + x % 2 ^ lo := by
    rw [Nat.mul_comm (d % 2 ^ w), ← Nat.mul_add, high, low]
  rw [Nat.mul_add, Nat.mul_comm (v % 2 ^ w)]
  omega

theorem testBit_putField (x lo w v i : Nat) : (putField x lo w v).testBit i = if lo ≤ i ∧ i < lo + w then v.testBit (i - lo) else x.testBit i := by
  rw [putField_eq, Nat.testBit_two_pow_mul_add _ (Nat.mod_lt _ (Nat.two_pow_pos _))]
  by_cases low : i < lo
  · rw [if_pos low, if_neg (by omega), Nat.testBit_mod_two_pow, decide_eq_true low, Bool.true_and]
  · rw [if_neg low, Nat.testBit_two_pow_mul_add _ (Nat.mod_lt _ (Nat.two_pow_pos _))]
    by_cases inside : i - lo < w
    · rw [if_pos inside, if_pos (by omega), Nat.testBit_mod_two_pow, decide_eq_true inside, Bool.true_and]
    · rw [if_neg inside, if_neg (by omega), Nat.testBit_div_two_pow, Nat.testBit_div_two_pow]
      congr 1; omega

/-! ### Fields of a register -/

@[simp] theorem Core.setReg_mem (c : Core) (key v : Nat) : (c.setReg key v).mem = c.mem := (rfl)
@[simp] theorem Core.setFld_mem (c : Core) (key lo w v : Nat) : (c.setFld key lo w v).mem = c.mem := (rfl)
@[simp] theorem Core.setBit_mem (c : Core) (key i : Nat) (b : Bool) : (c.setBit key i b).mem = c.mem := (rfl)
@[simp] theorem Core.raise_mem (c : Core) (page i : Nat) : (c.raise page i).mem = c.mem := (rfl)

@[simp] theorem Core.reg_setFld_ne (c : Core) {key j : Nat} (lo w v : Nat) (h : j ≠ key) : (c.setFld key lo w v).reg j = c.reg j := c.reg_setReg_ne key _ j h

theorem Core.testBit_setFld (c : Core) (key lo w v i : Nat) :
    ((c.setFld key lo w v).reg key).testBit i = (decide (i < 32) && if lo ≤ i ∧ i < lo + w then v.testBit (i - lo) else (c.reg key).testBit i) := by
  rw [Core.setFld, Core.reg_setReg_eq, Nat.testBit_mod_two_pow, testBit_putField]

/-- A field reads what was written to it. -/
theorem Core.fld_setFld_eq (c : Core) (key v : Nat) {lo w : Nat} (h : lo + w ≤ 32) : (c.setFld key lo w v).fld key lo w = v % 2 ^ w := by
  refine Nat.eq_of_testBit_eq fun i => ?_
  rw [Core.fld, testBit_field, Core.testBit_setFld, Nat.testBit_mod_two_pow]
  by_cases hi : i < w
  · rw [if_pos (by omega), decide_eq_true (show lo + i < 32 by omega), Bool.true_and, Nat.add_sub_cancel_left]
  · rw [decide_eq_false hi, Bool.false_and, Bool.false_and]

/-- A field keeps its value when another field of its register is written. -/
theorem Core.fld_setFld_other (c : Core) (key v : Nat) {lo w lo' w' : Nat} (h : lo' + w' ≤ 32) (apart : lo' + w' ≤ lo ∨ lo + w ≤ lo') :
    (c.setFld key lo w v).fld key lo' w' = c.fld key lo' w' := by
  refine Nat.eq_of_testBit_eq fun i => ?_
  rw [Core.fld, Core.fld, testBit_field, testBit_field, Core.testBit_setFld]
  by_cases hi : i < w'
  · rw [if_neg (by omega), decide_eq_true (show lo' + i < 32 by omega), Bool.true_and]
  · rw [decide_eq_false hi, Bool.false_and, Bool.false_and]

/-- A field keeps its value when another register is written. -/
theorem Core.fld_setReg_ne (c : Core) {key j : Nat} (v lo w : Nat) (h : j ≠ key) : (c.setReg key v).fld j lo w = c.fld j lo w := by
  rw [Core.fld, Core.fld, c.reg_setReg_ne key v j h]

theorem Core.fld_setFld_ne (c : Core) {key j : Nat} (lo w v lo' w' : Nat) (h : j ≠ key) : (c.setFld key lo w v).fld j lo' w' = c.fld j lo' w' :=
  c.fld_setReg_ne _ _ _ h

theorem Core.fld_raise_ne (c : Core) {page i j : Nat} (lo w : Nat) (h : j ≠ page * 4096 + 0x10) : (c.raise page i).fld j lo w = c.fld j lo w :=
  c.fld_setReg_ne _ _ _ h

theorem Core.reg_raise_ne (c : Core) {page i j : Nat} (h : j ≠ page * 4096 + 0x10) : (c.raise page i).reg j = c.reg j := c.reg_setReg_ne _ _ _ h

/-- A raised bit of INT_STATUS is set, and raising leaves every other bit of it. -/
theorem Core.testBit_raise (c : Core) (page : Nat) {i : Nat} (hi : i < 32) {j : Nat} (hj : j < 32) :
    ((c.raise page i).reg (page * 4096 + 0x10)).testBit j = (decide (j = i) || (c.reg (page * 4096 + 0x10)).testBit j) := by
  rw [Core.raise, Core.setBit, Core.testBit_setFld, decide_eq_true hj, Bool.true_and]
  by_cases h : j = i
  · subst h; rw [if_pos (by omega), Nat.sub_self, decide_eq_true rfl, Bool.true_or]; rfl
  · rw [if_neg (by omega), decide_eq_false h, Bool.false_or]

/-- Registers written one after the other: each reads its own value, and the others keep theirs. -/
theorem Core.reg_foldl_setReg (c : Core) (key : Nat → Nat) (v : Nat → Nat) (inj : ∀ i j, key i = key j → i = j) (l : List Nat) :
    (∀ i ∈ l, (l.foldl (fun (d : Core) i => d.setReg (key i) (v i)) c).reg (key i) = v i % 2 ^ 32)
    ∧ ∀ k, (∀ i ∈ l, k ≠ key i) → (l.foldl (fun (d : Core) i => d.setReg (key i) (v i)) c).reg k = c.reg k := by
  induction l generalizing c with
  | nil => exact ⟨by simp, fun _ _ => rfl⟩
  | cons i l ih =>
    obtain ⟨own, frame⟩ := ih (c.setReg (key i) (v i))
    refine ⟨fun j hj => ?_, fun k hk => ?_⟩
    · by_cases later : j ∈ l
      · exact own j later
      · obtain rfl : j = i := (List.mem_cons.1 hj).resolve_right later
        exact (frame _ fun n hn same => later (by rwa [inj j n same])).trans (c.reg_setReg_eq _ _)
    · exact (frame k fun n hn => hk n (List.mem_cons_of_mem _ hn)).trans (c.reg_setReg_ne _ _ _ (hk i List.mem_cons_self))

/-- Writing registers changes the register file alone. -/
theorem Core.foldl_setReg_frame (c : Core) (key : Nat → Nat) (v : Nat → Nat) (l : List Nat) :
    l.foldl (fun (d : Core) i => d.setReg (key i) (v i)) c = { c with regs := (l.foldl (fun (d : Core) i => d.setReg (key i) (v i)) c).regs } := by
  induction l generalizing c with
  | nil => rfl
  | cons i l ih => rw [List.foldl_cons, ih]; rfl

end Sys2Proof.Machine
end

section
/-! SUPPORT. The boot sequence and the requests of the security page (O20, O21). -/
namespace Sys2Proof.Machine
open Sys2Proof

-- Threads that wait for the kernel keep their stacks, and the check limits the memory of one text.
set_option Elab.async false

/-! ### Stages -/

theorem State.stage_reached (s : State) (n : Nat) : (s.stage n).core.fld Reg.bootStatus 0 4 = n % 16 := Core.fld_setFld_eq _ _ _ (by decide)

/-- A boot that fails stands at stage 15 with its code and DETAIL. -/
theorem State.failBoot_facts (s : State) (code detail : Nat) :
    (s.failBoot code detail).core.fld Reg.bootStatus 0 4 = 15 ∧ (s.failBoot code detail).core.fld Reg.bootStatus 8 8 = code % 256
      ∧ (s.failBoot code detail).core.reg Reg.bootDetail = detail % 2 ^ 32 := by
  refine ⟨?_, ?_, Core.reg_setReg_eq _ _ _⟩
  · refine (Core.fld_setReg_ne _ _ _ _ (by decide)).trans ((Core.fld_setFld_other _ _ _ (by decide) (by decide)).trans ?_)
    exact s.stage_reached 15
  · exact (Core.fld_setReg_ne _ _ _ _ (by decide)).trans (Core.fld_setFld_eq _ _ _ (by decide))

/-- The stages run to stage 10, with the boot done, or one of them fails. -/
theorem runStages_end (fs : List BootStage) (s : State) :
    (runStages fs s).core.fld Reg.bootStatus 0 4 = 10 ∧ (runStages fs s).mgmt.bootDone = true ∨ (runStages fs s).core.fld Reg.bootStatus 0 4 = 15 := by
  induction fs generalizing s with
  | nil => exact .inl ⟨s.stage_reached 10, rfl⟩
  | cons f fs ih =>
    rw [runStages]
    split
    · exact ih _
    · exact .inr (State.failBoot_facts _ _ _).1

/-- What READY writes beside its stage: BOOT_TIME and the interrupt bits (R722). -/
def Core.readyCore (c : Core) (ms : Nat) : Core :=
  let c1 := (c.setReg Reg.bootTime ms).raise 0 0
  if c1.reg Reg.bootSeifNoLight = 0 then c1 else c1.raise 0 1

theorem Core.readyCore_facts (c : Core) (ms : Nat) : (c.readyCore ms).mem = c.mem ∧ (c.readyCore ms).fld Reg.bootStatus 0 4 = c.fld Reg.bootStatus 0 4
    ∧ (c.readyCore ms).reg Reg.bootTime = ms % 2 ^ 32 ∧ ((c.readyCore ms).reg 0x10).testBit 0 = true := by
  have stage : ((c.setReg Reg.bootTime ms).raise 0 0).fld Reg.bootStatus 0 4 = c.fld Reg.bootStatus 0 4 :=
    (Core.fld_raise_ne _ _ _ (by decide)).trans (Core.fld_setReg_ne _ _ _ _ (by decide))
  have time : ((c.setReg Reg.bootTime ms).raise 0 0).reg Reg.bootTime = ms % 2 ^ 32 := (Core.reg_raise_ne _ (by decide)).trans (Core.reg_setReg_eq _ _ _)
  have raised : (((c.setReg Reg.bootTime ms).raise 0 0).reg 0x10).testBit 0 = true := Core.testBit_raise _ 0 (by decide) (by decide)
  unfold Core.readyCore
  dsimp only
  split
  · exact ⟨rfl, stage, time, raised⟩
  · refine ⟨rfl, (Core.fld_raise_ne _ _ _ (by decide)).trans stage, (Core.reg_raise_ne _ (by decide)).trans time, ?_⟩
    exact (Core.testBit_raise _ 0 (by decide) (by decide)).trans (by rw [raised, Bool.or_true])

/-- Settles O20: the check answers a fault or none, and READY writes its registers one after the other. -/
theorem boot : Obligations.Boot := by
  unfold Obligations.Boot
  refine ⟨fun s k t free first => ?_, fun s ms done free tenth => ⟨ready s ms, rfl, ?_⟩⟩
  · have gate : ¬(s.mgmt.held || s.core.fld Reg.bootStatus 0 4 != 1) = true := by simp [free, first]
    have stepped : exec (.supplyCheck k t) s = .next (finish s (supplyCheck s k t)) := rfl
    refine ⟨fun code detail fault few => ?_, fun code detail fault many => ⟨_, stepped, ?_⟩, fun passed => ⟨_, stepped, ?_⟩⟩
    · rw [stepped, supplyCheck, if_neg gate]
      simp only [fault, show ¬s.mgmt.supplyFails + 1 ≥ 10 by omega, if_false]
      rfl
    · rw [supplyCheck, if_neg gate]
      simp only [fault, show s.mgmt.supplyFails + 1 ≥ 10 by omega, if_true]
      obtain ⟨stage, failed, why⟩ := State.failBoot_facts { s.on (fun c => { c with free := c.free + 1 }) with
        mgmt := { s.mgmt with supplyFails := s.mgmt.supplyFails + 1 } } code detail
      exact ⟨stage, failed, why, rfl, rfl, rfl⟩
    · have runs : supplyCheck s k t = runStages (stages s.mgmt.warm t) (State.stage { s with core := { s.core with free := s.core.free + 1 }, mgmt := { s.mgmt with supplyFails := 0 } } 2) := by
        rw [supplyCheck, if_neg gate]
        simp only [passed]
        rfl
      exact ⟨runs, runs ▸ runStages_end _ _⟩
  · have gate : ¬(!s.mgmt.bootDone || s.mgmt.held || s.core.fld Reg.bootStatus 0 4 != 10) = true := by simp [done, free, tenth]
    rw [ready, if_neg gate]
    have stage := (s.stage 11).core.readyCore_facts ms
    rw [s.stage_reached 11] at stage
    obtain ⟨frame, eleven, time, raised⟩ := stage
    exact ⟨eleven, time, raised, rfl, frame, rfl, rfl, rfl, rfl⟩

/-! ### Registers of the device pages -/

/-- A whole word that the host writes to a block register of a device page of a live device: its fields by their access types, then its own effect (R12). -/
theorem State.hostWord_dev {s : State} {off v b q : Nat} {d : RegDef} (live : s.live = true) (names : Names off b q d) (dev : off / 4096 < 9) (hv : v < 2 ^ 32) :
    s.hostWord off v = (s.writeFields (off / 4096) off d v).devEffect off v (s.core.reg (s.core.regKey off)) := by
  obtain ⟨⟨small, word⟩, page, ⟨block, strand, table⟩, reg⟩ := names
  have low : ¬off % 4096 < 0x40 := by omega
  have page' := page
  rw [pageBlock, if_pos (by omega)] at page'
  obtain ⟨rfl, rfl⟩ : off / 4096 = b ∧ 0 = q := by simpa using page'
  have seif : ¬(off / 4096 = 0x18 ∧ off % 4096 = 0x70) := by omega
  rw [State.hostWord_live live, show off % 2 ^ 26 / 4 * 4 = off by omega]
  simp only [State.writeWord, page, low, strand, table, reg, Nat.mod_eq_of_lt hv, if_false, bne_self_eq_false, Bool.and_false, Bool.false_eq_true, seif, dev, if_true]

/-- The fields of a register without a shadow copy, all written alike (R12). -/
def Core.putFields (c : Core) (key rw w1c v : Nat) : Core :=
  c.setReg key (((c.reg key &&& (0xFFFFFFFF - rw)) ||| (v &&& rw)) &&& (0xFFFFFFFF - (v &&& w1c)))

theorem State.writeFields_eq (s : State) {d : RegDef} (page off v : Nat) (plain : d.rws = 0) :
    s.writeFields page off d v = s.on (fun c => c.putFields (s.core.regKey off) (d.rw ||| (if s.mgmt.locks.contains page then 0 else d.rwl)) d.w1c v) := by
  simp only [State.writeFields, plain, if_true]
  rfl

/-- A field keeps its value when a write reaches none of the register's bits. -/
theorem Core.fld_putFields_kept (c : Core) (key : Nat) {rw w1c v lo w : Nat} (noField : rw = 0) (noClear : v &&& w1c = 0) (h : lo + w ≤ 32) :
    (c.putFields key rw w1c v).fld key lo w = c.fld key lo w := by
  have word : ((c.reg key &&& (0xFFFFFFFF - rw)) ||| (v &&& rw)) &&& (0xFFFFFFFF - (v &&& w1c)) = c.reg key % 2 ^ 32 := by
    rw [noField, noClear, Nat.and_zero, Nat.or_zero, Nat.and_assoc, Nat.and_self]
    exact Nat.and_two_pow_sub_one_eq_mod _ 32
  refine Nat.eq_of_testBit_eq fun i => ?_
  rw [Core.fld, Core.fld, testBit_field, testBit_field, Core.putFields, Core.reg_setReg_eq, word, Nat.mod_mod, Nat.testBit_mod_two_pow]
  by_cases hi : i < w
  · rw [decide_eq_true (show lo + i < 32 by omega), Bool.true_and]
  · rw [decide_eq_false hi, Bool.false_and, Bool.false_and]

/-! ### Attestation and owner slots -/

theorem names_attestCtrl : Names Reg.hostAttestCtrl 2 0 { blk := 0x02, off := 0x078, w1c := 0xC, w1s := 0x1 } :=
  ⟨by decide, by decide, by decide, by decide⟩

theorem names_ownerProg : Names Reg.secOwnerProg 1 0 { blk := 0x01, off := 0x054, reset := 0x4, w1c := 0xC0, w1s := 0x20, rwl := 0x1F } :=
  ⟨by decide, by decide, by decide, by decide⟩

theorem State.devEffect_attestCtrl (s : State) (v old : Nat) : s.devEffect Reg.hostAttestCtrl v old =
    if bit v 0 ∧ s.core.fld Reg.hostAttestCtrl 1 1 = 0 then
      { s.on (fun c => c.setBit Reg.hostAttestCtrl 1 true) with mgmt := { s.mgmt with attestAt := some s.core.up } }
    else s := rfl

theorem State.devEffect_ownerProg (s : State) (v old : Nat) : s.devEffect Reg.secOwnerProg v old =
    if bit v 5 ∧ s.mgmt.ownerAt.isNone then { s with mgmt := { s.mgmt with ownerAt := some s.core.up } } else s := rfl

/-- A request for attestation on a live device that has none: BUSY, and the time (R692). -/
theorem State.attest_requested {s : State} (live : s.live = true) (idle : s.core.fld Reg.hostAttestCtrl 1 1 = 0) :
    ∃ regs, s.hostWord Reg.hostAttestCtrl 1 = { s with core := ({ s.core with regs := regs } : Core).setBit Reg.hostAttestCtrl 1 true, mgmt := { s.mgmt with attestAt := some s.core.up } } := by
  have noField : (0 ||| if s.mgmt.locks.contains (Reg.hostAttestCtrl / 4096) then 0 else 0) = 0 := by split <;> rfl
  have kept := (Core.fld_putFields_kept s.core Reg.hostAttestCtrl noField (show 1 &&& 0xC = 0 by decide) (by decide)).trans idle
  rw [State.hostWord_dev live names_attestCtrl (by decide) (by decide), State.writeFields_eq _ _ _ _ rfl, State.devEffect_attestCtrl, if_pos ⟨rfl, kept⟩]
  exact ⟨_, rfl⟩

/-- A request for an owner slot while none is under way: its time, and fields of the security page (R718). -/
theorem State.owner_requested {s : State} (slot op : Nat) (live : s.live = true) (idle : s.mgmt.ownerAt = none) :
    ∃ regs, s.hostWord Reg.secOwnerProg (slot % 8 + op % 4 * 8 + 32) =
      { s with core := { s.core with regs := regs }, mgmt := { s.mgmt with ownerAt := some s.core.up } } := by
  have go : bit (slot % 8 + op % 4 * 8 + 32) 5 = true := by
    rw [bit, Nat.testBit_eq_decide_div_mod_eq, decide_eq_true]
    omega
  have none_ : s.mgmt.ownerAt.isNone = true := by rw [idle]; rfl
  rw [State.hostWord_dev live names_ownerProg (by decide) (by omega), State.writeFields_eq _ _ _ _ rfl, State.devEffect_ownerProg, if_pos ⟨go, none_⟩]
  exact ⟨_, rfl⟩

theorem ofLE_lt (bs : List Byte) : ofLE bs < 256 ^ bs.length := by
  induction bs with
  | nil => exact Nat.one_pos
  | cons b bs ih =>
    have := b.isLt
    rw [ofLE, List.length_cons, Nat.pow_succ]
    omega

/-- Bytes put in registers from an offset on, four a register. -/
def Core.putWords (c : Core) (off n : Nat) (bs : List Byte) : Core :=
  (upto n).foldl (fun (d : Core) i => d.setReg (off + 4 * i) (ofLE ((bs.drop (4 * i)).take 4))) c

theorem Core.putWords_mem (c : Core) (off n : Nat) (bs : List Byte) : (c.putWords off n bs).mem = c.mem := by
  rw [Core.putWords, Core.foldl_setReg_frame]

theorem Core.reg_putWords (c : Core) (off n : Nat) (bs : List Byte) {i : Nat} (hi : i < n) :
    (c.putWords off n bs).reg (off + 4 * i) = ofLE ((bs.drop (4 * i)).take 4) := by
  have small : ofLE ((bs.drop (4 * i)).take 4) < 2 ^ 32 := Nat.lt_of_lt_of_le (ofLE_lt _) (Nat.pow_le_pow_right (by decide) (List.length_take_le _ _))
  have words := (c.reg_foldl_setReg (off + 4 * ·) (fun i => ofLE ((bs.drop (4 * i)).take 4)) (fun i j same => by omega) (upto n)).1
  exact (words i (List.mem_range.2 hi)).trans (Nat.mod_eq_of_lt small)

theorem Core.reg_putWords_below (c : Core) (off n : Nat) (bs : List Byte) {k : Nat} (hk : k < off) : (c.putWords off n bs).reg k = c.reg k :=
  (c.reg_foldl_setReg (off + 4 * ·) (fun i => ofLE ((bs.drop (4 * i)).take 4)) (fun i j same => by omega) (upto n)).2 k fun i _ => by omega

/-- An attestation that the MC signs: the report in the window, LENGTH and DONE (R720). -/
theorem attestDone_signed {s : State} {t : Nat} (asked : s.mgmt.attestAt = some t) :
    attestDone s true = { s with
      core := ((((s.core.setBit Reg.hostAttestCtrl 1 false).raise 2 2).putWords 0x2C00 104 s.report).setFld Reg.hostAttestCtrl 16 11 416).setBit Reg.hostAttestCtrl 2 true,
      mgmt := { s.mgmt with attestAt := none } } := by
  simp only [attestDone, asked]
  rfl

/-- The registers of a signed report: BUSY is clear, DONE and LENGTH are set, ATTEST is raised, and the window holds the report (R692, R720). -/
theorem report_facts (c0 : Core) (bs : List Byte) :
    let c := ((((c0.setBit Reg.hostAttestCtrl 1 false).raise 2 2).putWords 0x2C00 104 bs).setFld Reg.hostAttestCtrl 16 11 416).setBit Reg.hostAttestCtrl 2 true
    c.mem = c0.mem ∧ c.fld Reg.hostAttestCtrl 1 1 = 0 ∧ c.fld Reg.hostAttestCtrl 2 1 = 1 ∧ c.fld Reg.hostAttestCtrl 16 11 = 416
      ∧ (c.reg 0x2010).testBit 2 = true ∧ ∀ i, i < 104 → c.reg (0x2C00 + 4 * i) = ofLE ((bs.drop (4 * i)).take 4) := by
  dsimp only
  have mem := ((c0.setBit Reg.hostAttestCtrl 1 false).raise 2 2).putWords_mem 0x2C00 104 bs
  have words := fun i hi => ((c0.setBit Reg.hostAttestCtrl 1 false).raise 2 2).reg_putWords 0x2C00 104 bs (i := i) hi
  have below := fun k hk => ((c0.setBit Reg.hostAttestCtrl 1 false).raise 2 2).reg_putWords_below 0x2C00 104 bs (k := k) hk
  generalize ((c0.setBit Reg.hostAttestCtrl 1 false).raise 2 2).putWords 0x2C00 104 bs = c at mem words below ⊢
  have apart {k} (hk : k ≠ Reg.hostAttestCtrl) : ((c.setFld Reg.hostAttestCtrl 16 11 416).setBit Reg.hostAttestCtrl 2 true).reg k = c.reg k :=
    (Core.reg_setFld_ne _ _ _ _ hk).trans (Core.reg_setFld_ne _ _ _ _ hk)
  refine ⟨by simp [mem], ?_, Core.fld_setFld_eq _ _ _ (by decide), ?_, ?_, fun i hi => ?_⟩
  · refine (Core.fld_setFld_other _ _ _ (by decide) (by decide)).trans ((Core.fld_setFld_other _ _ _ (by decide) (by decide)).trans ?_)
    rw [Core.fld, below _ (by decide), Core.reg_raise_ne _ (by decide)]
    exact Core.fld_setFld_eq _ _ _ (by decide)
  · exact (Core.fld_setFld_other _ _ _ (by decide) (by decide)).trans (Core.fld_setFld_eq _ _ _ (by decide))
  · rw [apart (by decide), below _ (by decide)]
    exact Core.testBit_raise _ 2 (by decide) (by decide)
  · rw [apart (by unfold Reg.hostAttestCtrl; omega), words i hi]

/-- Settles O21: requests are register writes, and a completion writes the report's words one after the other. -/
theorem securityRequests : Obligations.SecurityRequests := by
  unfold Obligations.SecurityRequests
  intro s live
  refine ⟨fun idle => ⟨_, rfl, ?_⟩, fun t asked => ⟨attestDone s false, rfl, ?_⟩, fun t asked => ⟨attestDone s true, rfl, ?_⟩, fun slot op idle => ⟨_, rfl, ?_⟩,
    fun t asked => ⟨ownerDone s, rfl, ?_⟩⟩
  · obtain ⟨regs, effect⟩ := State.attest_requested live idle
    rw [effect]
    exact ⟨rfl, Core.fld_setFld_eq _ _ _ (by decide), rfl⟩
  · simp only [attestDone, asked]
    exact ⟨rfl, rfl, rfl, rfl⟩
  · rw [attestDone_signed asked]
    exact ⟨rfl, report_facts _ s.report⟩
  · obtain ⟨regs, effect⟩ := State.owner_requested slot op live idle
    rw [effect]
    exact ⟨rfl, rfl⟩
  · have pending : ¬s.mgmt.ownerAt.isNone = true := by rw [asked]; exact Bool.false_ne_true
    have locked : s.mgmt.locks.contains 1 = decide (1 ∈ s.mgmt.locks) := List.contains_eq_mem _ _
    unfold ownerDone
    rw [if_neg pending]
    simp only [locked, decide_eq_true_eq]
    cases (if 1 ∈ s.mgmt.locks then none else ownerFuses s.mgmt.fuses (max 4 (s.core.fld Reg.secOwnerProg 0 3)) (s.core.fld Reg.secOwnerProg 3 2)
        (s.core.regBytes Reg.secOwnerHash 8)) with
    | none => exact ⟨rfl, rfl, rfl⟩
    | some f => exact ⟨rfl, rfl, rfl⟩

end Sys2Proof.Machine
end

section
/-! SUPPORT. Lane registers: FP64 pairs, predicates and exception flags that an instruction writes for each enabled thread (R344, R374, R378, R385). -/
namespace Sys2Proof.Machine
open Sys2Proof

-- Threads that wait for the kernel keep their stacks, and the check limits the memory of one text.
set_option Elab.async false

/-! ### Exception flags -/

/-- The flags that some threads raise. -/
def flagsOver (ts : List Nat) (fl : Nat → Nat) : Nat := ts.foldl (fun f t => f ||| fl t) 0

theorem testBit_foldl_or (ts : List Nat) (fl : Nat → Nat) (a j : Nat) :
    (ts.foldl (fun f t => f ||| fl t) a).testBit j = (a.testBit j || ts.any (fun t => (fl t).testBit j)) := by
  induction ts generalizing a with
  | nil => simp
  | cons t ts ih => rw [List.foldl_cons, ih, Nat.testBit_or, List.any_cons, Bool.or_assoc]

theorem testBit_flagsOver (ts : List Nat) (fl : Nat → Nat) (j : Nat) : (flagsOver ts fl).testBit j = ts.any (fun t => (fl t).testBit j) := by
  rw [flagsOver, testBit_foldl_or, Nat.zero_testBit, Bool.false_or]

/-- Flags that are raised beside writes which do not look at them are raised together at the end. -/
theorem Lx.each_raise (l : Lx) (i : LWord) (put : Lx → Nat → Lx) (fl : Nat → Nat) (blind : ∀ k t a, put (k.raise a) t = (put k t).raise a) :
    l.each i (fun k t => (put k t).raise (fl t)) = (l.each i put).raise (flagsOver (l.threads i) fl) := by
  have fold (ts : List Nat) (k : Lx) (a : Nat) :
      ts.foldl (fun k t => (put k t).raise (fl t)) (k.raise a) = (ts.foldl put k).raise (ts.foldl (fun f t => f ||| fl t) a) := by
    induction ts generalizing k a with
    | nil => rfl
    | cons t ts ih =>
      rw [List.foldl_cons, List.foldl_cons, List.foldl_cons, blind, ← ih]
      simp only [Lx.raise, Nat.or_assoc]
  have zero : l.raise 0 = l := by simp only [Lx.raise, Nat.or_zero]
  have all := fold (l.threads i) l 0
  rw [zero] at all
  exact all

/-! ### FP64 pairs -/

theorem LaneRun.vregs_even (r : LaneRun) : r.vregs % 2 = 0 := by
  unfold LaneRun.vregs; omega

/-- The two registers of the pair that a register below the launch's count lies in. -/
theorem Lx.vname_pair (l : Lx) {r : Nat} (h : r < l.run.vregs) : l.vname (r / 2 * 2) = r / 2 * 2 ∧ l.vname (r / 2 * 2 + 1) = r / 2 * 2 + 1 := by
  have := l.run.vregs_even
  exact ⟨if_pos (by omega), if_pos (by omega)⟩

/-- A register beyond the launch's count names V0, as does its pair. -/
theorem Lx.vname_beyond (l : Lx) {r : Nat} (h : l.run.vregs ≤ r) : l.vname (r / 2 * 2) = 0 ∧ l.vname (r / 2 * 2 + 1) = 0 := by
  have := l.run.vregs_even
  exact ⟨if_neg (by omega), if_neg (by omega)⟩

/-- A write of a pair: the odd register takes the high word, the even one the low word. -/
theorem Lx.v_setW (l : Lx) (r x q : Nat) {t u : Nat} (ht : t < 32) (hu : u < 32) : (l.setW r t x).v q u =
    if u = t ∧ l.vname q = l.vname (r / 2 * 2 + 1) then x / 2 ^ 32 % 2 ^ 32
    else if u = t ∧ l.vname q = l.vname (r / 2 * 2) then x % 2 ^ 32 else l.v q u := by
  rw [Lx.setW, Lx.v_setV _ _ _ _ ht hu, Lx.v_setV _ _ _ _ ht hu]
  simp only [Lx.vname_setV, Nat.mod_mod]

/-- What the pair `dst` of a thread reads after writes in several threads. -/
def Lx.pairPut (l : Lx) (dst q x old : Nat) : Nat :=
  if l.vname q = l.vname (dst / 2 * 2 + 1) then x / 2 ^ 32 % 2 ^ 32 else if l.vname q = l.vname (dst / 2 * 2) then x % 2 ^ 32 else old

theorem Lx.v_foldl_setW (dst : Nat) (val : Nat → Nat) (ts : List Nat) (within : ∀ t ∈ ts, t < 32) (l : Lx) (q u : Nat) (hu : u < 32) :
    (ts.foldl (fun k t => k.setW dst t (val t)) l).v q u = if u ∈ ts then l.pairPut dst q (val u) (l.v q u) else l.v q u := by
  induction ts generalizing l with
  | nil => simp
  | cons t ts ih =>
    have names : (l.setW dst t (val t)).pairPut dst q (val u) = l.pairPut dst q (val u) := rfl
    rw [List.foldl_cons, ih fun s hs => within s (List.mem_cons_of_mem t hs), names, l.v_setW dst (val t) q (within t List.mem_cons_self) hu]
    by_cases now : u = t
    · subst now
      simp only [Lx.pairPut, true_and, List.mem_cons, true_or, if_true]
      repeat' split
      all_goals rfl
    · simp [now]

/-- What an instruction leaves in the V registers when it writes the pair `dst` in each enabled thread (R374, R378). -/
theorem Lx.v_each_setW (l : Lx) (i : LWord) (dst : Nat) (val : Nat → Nat) (q u : Nat) (hu : u < 32) :
    (l.each i (fun k t => k.setW dst t (val t))).v q u = if (l.enabled i).testBit u = true then l.pairPut dst q (val u) (l.v q u) else l.v q u := by
  have within : ∀ t ∈ l.threads i, t < 32 := fun t ht => ((l.mem_threads i t).mp ht).1
  rw [Lx.each, Lx.v_foldl_setW dst val _ within l q u hu]
  simp only [Lx.mem_threads, hu, true_and]

/-- An enabled thread's pair reads what was written to it, modulo 2⁶⁴. -/
theorem Lx.w_each_setW (l : Lx) (i : LWord) {dst : Nat} (val : Nat → Nat) {u : Nat} (hdst : dst < l.run.vregs) (hu : u < 32)
    (on : (l.enabled i).testBit u = true) : (l.each i (fun k t => k.setW dst t (val t))).w dst u = val u % 2 ^ 64 := by
  obtain ⟨even, odd⟩ := l.vname_pair hdst
  have apart : dst / 2 * 2 ≠ dst / 2 * 2 + 1 := by omega
  rw [Lx.w, l.v_each_setW i dst val _ u hu, l.v_each_setW i dst val _ u hu, if_pos on, if_pos on, Lx.pairPut, Lx.pairPut, even, odd, if_neg apart, if_pos rfl, if_pos rfl]
  omega

/-- Beyond the launch's registers the high word of a pair is what V0 reads. -/
theorem Lx.v_each_setW_beyond (l : Lx) (i : LWord) {dst : Nat} (val : Nat → Nat) {u : Nat} (hdst : l.run.vregs ≤ dst) (hu : u < 32)
    (on : (l.enabled i).testBit u = true) : (l.each i (fun k t => k.setW dst t (val t))).v 0 u = val u / 2 ^ 32 % 2 ^ 32 := by
  have zero : l.vname 0 = 0 := if_pos (by unfold LaneRun.vregs; omega)
  rw [l.v_each_setW i dst val _ u hu, if_pos on, Lx.pairPut, (l.vname_beyond hdst).2, if_pos zero]

/-- Writes of pairs change nothing but the V registers. -/
theorem Lx.each_setW_frame (l : Lx) (i : LWord) (dst : Nat) (val : Nat → Nat) :
    ∃ m, l.each i (fun k t => k.setW dst t (val t)) = { l with g := { l.g with v := m } } := by
  refine List.foldlRecOn (motive := fun k : Lx => ∃ m, k = { l with g := { l.g with v := m } }) _ _ ⟨l.g.v, rfl⟩ ?_
  rintro _ ⟨m, rfl⟩ t -
  exact ⟨_, rfl⟩

/-! ### Predicates -/

/-- A write of a predicate register reads back, modulo 2³², and the others keep their values. -/
theorem Lx.p_setP (l : Lx) (r x q : Nat) (eight : l.g.p.length = 8) : (l.setP r x).p q = if q % 8 = r % 8 then x % 2 ^ 32 else l.p q := by
  unfold Lx.p Lx.setP
  split
  · next same => rw [same, nth_setNth_eq _ _ _ _ (by omega)]
  · next other => exact nth_setNth_ne _ _ _ _ _ other

theorem length_setNth {α : Type} (l : List α) (i : Nat) (v : α) : (setNth l i v).length = l.length := by
  induction l generalizing i with
  | nil => rfl
  | cons x l ih => cases i with
    | zero => rfl
    | succ i => simp [setNth, ih]

/-- What predicate `dst` and the other predicates hold after one bit of it was written in each of some threads. -/
theorem Lx.p_foldl_setPbit (dst : Nat) (val : Nat → Bool) (ts : List Nat) (l : Lx) (eight : l.g.p.length = 8) :
    (∀ u, u < 32 → ((ts.foldl (fun k t => k.setPbit dst t (val t)) l).p dst).testBit u = if u ∈ ts then val u else (l.p dst).testBit u)
    ∧ ∀ r, r % 8 ≠ dst % 8 → (ts.foldl (fun k t => k.setPbit dst t (val t)) l).p r = l.p r := by
  induction ts generalizing l with
  | nil => simp
  | cons t ts ih =>
    obtain ⟨bits, frame⟩ := ih (l.setPbit dst t (val t)) ((length_setNth _ _ _).trans eight)
    refine ⟨fun u hu => ?_, fun r hr => ?_⟩
    · rw [List.foldl_cons, bits u hu, Lx.setPbit, l.p_setP _ _ _ eight, if_pos rfl, Nat.testBit_mod_two_pow, decide_eq_true hu, Bool.true_and, testBit_putField]
      by_cases later : u ∈ ts
      · simp [later]
      · by_cases now : u = t
        · subst now
          cases val u <;> simp [later, b2n]
        · rw [if_neg later, if_neg (by omega), if_neg (by simp [now, later])]
    · rw [List.foldl_cons, frame r hr, Lx.setPbit, l.p_setP _ _ _ eight, if_neg hr]

/-- What an instruction leaves in the predicates when it writes one bit of predicate `dst` for each enabled thread (R378). -/
theorem Lx.p_each_setPbit (l : Lx) (i : LWord) (dst : Nat) (val : Nat → Bool) (eight : l.g.p.length = 8) :
    (∀ u, u < 32 → ((l.each i (fun k t => k.setPbit dst t (val t))).p dst).testBit u = if (l.enabled i).testBit u = true then val u else (l.p dst).testBit u)
    ∧ ∀ r, r % 8 ≠ dst % 8 → (l.each i (fun k t => k.setPbit dst t (val t))).p r = l.p r := by
  obtain ⟨bits, frame⟩ := Lx.p_foldl_setPbit dst val (l.threads i) l eight
  refine ⟨fun u hu => ?_, frame⟩
  rw [Lx.each, bits u hu]
  simp only [Lx.mem_threads, hu, true_and]

/-- Writes of predicate bits change nothing but the predicates. -/
theorem Lx.each_setPbit_frame (l : Lx) (i : LWord) (dst : Nat) (val : Nat → Bool) :
    ∃ m, l.each i (fun k t => k.setPbit dst t (val t)) = { l with g := { l.g with p := m } } := by
  refine List.foldlRecOn (motive := fun k : Lx => ∃ m, k = { l with g := { l.g with p := m } }) _ _ ⟨l.g.p, rfl⟩ ?_
  rintro _ ⟨m, rfl⟩ t -
  exact ⟨_, rfl⟩

end Sys2Proof.Machine
end

section
/-! SUPPORT. Floating-point lane instructions and compares (O45, O46). -/
namespace Sys2Proof.Machine
open Sys2Proof

-- Threads that wait for the kernel keep their stacks, and the check limits the memory of one text.
set_option Elab.async false

/-! ### Group 0 -/

/-- Taking the draws of an instruction changes at most s31 and the generators' lanes. -/
theorem Lx.round_frame (l : Lx) (i : LWord) (rounds : Bool) :
    ∃ m s, (l.round i rounds).1 = { l with x := { l.x with lfsr := m }, g := { l.g with s := s } } := by
  unfold Lx.round
  split
  · exact ⟨_, _, rfl⟩
  · split
    · exact ⟨_, _, rfl⟩
    · exact ⟨_, _, rfl⟩

/-- EXP2, LOG2 and RSQRT write each enabled thread's register and raise that thread's flags (R382). -/
theorem laneArith_transc (l : Lx) (i : LWord) (h : 11 ≤ i.op) :
    laneArith l i = ((l.round i (decide (i.op ≤ 6))).1.each i (fun k t => k.setV i.dst t (transc i.op (l.v i.s1 t)).1)).raise
      (flagsOver ((l.round i (decide (i.op ≤ 6))).1.threads i) (fun t => (transc i.op (l.v i.s1 t)).2)) :=
  (if_pos h).trans (Lx.each_raise _ i (fun k t => k.setV i.dst t (transc i.op (l.v i.s1 t)).1) _ fun _ _ _ => rfl)

/-- The result and flags of a thread's operation of group 0 (R380, R381). -/
def Lx.arithOf (l : Lx) (i : LWord) (t : Nat) : Nat × Nat :=
  arith i.op i.ffmt ((l.round i (decide (i.op ≤ 6))).2.at_ false t) (l.fsrc i i.s1 t) (l.fb i t) (l.fsrc i i.s3 t)

/-- The other operations write each enabled thread's destination and raise that thread's flags (R380). -/
theorem laneArith_arith (l : Lx) (i : LWord) (h : i.op ≤ 10) :
    laneArith l i = ((l.round i (decide (i.op ≤ 6))).1.each i (fun k t => k.setF i t (l.arithOf i t).1)).raise
      (flagsOver ((l.round i (decide (i.op ≤ 6))).1.threads i) (fun t => (l.arithOf i t).2)) := by
  refine (if_neg (show ¬i.op ≥ 11 by omega)).trans (Lx.each_raise _ i (fun k t => k.setF i t (l.arithOf i t).1) _ fun k t a => ?_)
  unfold Lx.setF
  split <;> rfl

theorem Lx.each_setF_single (l : Lx) {i : LWord} (h : i.fmt ≠ 0) (val : Nat → Nat) :
    l.each i (fun k t => k.setF i t (val t)) = l.each i (fun k t => k.setV i.dst t (val t)) := by
  simp only [Lx.setF, if_neg h]

theorem Lx.each_setF_pair (l : Lx) {i : LWord} (h : i.fmt = 0) (val : Nat → Nat) :
    l.each i (fun k t => k.setF i t (val t)) = l.each i (fun k t => k.setW i.dst t (val t)) := by
  simp only [Lx.setF, if_pos h]

/-- Writes of floating-point results change nothing but the V registers. -/
theorem Lx.each_setF_frame (l : Lx) (i : LWord) (val : Nat → Nat) : ∃ m, l.each i (fun k t => k.setF i t (val t)) = { l with g := { l.g with v := m } } := by
  by_cases h : i.fmt = 0
  · exact l.each_setF_pair h val ▸ l.each_setW_frame i i.dst val
  · exact l.each_setF_single h val ▸ ⟨_, l.each_setV_frame i i.dst val⟩

/-- What a group 0 instruction leaves in the V registers when its result takes one register (R378, R380). -/
theorem v_laneArith (l : Lx) (i : LWord) (h : i.op ≤ 10) (single : i.fmt ≠ 0) (r t : Nat) (ht : t < 32) :
    (laneArith l i).v r t = if (l.enabled i).testBit t = true ∧ l.vname r = l.vname i.dst then (l.arithOf i t).1 % 2 ^ 32 else l.v r t := by
  obtain ⟨m, s, hm⟩ := l.round_frame i (decide (i.op ≤ 6))
  rw [laneArith_arith l i h, hm, Lx.each_setF_single _ single]
  exact Lx.v_each_setV _ i i.dst _ r t ht

theorem v_laneTransc (l : Lx) (i : LWord) (h : 11 ≤ i.op) (r t : Nat) (ht : t < 32) : (laneArith l i).v r t =
    if (l.enabled i).testBit t = true ∧ l.vname r = l.vname i.dst then (transc i.op (l.v i.s1 t)).1 % 2 ^ 32 else l.v r t := by
  obtain ⟨m, s, hm⟩ := l.round_frame i (decide (i.op ≤ 6))
  rw [laneArith_transc l i h, hm]
  exact Lx.v_each_setV _ i i.dst _ r t ht

/-- What a group 0 instruction leaves in an enabled thread's pair (R374, R380). -/
theorem w_laneArith (l : Lx) (i : LWord) (h : i.op ≤ 10) (pair : i.fmt = 0) {t : Nat} (ht : t < 32) (on : (l.enabled i).testBit t = true) :
    (i.dst < l.run.vregs → (laneArith l i).w i.dst t = (l.arithOf i t).1 % 2 ^ 64)
    ∧ (l.run.vregs ≤ i.dst → (laneArith l i).v 0 t = (l.arithOf i t).1 / 2 ^ 32 % 2 ^ 32) := by
  obtain ⟨m, s, hm⟩ := l.round_frame i (decide (i.op ≤ 6))
  rw [laneArith_arith l i h, hm, Lx.each_setF_pair _ pair]
  exact ⟨fun inside => Lx.w_each_setW _ i _ inside ht on, fun beyond => Lx.v_each_setW_beyond _ i _ beyond ht on⟩

/-- The exception word gains the flags that enabled threads raise (R385). -/
theorem flags_laneArith (l : Lx) (i : LWord) (j : Nat) : (laneArith l i).g.flags.testBit j =
    (l.g.flags.testBit j || (l.threads i).any (fun t => (if 11 ≤ i.op then transc i.op (l.v i.s1 t) else l.arithOf i t).2.testBit j)) := by
  obtain ⟨m, s, hm⟩ := l.round_frame i (decide (i.op ≤ 6))
  by_cases h : 11 ≤ i.op
  · rw [laneArith_transc l i h, hm, Lx.each_setV_frame]
    simp only [h, if_true]
    exact (Nat.testBit_or _ _ j).trans (congrArg (_ || ·) (testBit_flagsOver _ _ j))
  · obtain ⟨v, hv⟩ := Lx.each_setF_frame { l with x := { l.x with lfsr := m }, g := { l.g with s := s } } i (fun t => (l.arithOf i t).1)
    rw [laneArith_arith l i (by omega), hm, hv]
    simp only [h, if_false]
    exact (Nat.testBit_or _ _ j).trans (congrArg (_ || ·) (testBit_flagsOver _ _ j))

theorem add_two_pow_eq_xor {a n : Nat} (h : a < 2 ^ n) : a + 2 ^ n = a ^^^ 2 ^ n := by
  refine Nat.eq_of_testBit_eq fun i => ?_
  rw [testBit_add_two_pow h, Nat.testBit_xor, Nat.testBit_two_pow]
  by_cases here : i = n
  · subst here; simp [Nat.testBit_lt_two_pow h]
  · simp [here, Ne.symm here]

/-- Turning over the top bit of a word adds it or takes it away. -/
theorem flip_top {a n : Nat} (h : a < 2 ^ (n + 1)) : (if a < 2 ^ n then a + 2 ^ n else a - 2 ^ n) = a ^^^ 2 ^ n := by
  split
  · next low => exact add_two_pow_eq_xor low
  · next high =>
    have rest : a - 2 ^ n < 2 ^ n := by rw [Nat.pow_succ] at h; omega
    rw [eq_xor_of_xor_eq (add_two_pow_eq_xor rest).symm, Nat.sub_add_cancel (Nat.le_of_not_lt high)]

/-- ABS clears the sign bit and NEG flips it, in either format (R383). -/
theorem arith_sign (r : Rnd) (a b c : Nat) :
    arith 9 1 r a b c = (a % 2 ^ 31, 0) ∧ arith 9 0 r a b c = (a % 2 ^ 63, 0)
    ∧ (a < 2 ^ 32 → arith 10 1 r a b c = (a ^^^ 2 ^ 31, 0)) ∧ (a < 2 ^ 64 → arith 10 0 r a b c = (a ^^^ 2 ^ 63, 0)) := by
  refine ⟨rfl, rfl, fun h => ?_, fun h => ?_⟩
  · exact congrArg (·, 0) (flip_top (n := 31) h)
  · exact congrArg (·, 0) (flip_top (n := 63) h)

/-- Settles O45: operands are read before any thread writes, and each enabled thread writes and raises its own. -/
theorem laneFloats : Obligations.LaneFloats := by
  unfold Obligations.LaneFloats
  refine ⟨fun l i => ⟨fun single h r t ht => ?_, fun h r t ht => v_laneTransc l i h r t ht, fun pair h t ht on => ?_, flags_laneArith l i⟩,
    fun r a b c h => ⟨(arith_sign r a b c).1, (arith_sign r a b c).2.2.1 h⟩, fun r a b c h => ⟨(arith_sign r a b c).2.1, (arith_sign r a b c).2.2.2 h⟩⟩
  · have result : l.arithOf i t = arith i.op 1 ((l.round i (decide (i.op ≤ 6))).2.at_ false t) (l.v i.s1 t) (l.fb i t) (l.v i.s3 t) := by
      simp only [Lx.arithOf, LWord.ffmt, Lx.fsrc, if_neg single]
    rw [v_laneArith l i h single r t ht, result]
  · have result : l.arithOf i t = arith i.op 0 ((l.round i (decide (i.op ≤ 6))).2.at_ false t) (l.w i.s1 t) (l.fb i t) (l.w i.s3 t) := by
      simp only [Lx.arithOf, LWord.ffmt, Lx.fsrc, if_pos pair]
    rw [← result]
    exact w_laneArith l i h pair ht on

/-! ### Group 3 -/

/-- What an instruction leaves that writes one bit of predicate `dst` for each enabled thread, and raises flags (R378, R390). -/
theorem Lx.setPbit_leaves (l : Lx) (i : LWord) (rel : Nat → Bool) (f : Nat) (eight : l.g.p.length = 8) :
    let m := (l.each i (fun k t => k.setPbit i.dst t (rel t))).raise f
    (∀ t, t < 32 → (m.p i.dst).testBit t = if (l.enabled i).testBit t = true then rel t else (l.p i.dst).testBit t)
      ∧ (∀ r, r % 8 ≠ i.dst % 8 → m.p r = l.p r) ∧ m.g.v = l.g.v ∧ m.g.s = l.g.s ∧ m.x = l.x := by
  obtain ⟨bits, frame⟩ := l.p_each_setPbit i i.dst rel eight
  obtain ⟨p, hp⟩ := l.each_setPbit_frame i i.dst rel
  refine ⟨bits, frame, ?_, ?_, ?_⟩ <;> rw [hp] <;> rfl

/-- The same of an instruction that raises none. -/
theorem Lx.setPbit_leaves_quiet (l : Lx) (i : LWord) (rel : Nat → Bool) (eight : l.g.p.length = 8) :
    let m := l.each i (fun k t => k.setPbit i.dst t (rel t))
    (∀ t, t < 32 → (m.p i.dst).testBit t = if (l.enabled i).testBit t = true then rel t else (l.p i.dst).testBit t)
      ∧ (∀ r, r % 8 ≠ i.dst % 8 → m.p r = l.p r) ∧ m.g.v = l.g.v ∧ m.g.s = l.g.s ∧ m.x = l.x := by
  have all := l.setPbit_leaves i rel 0 eight
  have zero (m : Lx) : m.raise 0 = m := by simp only [Lx.raise, Nat.or_zero]
  rwa [zero] at all

/-- The relation that a floating-point compare writes (R390). -/
def fpRel (op : Nat) (x y : Fp) : Bool :=
  let un := x == .nan || y == .nan
  match op with
  | 0 => !un && Fp.eq x y
  | 1 => !un && Fp.lt x y
  | 2 => !un && Fp.le x y
  | 3 => un || !Fp.eq x y
  | _ => un

theorem laneCmp_float (l : Lx) (i : LWord) (h : i.op ≤ 4) : laneCmp l i =
    (l.each i (fun k t => k.setPbit i.dst t (fpRel i.op (decodeBits i.ffmt (l.fsrc i i.s1 t)) (decodeBits i.ffmt (l.fb i t))))).raise
      (flagsOver (l.threads i) (fun t => nanFlags i.ffmt [l.fsrc i i.s1 t, l.fb i t])) := by
  have together := l.each_raise i (fun k t => k.setPbit i.dst t (fpRel i.op (decodeBits i.ffmt (l.fsrc i i.s1 t)) (decodeBits i.ffmt (l.fb i t))))
    (fun t => nanFlags i.ffmt [l.fsrc i i.s1 t, l.fb i t]) fun _ _ _ => rfl
  rw [← together]
  obtain h | h | h | h | h : i.op = 0 ∨ i.op = 1 ∨ i.op = 2 ∨ i.op = 3 ∨ i.op = 4 := by omega
  all_goals simp only [laneCmp, h, fpRel]

/-- The second source of SEL (R377, R390). -/
def Lx.selB (l : Lx) (i : LWord) (t : Nat) : Nat :=
  if i.k = 1 then (if i.fmt = 0 then l.sw i.s2 else l.s i.s2) else if i.k = 2 then i.simm else l.fsrc i i.s2 t

theorem laneCmp_sel (l : Lx) (i : LWord) (h : i.op = 8) :
    laneCmp l i = l.each i (fun k t => k.setF i t (if (l.p i.s3).testBit t then l.fsrc i i.s1 t else l.selB i t)) := by
  simp only [laneCmp, h, Lx.selB]
  congr 2
  funext k t
  congr 2
  split
  · next one => rw [if_pos one]
  · next two => rw [if_neg (by omega), if_pos two]
  · next one two => rw [if_neg one, if_neg two]

/-- The second source of a predicate operation (R376, R390). -/
theorem Lx.pb_eq (l : Lx) (i : LWord) : l.pb i = if i.k = 1 then l.is i else if i.k = 2 then i.simm else l.p i.s2 := by
  unfold Lx.pb
  split
  · next one => rw [if_pos one]
  · next two => rw [if_neg (by omega), if_pos two]
  · next one two => rw [if_neg one, if_neg two]

/-- Settles O46: each operation writes one bit a thread, one register a thread, or one register of the group. -/
theorem laneCompares : Obligations.LaneCompares := by
  unfold Obligations.LaneCompares
  intro l i eight puts x y un q b sel
  have float {n : Nat} (hn : n ≤ 4) (h : i.op = n) : puts (fun t => fpRel n (x t) (y t)) := by
    subst h
    have leaves := l.setPbit_leaves i (fun t => fpRel i.op (decodeBits i.ffmt (l.fsrc i i.s1 t)) (decodeBits i.ffmt (l.fb i t)))
      (flagsOver (l.threads i) (fun t => nanFlags i.ffmt [l.fsrc i i.s1 t, l.fb i t])) eight
    rw [← laneCmp_float l i hn] at leaves
    exact leaves
  have bits {rel : Nat → Bool} (h : laneCmp l i = l.each i (fun k t => k.setPbit i.dst t (rel t))) : puts rel := by
    have leaves := l.setPbit_leaves_quiet i rel eight
    rw [← h] at leaves
    exact leaves
  have select (h : i.op = 8) : laneCmp l i = l.each i (fun k t => k.setF i t (sel t)) := laneCmp_sel l i h
  have second : q = l.pb i := (l.pb_eq i).symm
  refine ⟨float (n := 0) (by decide), float (n := 1) (by decide), float (n := 2) (by decide), float (n := 3) (by decide), float (n := 4) (by decide),
    fun h => bits (by simp only [laneCmp, h]), fun h => bits (by simp only [laneCmp, h]), fun h => bits (by simp only [laneCmp, h]),
    fun h single r t ht => ?_, fun h pair inside t ht on => ?_, fun h => ?_,
    fun h => bits (by simp only [laneCmp, h, second]), fun h => bits (by simp only [laneCmp, h, second]),
    fun h => bits (by simp only [laneCmp, h, second]), fun h => bits (by simp only [laneCmp, h, second]), fun h r => ?_, fun h r => ?_⟩
  · rw [select h, l.each_setF_single single]
    exact l.v_each_setV i i.dst sel r t ht
  · rw [select h, l.each_setF_pair pair]
    exact l.w_each_setW i sel inside ht on
  · obtain ⟨m, hm⟩ := l.each_setF_frame i sel
    rw [select h, hm]
  · have once : laneCmp l i = l.once i (fun k => k.setS i.dst (l.p i.s1)) := by simp only [laneCmp, h]
    rw [once]
    exact l.s_once_setS i i.dst _ r
  · have once : laneCmp l i = l.once i (fun k => k.setP i.dst (l.s i.s1)) := by simp only [laneCmp, h]
    rw [once, Lx.once]
    by_cases idle : l.enabled i = 0
    · simp [idle]
    · simp [idle, l.p_setP i.dst _ r eight]

end Sys2Proof.Machine
end

section
/-! SUPPORT. Control, divergence, lane memory and cross-lane instructions (O47, O48). -/
namespace Sys2Proof.Machine
open Sys2Proof

-- Threads that wait for the kernel keep their stacks, and the check limits the memory of one text.
set_option Elab.async false

/-! ### Branches (R400) -/

/-- A branch that splits the active threads joins the pending entry on top, pushes two entries, or finds no room for them. -/
theorem laneBra_split (g : LaneGroup) (taken i target r : Nat) (some_ : g.active &&& taken ≠ 0) (notAll : g.active &&& taken ≠ g.active) :
    let t := g.active &&& taken
    let rest := g.active &&& (t ^^^ 0xFFFFFFFF)
    let next := (i + 1) % 2 ^ 22
    (∀ m m2 st, g.stack = (1, m, next) :: (0, m2, r) :: st →
        laneBra g taken i target r = some { g with stack := (1, m ||| rest, next) :: (0, m2, r) :: st, active := t, pc := target })
    ∧ ((∀ m m2 st, g.stack ≠ (1, m, next) :: (0, m2, r) :: st) →
        (g.stack.length ≤ 62 → laneBra g taken i target r = some { g with stack := (1, rest, next) :: (0, g.active, r) :: g.stack, active := t, pc := target })
        ∧ (62 < g.stack.length → laneBra g taken i target r = none)) := by
  intro t rest next
  have branch : laneBra g taken i target r = match g.stack with
      | (1, m, x) :: (0, m2, y) :: st =>
        if x = next ∧ y = r then some { g with stack := (1, m ||| rest, x) :: (0, m2, y) :: st, active := t, pc := target }
        else if g.stack.length + 2 > 64 then none
        else some { g with stack := (1, rest, next) :: (0, g.active, r) :: g.stack, active := t, pc := target }
      | st =>
        if st.length + 2 > 64 then none
        else some { g with stack := (1, rest, next) :: (0, g.active, r) :: st, active := t, pc := target } :=
    (if_neg notAll).trans (if_neg some_)
  refine ⟨fun m m2 st top => ?_, fun other => ?_⟩
  · rw [branch, top]
    exact if_pos ⟨rfl, rfl⟩
  · have pushes : laneBra g taken i target r = if g.stack.length + 2 > 64 then none
        else some { g with stack := (1, rest, next) :: (0, g.active, r) :: g.stack, active := t, pc := target } := by
      rw [branch]
      split
      next m x m2 y st top =>
        refine if_neg fun same => other m m2 st ?_
        rw [top, same.1, same.2]
      next => rfl
    rw [pushes]
    exact ⟨fun room => if_neg (by omega), fun full => if_pos (by omega)⟩

/-! ### The fetch step (R400) -/

/-- Whether a group stands at its reconvergence index. -/
def LaneGroup.home (g : LaneGroup) : Bool := match g.stack.find? (fun e => e.1 == 0) with | some e => e.2.2 == g.pc | none => false

theorem LaneGroup.home_of_empty {g : LaneGroup} (empty : g.stack = []) : g.home = false := by rw [home, empty]; rfl

theorem LaneGroup.away_of_not_home {g : LaneGroup} (h : ¬g.home = true) {e : Nat × Nat × Nat} (found : g.stack.find? (fun e => e.1 == 0) = some e) : e.2.2 ≠ g.pc := by
  simpa [home, found] using h

theorem laneFetch_succ (n : Nat) (g : LaneGroup) : laneFetch (n + 1) g = if g.active = 0 ∨ g.home = true then
    match g.stack with
    | [] => if g.active = 0 then (g, .exits) else (g, .goes)
    | e :: rest => laneFetch n { g with stack := rest, active := e.2.1 &&& (g.exited ^^^ 0xFFFFFFFF), pc := e.2.2 }
  else (g, .goes) := rfl

/-- With fuel above the depth of the stack the fetch step ends with threads active away from their reconvergence index, or with the group's exit. -/
theorem laneFetch_ends (n : Nat) (g : LaneGroup) (fuel : g.stack.length < n) :
    ((laneFetch n g).2 = .goes → (laneFetch n g).1.active ≠ 0 ∧ ∀ e, (laneFetch n g).1.stack.find? (fun e => e.1 == 0) = some e → e.2.2 ≠ (laneFetch n g).1.pc)
      ∧ ((laneFetch n g).2 = .exits → (laneFetch n g).1.active = 0 ∧ (laneFetch n g).1.stack = [])
      ∧ (laneFetch n g).2 ≠ .stops 1 ∧ (laneFetch n g).1.exited = g.exited ∧ (laneFetch n g).1.v = g.v ∧ (laneFetch n g).1.s = g.s := by
  induction n generalizing g with
  | zero => omega
  | succ n ih =>
    rw [laneFetch_succ]
    by_cases pops : g.active = 0 ∨ g.home = true
    · rw [if_pos pops]
      cases top : g.stack with
      | nil =>
        have idle : g.active = 0 := pops.resolve_right (by rw [LaneGroup.home_of_empty top]; decide)
        simp [idle, top]
      | cons e rest =>
        rw [top, List.length_cons] at fuel
        exact ih { g with stack := rest, active := e.2.1 &&& (g.exited ^^^ 0xFFFFFFFF), pc := e.2.2 } (Nat.lt_of_succ_lt_succ fuel)
    · rw [if_neg pops]
      obtain ⟨active, away⟩ := not_or.1 pops
      exact ⟨fun _ => ⟨active, fun e found => LaneGroup.away_of_not_home away found⟩, by simp, by simp, rfl, rfl, rfl⟩

/-- Settles O47: BRA by its cases, the others by their rows, and the fetch step by induction on its fuel. -/
theorem laneControl : Obligations.LaneControl := by
  unfold Obligations.LaneControl
  refine ⟨?_, fun g deep => laneFetch_ends 130 g (by omega)⟩
  intro l i control g target back next t rest becomes
  have bra (h : i.op = 0) : laneCtl l i = (laneBra g (l.p i.pred) g.pc target back).map (fun g => { l with g := g }) := by
    simp only [laneCtl, h]; rfl
  refine ⟨fun h all => ?_, fun h notAll none_ => ?_, fun h notAll some_ => ⟨fun m m2 st top => ?_, fun other => ⟨fun room => ?_, fun full => ?_⟩⟩,
    fun h => ?_, fun h => ?_, fun h => ?_, fun h => ?_, fun h => ?_, fun h => ?_⟩
  · have moves : laneBra g (l.p i.pred) g.pc target back = some { g with pc := target } := if_pos all
    exact (bra h).trans (by rw [moves]; rfl)
  · have falls : laneBra g (l.p i.pred) g.pc target back = some { g with pc := g.pc + 1 } := (if_neg notAll).trans (if_pos none_)
    exact (bra h).trans (by rw [falls]; rfl)
  · exact (bra h).trans (by rw [(laneBra_split g (l.p i.pred) g.pc target back some_ notAll).1 m m2 st top]; rfl)
  · exact (bra h).trans (by rw [((laneBra_split g (l.p i.pred) g.pc target back some_ notAll).2 other).1 room]; rfl)
  · have stops : laneCtl l i = none := (bra h).trans (by rw [((laneBra_split g (l.p i.pred) g.pc target back some_ notAll).2 other).2 full]; rfl)
    simp only [laneRunWord, control, if_true, stops]
  · show laneCtl l i = _
    simp only [laneCtl, h]
    rfl
  · show laneCtl l i = _
    simp only [laneCtl, h]
    rfl
  · show laneCtl l i = _
    simp only [laneCtl, h]
    rfl
  · show laneCtl l i = _
    simp only [laneCtl, h]
    rfl
  · have reads := l.s_once_setS i i.dst g.flags
    let k := l.once i (fun k => k.setS i.dst g.flags)
    have stepped : laneCtl l i = some { k with g := { k.g with pc := g.pc + 1 } } := by
      simp only [laneCtl, h]
      rfl
    exact ⟨_, stepped, rfl, reads⟩
  · show laneCtl l i = _
    simp only [laneCtl, h, Lx.once]
    by_cases idle : t = 0
    · rw [if_pos (show l.enabled i = 0 from idle), if_pos idle]
    · rw [if_neg (show ¬l.enabled i = 0 from idle), if_neg idle]

/-! ### Accesses outside the job's memory (R354, R394) -/

theorem Core.countAbove_frame (c : Core) (a n : Nat) : ∃ r, c.countAbove a n = { c with regs := r } := by
  refine List.foldlRecOn (motive := fun d : Core => ∃ r, d = { c with regs := r }) _ _ ⟨c.regs, rfl⟩ ?_
  rintro _ ⟨r, rfl⟩ i -
  split
  · exact ⟨_, rfl⟩
  · exact ⟨r, rfl⟩

/-- Counting accesses outside the job's memory changes registers alone. -/
theorem Lx.remote_frame (l : Lx) (as : List Nat) (n : Nat) : ∃ r, l.remote as n = { l with x := { l.x with c := { l.x.c with regs := r } } } := by
  unfold Lx.remote
  split
  · exact ⟨l.x.c.regs, rfl⟩
  · have counts : ∃ r, (as.filter (fun a => a / 2 ^ 48 == 0 || a / 2 ^ 48 == l.x.c.node)).foldl (fun d a => d.countAbove (a % 2 ^ 48) n)
        (l.x.c.inc (Reg.laneRemote l.run.quarter) as.length) = { l.x.c with regs := r } := by
      refine List.foldlRecOn (motive := fun d : Core => ∃ r, d = { l.x.c with regs := r }) _ _ ⟨_, rfl⟩ ?_
      rintro _ ⟨r, rfl⟩ a -
      exact Core.countAbove_frame _ _ _
    obtain ⟨r, hr⟩ := counts
    exact ⟨r, congrArg (fun c => { l with x := { l.x with c := c } }) hr⟩

/-- A store by threads that all point outside the job's memory writes nothing. -/
theorem laneStore_outside (l : Lx) (i : LWord) (erg : Bool) (plain : i.fmt ≠ 7)
    (outside : ∀ t ∈ l.threads i, l.mine (l.addr i erg false t / laneWidth i.fmt * laneWidth i.fmt) (laneWidth i.fmt) = false) :
    ∃ r, laneStore l i erg = { l with x := { l.x with c := { l.x.c with regs := r } } } := by
  have own : (l.threads i).filter (fun t => l.mine (l.addr i erg false t / laneWidth i.fmt * laneWidth i.fmt) (laneWidth i.fmt)) = [] :=
    List.filter_eq_nil_iff.2 fun t ht => by rw [outside t ht]; decide
  unfold laneStore
  rw [if_neg plain]
  simp only [own]
  exact Lx.remote_frame _ _ _

/-- A load there writes zero in each enabled thread. -/
theorem laneLoad_outside (l : Lx) (i : LWord) (erg : Bool) (plain : i.fmt ≠ 7)
    (outside : ∀ t ∈ l.threads i, l.mine (l.addr i erg false t / laneWidth i.fmt * laneWidth i.fmt) (laneWidth i.fmt) = false) :
    ∃ r, laneLoad l i erg = ({ l with x := { l.x with c := { l.x.c with regs := r } } } : Lx).each i (fun k t => k.setF i t 0) := by
  have own : (l.threads i).filter (fun t => l.mine (l.addr i erg false t / laneWidth i.fmt * laneWidth i.fmt) (laneWidth i.fmt)) = [] :=
    List.filter_eq_nil_iff.2 fun t ht => by rw [outside t ht]; decide
  unfold laneLoad
  rw [if_neg plain]
  simp only [own, List.contains_nil, Bool.false_eq_true, if_false]
  obtain ⟨r, hr⟩ := Lx.remote_frame l (((l.threads i).filter (fun t => !false)).map (fun t => l.addr i erg false t / laneWidth i.fmt * laneWidth i.fmt)) (laneWidth i.fmt)
  exact ⟨r, congrArg (fun k : Lx => k.each i (fun k t => k.setF i t 0)) hr⟩

/-! ### Cross-lane moves (R395) -/

/-- A sum of distinct powers of two holds the bits that were added. -/
theorem testBit_foldl_pow (on : Nat → Bool) (n j : Nat) :
    ((upto n).foldl (fun s u => if on u then s + 2 ^ u else s) 0).testBit j = (decide (j < n) && on j) := by
  have both : (upto n).foldl (fun s u => if on u then s + 2 ^ u else s) 0 < 2 ^ n
      ∧ ∀ j, ((upto n).foldl (fun s u => if on u then s + 2 ^ u else s) 0).testBit j = (decide (j < n) && on j) := by
    induction n with
    | zero => exact ⟨Nat.one_pos, fun j => by simp [upto]⟩
    | succ n ih =>
      obtain ⟨small, bits⟩ := ih
      rw [foldl_upto_succ]
      split
      · next h =>
        refine ⟨by rw [Nat.pow_succ]; omega, fun j => ?_⟩
        rw [testBit_add_two_pow small, bits]
        by_cases here : j = n
        · subst here; simp [h]
        · simp [here, show j < n + 1 ↔ j < n by omega]
      · next h =>
        refine ⟨Nat.lt_trans small (Nat.pow_lt_pow_right (by decide) (Nat.lt_succ_self n)), fun j => ?_⟩
        rw [bits]
        by_cases here : j = n
        · subst here; simp [h]
        · simp [show j < n + 1 ↔ j < n by omega]
  exact both.2 j

/-- Settles O48: a fold over no thread stores nothing, and each enabled thread writes its own. -/
theorem laneMemoryAndCross : Obligations.LaneMemoryAndCross := by
  unfold Obligations.LaneMemoryAndCross
  intro l i
  refine ⟨fun erg plain outside => ?_, fun h single r t ht => ?_, fun h single busy t ht => ?_, fun h inside t ht on => ?_, fun h eight t ht => ?_⟩
  · obtain ⟨r, stored⟩ := laneStore_outside l i erg plain outside
    obtain ⟨r', loaded⟩ := laneLoad_outside l i erg plain outside
    rw [stored, loaded]
    refine ⟨rfl, rfl, rfl, fun single t ht on => ?_, ?_⟩
    · rw [Lx.each_setF_single _ single, Lx.v_each_setV _ _ _ _ _ _ ht]
      exact if_pos ⟨on, rfl⟩
    · obtain ⟨m, hm⟩ := Lx.each_setF_frame { l with x := { l.x with c := { l.x.c with regs := r' } } } i (fun _ => 0)
      rw [hm]
  · have moves : laneCross l i = l.each i (fun k t => k.setF i t (l.v i.s1 (l.ib i t % 32))) := by
      simp only [laneCross, h, Lx.fsrc, if_neg single]
    rw [moves, l.each_setF_single single]
    exact l.v_each_setV i i.dst _ r t ht
  · have votes : laneCross l i = l.once i (fun k => k.setS i.dst ((upto 32).foldl (fun s u => if (l.enabled i).testBit u && l.v i.s1 u != 0 then s + 2 ^ u else s) 0)) := by
      simp only [laneCross, h, Lx.fsrc, if_neg single]
    rw [votes, l.s_once_setS, if_pos ⟨busy, rfl⟩, Nat.testBit_mod_two_pow, testBit_foldl_pow (fun u => (l.enabled i).testBit u && l.v i.s1 u != 0)]
    simp [ht]
  · have draws : laneDraws l i = l.each i (fun k t => k.setW i.dst t (pk l.run.key (i.imm * 2 ^ 48 + l.w i.s1 t % 2 ^ 48))) := by
      simp only [laneDraws, h]
    rw [draws]
    exact l.w_each_setW i _ inside ht on
  · have draws : laneDraws l i = l.each i (fun k t => k.setPbit i.dst t (decide (l.w i.s1 t / 2 ^ 32 < l.ib i t))) := by
      simp only [laneDraws, h]
    rw [draws]
    exact (l.p_each_setPbit i i.dst _ eight).1 t ht

end Sys2Proof.Machine
end

section
/-! SUPPORT. The PCIe link, interrupt messages and event watches (O24). -/
namespace Sys2Proof.Machine
open Sys2Proof

-- Threads that wait for the kernel keep their stacks, and the check limits the memory of one text.
set_option Elab.async false

/-! ### The rate and width that a link trains at (R672) -/

theorem foldl_max_bounds (l : List Nat) (a : Nat) : a ≤ l.foldl max a ∧ (∀ x ∈ l, x ≤ l.foldl max a) ∧ (l.foldl max a = a ∨ l.foldl max a ∈ l) := by
  induction l generalizing a with
  | nil => simp
  | cons y l ih =>
    obtain ⟨start, above, reached⟩ := ih (max a y)
    rw [List.foldl_cons]
    refine ⟨by omega, fun x hx => ?_, ?_⟩
    · obtain rfl | hx := List.mem_cons.1 hx
      · omega
      · exact above x hx
    · obtain same | within := reached
      · rw [same]
        by_cases h : a ≤ y
        · exact .inr (by rw [Nat.max_eq_right h]; exact List.mem_cons_self)
        · exact .inl (Nat.max_eq_left (by omega))
      · exact .inr (List.mem_cons_of_mem _ within)

/-- The greatest of the offered values among the device's own, and 1 where there is none. -/
theorem best_offer (offers own : List Nat) (known : Nat → Bool) (hown : ∀ x, known x = true ↔ x ∈ own) (positive : 0 ∉ own) :
    let m := (offers.filter known).foldl max 0
    let r := if m = 0 then 1 else m
    (∀ x ∈ offers, x ∈ own → x ≤ r) ∧ (r ∈ offers ∧ r ∈ own ∨ r = 1 ∧ ∀ x ∈ offers, x ∉ own) := by
  intro m r
  obtain ⟨-, above, reached⟩ := foldl_max_bounds (offers.filter known) 0
  have above' (x : Nat) (hx : x ∈ offers) (hxo : x ∈ own) : x ≤ m := above x (List.mem_filter.2 ⟨hx, (hown x).2 hxo⟩)
  by_cases none_ : m = 0
  · have hr : r = 1 := if_pos none_
    have no (x : Nat) (hx : x ∈ offers) : x ∉ own := fun hxo => by
      have : x = 0 := by have := above' x hx hxo; omega
      exact positive (this ▸ hxo)
    exact ⟨fun x hx hxo => absurd hxo (no x hx), .inr ⟨hr, no⟩⟩
  · have hr : r = m := if_neg none_
    obtain ⟨hm, hk⟩ := List.mem_filter.1 (reached.resolve_left none_)
    rw [hr]
    exact ⟨above', .inl ⟨hm, (hown m).1 hk⟩⟩

/-- The greatest rate code that a partner offers among the device's own; 0 where there is none (R672). -/
def offeredRate (p : PciePartner) : Nat := (p.rates.filter (fun x => x == 1 || x == 4 || x == 5 || x == 6)).foldl max 0
/-- The width of the same (R672). -/
def offeredWidth (p : PciePartner) : Nat := (p.widths.filter (fun x => x == 1 || x == 4 || x == 8)).foldl max 0

theorem linkRate_eq (p : PciePartner) : linkRate p =
    let r := if offeredRate p = 0 ∧ p.rates.any (fun x => x == 2 || x == 3) then 1 else offeredRate p
    let w := if offeredWidth p = 0 ∧ p.widths ≠ [] then 1 else offeredWidth p
    if r = 0 ∨ w = 0 then (0, 0) else (r, w) := rfl

/-- A partner that offers a rate and a width: the greatest of the device's own that it offers, or 1. -/
theorem linkRate_offered (p : PciePartner) (rates : ∃ x ∈ p.rates, x ∈ [1, 2, 3, 4, 5, 6]) (widths : p.widths ≠ []) :
    linkRate p = (if offeredRate p = 0 then 1 else offeredRate p, if offeredWidth p = 0 then 1 else offeredWidth p) := by
  have slow (none_ : offeredRate p = 0) : p.rates.any (fun x => x == 2 || x == 3) = true := by
    obtain ⟨x, hx, hx'⟩ := rates
    have above := (foldl_max_bounds (p.rates.filter (fun x => x == 1 || x == 4 || x == 5 || x == 6)) 0).2.1 x
    refine List.any_eq_true.2 ⟨x, hx, ?_⟩
    refine Decidable.byContradiction fun fast => ?_
    have own : (x == 1 || x == 4 || x == 5 || x == 6) = true := by
      simp only [List.mem_cons, List.not_mem_nil, or_false] at hx'
      simp only [Bool.or_eq_true, beq_iff_eq, not_or] at fast ⊢
      omega
    have : x ≤ offeredRate p := above (List.mem_filter.2 ⟨hx, own⟩)
    simp only [Bool.or_eq_true, beq_iff_eq] at own
    omega
  rw [linkRate_eq]
  by_cases hr : offeredRate p = 0 <;> by_cases hw : offeredWidth p = 0 <;> simp [hr, hw, widths, slow]

/-- Codes of rates and widths fit their fields. -/
theorem linkRate_small (p : PciePartner) : (linkRate p).1 < 8 ∧ (linkRate p).2 < 16 := by
  have rate : offeredRate p < 8 := by
    obtain h | h := (foldl_max_bounds (p.rates.filter (fun x => x == 1 || x == 4 || x == 5 || x == 6)) 0).2.2
    · rw [offeredRate, h]; decide
    · have := (List.mem_filter.1 h).2
      simp only [Bool.or_eq_true, beq_iff_eq] at this
      rw [offeredRate]; omega
  have width : offeredWidth p < 16 := by
    obtain h | h := (foldl_max_bounds (p.widths.filter (fun x => x == 1 || x == 4 || x == 8)) 0).2.2
    · rw [offeredWidth, h]; decide
    · have := (List.mem_filter.1 h).2
      simp only [Bool.or_eq_true, beq_iff_eq] at this
      rw [offeredWidth]; omega
  rw [linkRate_eq]
  dsimp only
  repeat' split
  all_goals constructor <;> dsimp only <;> omega

/-! ### Messages (R684, R686) -/

/-- What messages to the host change: what has been sent, and the pending bits of the vectors. -/
structure Messaged (s t : State) : Prop where
  only : ∃ regs wire, t = { s with core := { s.core with regs := regs, wire := wire } }
  kept : ∀ j, j < 0x2800 ∨ 0x2808 ≤ j → t.core.reg j = s.core.reg j

theorem Messaged.refl (s : State) : Messaged s s := ⟨⟨s.core.regs, s.core.wire, rfl⟩, fun _ _ => rfl⟩

theorem Messaged.trans {s t u : State} (h : Messaged s t) (h' : Messaged t u) : Messaged s u := by
  obtain ⟨⟨_, _, rfl⟩, kept⟩ := h
  obtain ⟨⟨r, w, rfl⟩, kept'⟩ := h'
  exact ⟨⟨r, w, rfl⟩, fun j hj => (kept' j hj).trans (kept j hj)⟩

theorem Messaged.fld {s t : State} (h : Messaged s t) {j : Nat} (hj : j < 0x2800) (lo w : Nat) : t.core.fld j lo w = s.core.fld j lo w := by
  rw [Core.fld, Core.fld, h.kept j (.inl hj)]

theorem Messaged.frame {s t : State} (h : Messaged s t) : t.host = s.host ∧ t.ctl = s.ctl ∧ t.mgmt = s.mgmt ∧ t.core.mem = s.core.mem := by
  obtain ⟨⟨_, _, rfl⟩, -⟩ := h
  exact ⟨rfl, rfl, rfl, rfl⟩

theorem Messaged.setPending (s : State) {v : Nat} (hv : v < 64) (b : Bool) : Messaged s (s.on (fun c => c.setBit (pbaKey v) (v % 32) b)) :=
  ⟨⟨_, s.core.wire, rfl⟩, fun j hj => Core.reg_setFld_ne _ _ _ _ (by unfold pbaKey; omega)⟩

theorem Messaged.sendVector (s : State) {v : Nat} (hv : v < 64) : Messaged s (s.sendVector v) := by
  unfold State.sendVector
  split
  · exact .refl s
  · split
    · exact .setPending s hv true
    · exact ⟨⟨s.core.regs, _, rfl⟩, fun _ _ => rfl⟩

theorem Messaged.deliverPending (s : State) : Messaged s s.deliverPending := by
  refine List.foldlRecOn (motive := fun t => Messaged s t) _ _ (.refl s) fun t sent v hv => ?_
  have small : v < 64 := List.mem_range.1 hv
  split
  · exact sent.trans ((Messaged.setPending t small false).trans (.sendVector _ small))
  · exact sent

/-! ### The link (R673, R693, R694) -/

/-- A trained link: its rate, width and flit mode stand in HOST_LINK, and a change raises LINK. -/
theorem Core.setLink_facts (c : Core) (p : PciePartner) :
    (c.setLink p).fld Reg.hostLink 0 3 = (linkRate p).1 ∧ (c.setLink p).fld Reg.hostLink 4 4 = (linkRate p).2
    ∧ (c.setLink p).fld Reg.hostLink 8 1 = (if (linkRate p).1 = 6 ∨ (linkRate p).1 ≠ 0 ∧ p.flit = true then 1 else 0)
    ∧ (c.fld Reg.hostLink 0 3 ≠ (linkRate p).1 ∨ c.fld Reg.hostLink 4 4 ≠ (linkRate p).2 → ((c.setLink p).reg 0x2010).testBit 0 = true)
    ∧ (c.setLink p).mem = c.mem := by
  obtain ⟨rate, width⟩ := linkRate_small p
  let flit := (linkRate p).1 == 6 || ((linkRate p).1 != 0 && p.flit)
  let c2 := ((((c.setFld Reg.hostLink 0 3 (linkRate p).1).setFld Reg.hostLink 4 4 (linkRate p).2).setBit Reg.hostLink 8 flit).setBit Reg.hostLink 9
    ((linkRate p).1 != 0 && p.reversed))
  let changed := c.fld Reg.hostLink 0 3 != (linkRate p).1 || c.fld Reg.hostLink 4 4 != (linkRate p).2
  have stands : c.setLink p = if changed then c2.raise 2 0 else c2 := rfl
  have field_ (lo w : Nat) : (c.setLink p).fld Reg.hostLink lo w = c2.fld Reg.hostLink lo w := by
    rw [stands]
    split
    · exact Core.fld_raise_ne _ _ _ (by decide)
    · rfl
  have mode : flit = decide ((linkRate p).1 = 6 ∨ (linkRate p).1 ≠ 0 ∧ p.flit = true) := by
    simp only [flit, Bool.decide_or, Bool.decide_and, Bool.decide_eq_true, decide_not]
    rfl
  refine ⟨?_, ?_, ?_, fun differs => ?_, ?_⟩
  · rw [field_]
    refine (Core.fld_setFld_other _ _ _ (by decide) (by decide)).trans ((Core.fld_setFld_other _ _ _ (by decide) (by decide)).trans
      ((Core.fld_setFld_other _ _ _ (by decide) (by decide)).trans ((Core.fld_setFld_eq _ _ _ (by decide)).trans (Nat.mod_eq_of_lt rate))))
  · rw [field_]
    exact (Core.fld_setFld_other _ _ _ (by decide) (by decide)).trans ((Core.fld_setFld_other _ _ _ (by decide) (by decide)).trans
      ((Core.fld_setFld_eq _ _ _ (by decide)).trans (Nat.mod_eq_of_lt width)))
  · rw [field_]
    refine (Core.fld_setFld_other _ _ _ (by decide) (by decide)).trans ((Core.fld_setFld_eq _ _ _ (by decide)).trans ?_)
    rw [mode]
    by_cases h : (linkRate p).1 = 6 ∨ (linkRate p).1 ≠ 0 ∧ p.flit = true <;> simp [h, b2n]
  · have raised : changed = true := by simpa [changed] using differs
    rw [stands, if_pos raised]
    exact Core.testBit_raise _ 2 (by decide) (by decide)
  · rw [stands]
    split <;> simp [c2]

/-! ### End of interrupt (R686) -/

/-- The message of a vector. -/
def Core.msixBody (c : Core) (v : Nat) : Body := .msix v (c.reg (msixKey v 0) + c.reg (msixKey v 1) * 2 ^ 32) (c.reg (msixKey v 2))

/-- Whether nothing masks messages. -/
structure State.Unmasked (s : State) : Prop where
  enabled : s.host.msixEn = true
  function : s.host.fmask = false
  master : s.host.bme = true
  vectors : ∀ v, v < 64 → s.core.fld (msixKey v 3) 0 1 = 0

theorem State.sendVector_unmasked {s : State} (h : s.Unmasked) {v : Nat} (hv : v < 64) :
    s.sendVector v = s.on (fun c => { c with wire := c.wire ++ [{ dst := 0, wadi := 0, body := s.core.msixBody v }] }) := by
  rw [State.sendVector, if_neg (by simp [h.enabled]), if_neg (by simp [h.function, h.master, h.vectors v hv])]
  simp only [State.on, Core.msixBody]

theorem State.Unmasked.wire {s : State} (h : s.Unmasked) (w : List Msg) : State.Unmasked { s with core := { s.core with wire := w } } :=
  ⟨h.enabled, h.function, h.master, h.vectors⟩

/-- The vectors that an end of interrupt names, of those whose condition is 1. -/
def Core.eoiVectors (c : Core) (hi : Bool) (vecs : Nat) (l : List Nat) : List Nat :=
  ((l.filter (fun i => vecs.testBit i)).map (fun i => i + if hi then 32 else 0)).filter (fun v => v ∈ c.conditions)

theorem Core.msixBody_wire (c : Core) (w : List Msg) : Core.msixBody { c with wire := w } = c.msixBody := (rfl)

theorem Core.eoiVectors_wire (c : Core) (w : List Msg) : Core.eoiVectors { c with wire := w } = c.eoiVectors := (rfl)

theorem State.eoi_fold {s : State} (h : s.Unmasked) (hi : Bool) (vecs : Nat) (l : List Nat) (small : ∀ i ∈ l, i < 32) :
    l.foldl (fun (t : State) i => let v := i + if hi then 32 else 0
      if vecs.testBit i ∧ t.core.conditions.contains v then t.sendVector v else t) s
    = s.on (fun c => { c with wire := c.wire ++ (s.core.eoiVectors hi vecs l).map (fun v => { dst := 0, wadi := 0, body := s.core.msixBody v }) }) := by
  induction l generalizing s with
  | nil => simp [Core.eoiVectors, State.on]
  | cons i l ih =>
    have hv : i + (if hi then 32 else 0) < 64 := by
      have := small i List.mem_cons_self
      split <;> omega
    have rest := fun j hj => small j (List.mem_cons_of_mem i hj)
    rw [List.foldl_cons]
    dsimp only
    by_cases sent : vecs.testBit i = true ∧ s.core.conditions.contains (i + if hi then 32 else 0) = true
    · have first : s.core.eoiVectors hi vecs (i :: l) = (i + if hi then 32 else 0) :: s.core.eoiVectors hi vecs l := by
        simp only [Core.eoiVectors, List.filter_cons_of_pos (show vecs.testBit i = true from sent.1), List.map_cons]
        exact List.filter_cons_of_pos (by simpa using sent.2)
      rw [if_pos sent, State.sendVector_unmasked h hv]
      refine (ih (h.wire _) rest).trans ?_
      rw [first, List.map_cons]
      simp only [State.on, Core.eoiVectors_wire, Core.msixBody_wire, List.append_assoc, List.singleton_append]
    · have none_ : s.core.eoiVectors hi vecs (i :: l) = s.core.eoiVectors hi vecs l := by
        simp only [Core.eoiVectors]
        by_cases named : vecs.testBit i = true
        · rw [List.filter_cons_of_pos named, List.map_cons]
          exact List.filter_cons_of_neg (by simpa [named] using sent)
        · rw [List.filter_cons_of_neg named]
      rw [if_neg sent, ih h rest, none_]

/-- Conditions look at no register of an end of interrupt. -/
theorem Core.conditions_congr {c d : Core} (key : Nat) (hkey : key = Reg.hostIrqEoiLo ∨ key = Reg.hostIrqEoiHi) (same : ∀ j, j ≠ key → d.reg j = c.reg j) :
    d.conditions = c.conditions := by
  simp only [Reg.hostIrqEoiLo, Reg.hostIrqEoiHi] at hkey
  have irq (p : Nat) : d.pageIrq p = c.pageIrq p := by
    rw [Core.pageIrq, same _ (by omega), same _ (by omega)]; rfl
  have route (p : Nat) : d.routeOf p = c.routeOf p := by
    rw [Core.routeOf, Core.fld, same _ (by simp only [bankKey, Reg.hostIrqRoute]; omega)]; rfl
  have status : d.reg Reg.hostWatchStatus = c.reg Reg.hostWatchStatus := same _ (by simp only [Reg.hostWatchStatus]; omega)
  have watch (n : Nat) : d.fld (bankKey n Reg.hostWatchCfg) 16 6 = c.fld (bankKey n Reg.hostWatchCfg) 16 6 := by
    rw [Core.fld, same _ (by simp only [bankKey, Reg.hostWatchCfg]; omega)]; rfl
  simp only [Core.conditions, funext irq, funext route, status, funext watch]

theorem names_eoi (high : Bool) : Names (if high then Reg.hostIrqEoiHi else Reg.hostIrqEoiLo) 2 0
    { blk := 0x02, off := if high then 0x05C else 0x058, w1s := 0xFFFFFFFF } := by
  cases high <;> exact ⟨by decide, by decide, by decide, by decide⟩

theorem State.eoi_frame (s : State) (hi : Bool) (vecs : Nat) : Messaged s (s.eoi hi vecs) := by
  refine List.foldlRecOn (motive := fun t => Messaged s t) _ _ (.refl s) fun t sent i hi' => ?_
  have small : i + (if hi then 32 else 0) < 64 := by
    have := List.mem_range.1 hi'
    split <;> omega
  dsimp only
  generalize i + (if hi then 32 else 0) = v at small ⊢
  split
  · exact sent.trans (.sendVector _ small)
  · exact sent

theorem State.devEffect_eoi (s : State) (high : Bool) (v old : Nat) : s.devEffect (if high then Reg.hostIrqEoiHi else Reg.hostIrqEoiLo) v old = s.eoi high v := by
  cases high <;> rfl

/-- A write of an end-of-interrupt register keeps no bit of it that is not there already, and sends the messages of its vectors. -/
theorem State.hostWord_eoi {s : State} (live : s.live = true) (high : Bool) {vecs : Nat} (hvecs : vecs < 2 ^ 32) :
    ∃ r, s.hostWord (if high then Reg.hostIrqEoiHi else Reg.hostIrqEoiLo) vecs = State.eoi { s with core := { s.core with regs := r } } high vecs
      ∧ ∀ j, j ≠ (if high then Reg.hostIrqEoiHi else Reg.hostIrqEoiLo) → ({ s.core with regs := r } : Core).reg j = s.core.reg j := by
  have key : s.core.regKey (if high then Reg.hostIrqEoiHi else Reg.hostIrqEoiLo) = if high then Reg.hostIrqEoiHi else Reg.hostIrqEoiLo := by cases high <;> rfl
  rw [State.hostWord_dev live (names_eoi high) (by cases high <;> decide) hvecs, State.writeFields_eq _ _ _ _ rfl, State.devEffect_eoi]
  refine ⟨_, rfl, fun j hj => ?_⟩
  exact Core.reg_setReg_ne _ _ _ _ (by rwa [key])

/-- Settles O24: the link's fields are written one after the other, and each end of interrupt sends the messages of its vectors in order. -/
theorem linkVectorsWatches : Obligations.LinkVectorsWatches := by
  unfold Obligations.LinkVectorsWatches
  refine ⟨fun p rates widths => ?_, fun s => ⟨fun p g awake => ⟨linkTrain s p g, rfl, ?_⟩, fun p awake trained => ?_, fun high vecs live hvecs => ⟨_, rfl, ?_⟩, fun n live armed holds => ?_⟩⟩
  · rw [linkRate_offered p rates widths]
    obtain ⟨r1, r2⟩ := best_offer p.rates [1, 4, 5, 6] (fun x => x == 1 || x == 4 || x == 5 || x == 6) (fun x => by simp [or_assoc]) (by decide)
    obtain ⟨w1, w2⟩ := best_offer p.widths [1, 4, 8] (fun x => x == 1 || x == 4 || x == 8) (fun x => by simp [or_assoc]) (by decide)
    exact ⟨r1, r2, w1, w2⟩
  · have trains : linkTrain s p g = State.deliverPending { s with core := s.core.setLink p, host := { s.host with bme := g.bme, mps := g.mps, mrrs := g.mrrs, msixEn := g.msixEn, fmask := g.fmask, bar2 := max 28 (min 39 g.bar2) } } :=
      if_neg (by simp [awake])
    obtain ⟨rate, width, flit, raised, mem⟩ := s.core.setLink_facts p
    rw [trains]
    have sent := Messaged.deliverPending { s with core := s.core.setLink p, host := { s.host with bme := g.bme, mps := g.mps, mrrs := g.mrrs, msixEn := g.msixEn, fmask := g.fmask, bar2 := max 28 (min 39 g.bar2) } }
    obtain ⟨host, ctl, mgmt, mem'⟩ := sent.frame
    refine ⟨host, (sent.fld (by decide) _ _).trans rate, (sent.fld (by decide) _ _).trans width, (sent.fld (by decide) _ _).trans flit, fun differs => ?_, ctl, mgmt, mem'.trans mem⟩
    rw [sent.kept 0x2010 (.inl (by decide))]
    exact raised differs
  · have gate : ¬(!s.awake || s.core.fld Reg.hostLink 0 3 == 0) = true := by simp [awake, trained]
    exact congrArg (fun t => Host.Outcome.next (finish s t)) (if_neg gate)
  · obtain ⟨r, effect, kept⟩ := State.hostWord_eoi live high hvecs
    rw [effect]
    obtain ⟨host, ctl, mgmt, -⟩ := State.eoi_frame { s with core := { s.core with regs := r } } high vecs |>.frame
    refine ⟨ctl, host, mgmt, fun enabled function master vectors => ?_⟩
    have apart (v w : Nat) : msixKey v w ≠ if high then Reg.hostIrqEoiHi else Reg.hostIrqEoiLo := by
      simp only [msixKey, Reg.hostIrqEoiHi, Reg.hostIrqEoiLo]; split <;> omega
    have unmasked : State.Unmasked { s with core := { s.core with regs := r } } :=
      ⟨enabled, function, master, fun v hv => by rw [Core.fld, kept _ (apart v 3)]; exact vectors v hv⟩
    have conditions := Core.conditions_congr (c := s.core) (d := { s.core with regs := r }) _ (by cases high <;> simp) kept
    have bodies : Core.msixBody { s.core with regs := r } = s.core.msixBody := by
      funext v
      simp only [Core.msixBody, kept _ (apart v _)]
    rw [State.eoi, State.eoi_fold unmasked high vecs (upto 32) fun i hi => List.mem_range.1 hi]
    show ((s.core.wire ++ _).drop s.core.wire.length).map _ = _
    rw [List.drop_left, List.map_map, Core.eoiVectors, conditions, bodies]
    rfl
  · have fires : s.core.fld (bankKey n Reg.hostWatchCfg) 31 1 = 1
        ∧ s.event (s.core.fld (bankKey n Reg.hostWatchCfg) 0 12) ≥ s.core.reg (bankKey n Reg.hostWatchThresh) := ⟨armed, holds⟩
    exact congrArg (fun t => Host.Outcome.next (finish s t)) ((if_pos live).trans (if_pos fires))

end Sys2Proof.Machine
end

section
/-! SUPPORT. Time messages (R46, R51, R552): what a port puts on the wire when it sends, and what a follower takes from its parent. -/
namespace Sys2Proof.Machine
open Sys2Proof

-- Threads that wait for the kernel keep their stacks, and the check limits the memory of one text.
set_option Elab.async false

theorem sum_of_zeros {l : List Nat} (h : ∀ n ∈ l, n = 0) : l.sum = 0 := by
  induction l with
  | nil => rfl
  | cons n l ih => rw [List.sum_cons, h n List.mem_cons_self, ih fun m hm => h m (List.mem_cons_of_mem n hm)]

/-! ### What a drained port adds to the wire -/

/-- From `c` to `d` more messages went on the wire, and memory and cluster time stayed. -/
structure Sends (c d : Core) : Prop where
  wire : ∃ rest, d.wire = c.wire ++ rest
  mem : d.mem = c.mem
  ct : d.ct = c.ct

theorem Sends.refl (c : Core) : Sends c c := ⟨⟨[], (List.append_nil _).symm⟩, rfl, rfl⟩

theorem Sends.trans {c d e : Core} (h : Sends c d) (k : Sends d e) : Sends c e := by
  obtain ⟨⟨r, hr⟩, hm, ht⟩ := h
  obtain ⟨⟨r', kr⟩, km, kt⟩ := k
  exact ⟨⟨r ++ r', by rw [kr, hr, List.append_assoc]⟩, km.trans hm, kt.trans ht⟩

theorem Sends.freeFlits (c : Core) (p k n : Nat) : Sends c (c.freeFlits p k n) := by
  unfold Core.freeFlits Core.grant
  split
  · exact ⟨⟨[], (List.append_nil _).symm⟩, rfl, rfl⟩
  · dsimp only
    split
    · exact ⟨⟨[], (List.append_nil _).symm⟩, rfl, rfl⟩
    · exact ⟨⟨_, rfl⟩, rfl, rfl⟩

theorem Sends.setReg (c : Core) (key v : Nat) : Sends c (c.setReg key v) := ⟨⟨[], (List.append_nil _).symm⟩, rfl, rfl⟩

theorem Sends.inc64 (c : Core) (lo n : Nat) : Sends c (c.inc64 lo n) := by
  rw [Core.inc64]; exact (Sends.setReg c _ _).trans (Sends.setReg _ _ _)

/-- A message goes on the wire. -/
def Core.onWire (c : Core) (m : Msg) : Core := { c with wire := c.wire ++ [m] }

theorem Sends.onWire (c : Core) (m : Msg) : Sends c (c.onWire m) := ⟨⟨[m], rfl⟩, rfl, rfl⟩

@[simp] theorem Core.setReg_wire (c : Core) (key v : Nat) : (c.setReg key v).wire = c.wire := (rfl)

theorem Core.inc64_wire (c : Core) (lo n : Nat) : (c.inc64 lo n).wire = c.wire := by simp [Core.inc64]

theorem Sends.sendFlit (c : Core) (p : Nat) : Sends c (c.sendFlit p) := by
  unfold Core.sendFlit
  dsimp only
  cases (c.port p).arbiter (c.jobState == 3) (c.portState p == 4) with
  | none => exact Sends.refl c
  | some e =>
    dsimp only
    generalize hx : ({ c.port p with credits := _, txSeq := _, replay := _, served := _, entries := _ } : PortSt) = x
    have moved : Sends c (c.setPort p fun _ => x) := ⟨⟨[], (List.append_nil _).symm⟩, rfl, rfl⟩
    have freed : Sends c (match e.entry with | some (r, n) => if n = 0 then c.setPort p (fun _ => x) else (c.setPort p fun _ => x).freeFlits r (e.msg.wadi * 2 + e.cls) 1
                                             | none => c.setPort p fun _ => x) := by
      split
      · split
        · exact moved
        · exact moved.trans (Sends.freeFlits ..)
      · exact moved
    split
    · exact freed
    · exact (freed.trans (Sends.onWire _ _)).trans (Sends.inc64 _ _ _)

theorem Sends.iter (p n : Nat) (c : Core) : Sends c (iter (fun d => d.sendFlit p) n c) := by
  induction n generalizing c with
  | zero => exact Sends.refl c
  | succ n ih => exact (Sends.sendFlit c p).trans (ih _)

theorem foldl_unsent (l : List TxEntry) (n : Nat) : l.foldl (fun n e => n + e.unsent) n = n + (l.map (·.unsent)).sum := by
  induction l generalizing n with
  | nil => rfl
  | cons e l ih => simp [ih, Nat.add_assoc]

/-! ### A time message leaves -/

theorem Core.port_setPort (c : Core) {p : Nat} (f : PortSt → PortSt) (h : p < c.seif.ports.length) : (c.setPort p f).port p = f (c.port p) := by
  rw [Core.port, Core.setPort, nth_setNth_eq]
  exact h

/-- The packet that has its wadi's turn leaves in one flit. -/
theorem Core.sendFlit_single (c : Core) (p : Nat) {e : TxEntry} (turn : (c.port p).arbiter (c.jobState == 3) (c.portState p == 4) = some e) (single : e.unsent = 1)
    (own : e.entry = none) : (c.sendFlit p).wire = c.wire ++ [{ e.msg with port := some p, loop := c.looped p }] := by
  unfold Core.sendFlit
  dsimp only
  rw [turn]
  dsimp only
  rw [own, if_neg (by simp [single]), Core.inc64_wire]
  rfl

/-- A packet of one flit on wadi 1 that finds no other flit of its wadi, a credit and room leaves at once, before all else that waits at its port. -/
theorem Core.enqueue_first (c : Core) {p : Nat} (m : Msg) (bytes : Nat) (trained : c.trained p = true) (named : c.node ≠ 0xFFFF) (inside : p < c.seif.ports.length)
    (credit : sget 0 (c.port p).credits 2 ≠ 0) (room : (c.port p).replay.length < 2048) (idle : ∀ e ∈ (c.port p).entries, e.msg.wadi = 1 → e.unsent = 0)
    (wadi : m.wadi = 1) :
    ∃ rest, (c.enqueue p m 0 1 bytes none).wire = c.wire ++ { numbered m (sget 0 c.seif.hopTx (portGroup (c.portRole p) * 16 + 1)) with port := some p, loop := c.looped p } :: rest
      ∧ ((∀ e ∈ (c.port p).entries, e.unsent = 0) → rest = []) ∧ (c.enqueue p m 0 1 bytes none).mem = c.mem ∧ (c.enqueue p m 0 1 bytes none).ct = c.ct := by
  unfold Core.enqueue
  dsimp only
  rw [wadi]
  generalize hd : Core.setPort { c with seif := { c.seif with hopTx := _ } } p _ = d
  generalize hh : sget 0 c.seif.hopTx (portGroup (c.portRole p) * 16 + 1) = h at hd ⊢
  have port : d.port p = { c.port p with entries := (c.port p).entries ++ [{ id := (c.port p).nextId, msg := numbered m h, cls := 0, flits := 1, unsent := 1, entry := none, bytes := bytes }], nextId := (c.port p).nextId + 1 } := by
    rw [← hd]; exact Core.port_setPort _ _ inside
  have first : (d.port p).arbiter (d.jobState == 3) (d.portState p == 4)
      = some { id := (c.port p).nextId, msg := numbered m h, cls := 0, flits := 1, unsent := 1, entry := none, bytes := bytes } := by
    have none : (c.port p).entries.find? (fun e => e.msg.wadi == 1 && e.unsent != 0 && (!(d.jobState == 3) || fencedSends e.msg)) = none := by
      rw [List.find?_eq_none]
      intro e he
      by_cases w : e.msg.wadi = 1
      · simp [idle e he w]
      · simp [w]
    have sends : fencedSends (numbered m h) = true := by
      unfold fencedSends
      split
      · rfl
      · simp [numbered, wadi]
    unfold PortSt.arbiter PortSt.nextOf
    rw [port]
    dsimp only
    rw [List.find?_append, none, Option.none_or, List.find?_singleton, if_pos (by rw [sends]; simp [numbered, wadi])]
    dsimp only
    rw [numbered, wadi, if_pos ⟨credit, room⟩]
  have wire : (d.sendFlit p).wire = c.wire ++ [{ numbered m h with port := some p, loop := c.looped p }] := by
    rw [d.sendFlit_single p first rfl rfl, ← hd]
    rfl
  have count : (d.port p).entries.foldl (fun n e => n + e.unsent) 0 = ((c.port p).entries.map (·.unsent)).sum + 1 := by
    rw [foldl_unsent, port]; simp
  have trained' : d.trained p = true := by rw [← hd]; exact trained
  have named' : d.node ≠ 0xFFFF := by rw [← hd]; exact named
  rw [Core.drainPort, if_pos ⟨trained', named'⟩, count, iter]
  have one := Sends.sendFlit d p
  have later := Sends.iter p ((c.port p).entries.map (·.unsent)).sum (d.sendFlit p)
  obtain ⟨rest, more⟩ := later.wire
  refine ⟨rest, by rw [more, wire, List.append_assoc]; rfl, fun alone => ?_, ?_, ?_⟩
  · have : ((c.port p).entries.map (·.unsent)).sum = 0 := sum_of_zeros fun n hn => by
      obtain ⟨e, he, rfl⟩ := List.mem_map.1 hn
      exact alone e he
    rw [this, iter] at more
    exact List.append_right_eq_self.1 more.symm
  · rw [later.mem, one.mem, ← hd]; rfl
  · rw [later.ct, one.ct, ← hd]; rfl

/-- The time message that a device sends. -/
def State.timeMsg (s : State) : TimeMsg := TimeMsg.mk s.core.ct s.core.sync (s.core.fld Reg.ctState 16 8) s.rootSeen.1 s.rootSeen.2

/-- Nothing lets a time message leave before its port has trained. -/
theorem timeSend_untrained {s : State} {p : Nat} (untrained : s.core.trained p = false) : timeSend s p = s := by simp [timeSend, untrained]

theorem timeSend_unnamed {s : State} (p : Nat) (unnamed : s.core.node = 0xFFFF) : timeSend s p = s := by simp [timeSend, unnamed]

theorem timeSend_early {s : State} {p : Nat} (sent : (s.core.port p).timeSent ≠ 0) (early : s.core.up < (s.core.port p).timeSent + 1000) : timeSend s p = s := by
  simp [timeSend, sent, early]

/-- The core that a time message leaves from: a free value taken, and the time of sending noted. -/
def Core.timed (c : Core) (p : Nat) : Core := c.fresh.1.setPort p (fun x => { x with timeSent := c.up })

theorem Core.port_timed (c : Core) {p : Nat} (inside : p < c.seif.ports.length) : (c.timed p).port p = { c.port p with timeSent := c.up } := Core.port_setPort _ _ inside

theorem timeSend_ready {s : State} {p : Nat} (trained : s.core.trained p = true) (ready : (s.core.port p).timeSent = 0 ∨ (s.core.port p).timeSent + 1000 ≤ s.core.up)
    (named : s.core.node ≠ 0xFFFF) (credit : sget 0 (s.core.port p).credits 2 ≠ 0) (room : (s.core.port p).replay.length < 2048)
    (idle : ∀ e ∈ (s.core.port p).entries, e.msg.wadi = 1 → e.unsent = 0) :
    timeSend s p = s.on fun c => (c.timed p).enqueue p { dst := c.fld (portKey p Reg.seifPeer) 0 16, wadi := 1, body := .timeMessage s.timeMsg } 0 1 (32 + 64 * (c.fresh.2 % 2)) none := by
  have quiet : (s.core.port p).entries.any (fun e => e.msg.wadi == 1 && e.unsent != 0) = false := by
    rw [List.any_eq_false]
    intro e he
    by_cases w : e.msg.wadi = 1
    · simp [idle e he w]
    · simp [w]
  have late : ((s.core.port p).timeSent != 0 && decide (s.core.up < (s.core.port p).timeSent + 1000)) = false := by
    simp only [Bool.and_eq_false_imp, bne_iff_ne, decide_eq_false_iff_not]
    omega
  have node : (s.core.node == 0xFFFF) = false := beq_false_of_ne named
  have has : (sget 0 (s.core.port p).credits 2 != 0) = true := bne_iff_ne.2 credit
  unfold timeSend
  dsimp only
  rw [if_neg (by rw [quiet, late, node, has, trained, decide_eq_true room]; decide)]
  rfl

theorem timeSend_sends {s : State} {p : Nat} (trained : s.core.trained p = true) (ready : (s.core.port p).timeSent = 0 ∨ (s.core.port p).timeSent + 1000 ≤ s.core.up)
    (named : s.core.node ≠ 0xFFFF) (inside : p < s.core.seif.ports.length) (credit : sget 0 (s.core.port p).credits 2 ≠ 0) (room : (s.core.port p).replay.length < 2048)
    (idle : ∀ e ∈ (s.core.port p).entries, e.msg.wadi = 1 → e.unsent = 0) :
    ∃ rest, (timeSend s p).core.wire = s.core.wire ++ { dst := s.core.fld (portKey p Reg.seifPeer) 0 16, wadi := 1, port := some p, loop := s.core.looped p, hopseq := some (sget 0 s.core.seif.hopTx (portGroup (s.core.portRole p) * 16 + 1)), body := .timeMessage s.timeMsg } :: rest
      ∧ ((∀ e ∈ (s.core.port p).entries, e.unsent = 0) → rest = []) ∧ (timeSend s p).core.mem = s.core.mem ∧ (timeSend s p).core.ct = s.core.ct := by
  rw [timeSend_ready trained ready named credit room idle]
  have port := s.core.port_timed inside
  exact Core.enqueue_first (s.core.timed p) { dst := s.core.fld (portKey p Reg.seifPeer) 0 16, wadi := 1, body := .timeMessage s.timeMsg } _ trained named
    (by rw [Core.timed, Core.setPort, length_setNth]; exact inside) (by rw [port]; exact credit) (by rw [port]; exact room) (by rw [port]; exact idle) rfl |>.imp fun rest h => by
      obtain ⟨wire, alone, mem, ct⟩ := h
      rw [port] at alone
      exact ⟨wire, alone, mem, ct⟩

end Sys2Proof.Machine
end

section
/-! SUPPORT. What a follower takes from a time message of its parent (R47, R50 to R52). -/
namespace Sys2Proof.Machine
open Sys2Proof

-- Threads that wait for the kernel keep their stacks, and the check limits the memory of one text.
set_option Elab.async false

/-- From `s` to `t` only the clock and what steers it changed: registers, memory, the strands, and what the device knows of its parent stay. -/
structure Steered (s t : State) : Prop where
  regs : t.core.regs = s.core.regs
  mem : t.core.mem = s.core.mem
  ctl : t.ctl = s.ctl
  following : t.sync.following = s.sync.following
  parentAt : t.sync.parentAt = s.sync.parentAt
  heard : t.sync.heard = s.sync.heard

theorem Steered.trans {s t u : State} (h : Steered s t) (k : Steered t u) : Steered s u :=
  ⟨k.regs.trans h.regs, k.mem.trans h.mem, k.ctl.trans h.ctl, k.following.trans h.following, k.parentAt.trans h.parentAt, k.heard.trans h.heard⟩

theorem Steered.setTime (s : State) (v : Nat) : Steered s (s.setTime v) := by
  unfold State.setTime
  split <;> exact ⟨rfl, rfl, rfl, rfl, rfl, rfl⟩

theorem Steered.followFreq (s : State) (offset : Int) : Steered s (s.followFreq offset) := by
  unfold State.followFreq
  dsimp only
  split
  · split <;> exact ⟨rfl, rfl, rfl, rfl, rfl, rfl⟩
  · exact ⟨rfl, rfl, rfl, rfl, rfl, rfl⟩

theorem Steered.correct (s : State) (offset : Int) : Steered s (s.correct offset) := by
  unfold State.correct
  split
  · exact ⟨rfl, rfl, rfl, rfl, rfl, rfl⟩
  · split
    · exact (Steered.setTime s _).trans ⟨rfl, rfl, rfl, rfl, rfl, rfl⟩
    · exact ⟨rfl, rfl, rfl, rfl, rfl, rfl⟩

theorem Steered.fld {s t : State} (h : Steered s t) (key lo w : Nat) : t.core.fld key lo w = s.core.fld key lo w := by
  rw [Core.fld, Core.fld, Core.reg, Core.reg, h.regs]

/-! ### The sync state -/

/-- From `c` to `d` the sync state is `v`, and besides it only interrupts of the time page changed. -/
structure Resynced (v : Nat) (c d : Core) : Prop where
  sync : d.sync = v
  flds : ∀ lo w, 2 ≤ lo → lo + w ≤ 32 → d.fld Reg.ctState lo w = c.fld Reg.ctState lo w
  regs : ∀ key, key ≠ Reg.ctState → key ≠ 0x4010 → d.reg key = c.reg key
  mem : d.mem = c.mem

theorem Resynced.raise {v : Nat} {c d : Core} (h : Resynced v c d) (i : Nat) (q : Prop) [Decidable q] : Resynced v c (if q then d.raise 4 i else d) := by
  split
  · exact ⟨(d.fld_raise_ne 0 2 (by decide)).trans h.sync, fun lo w le le' => (d.fld_raise_ne lo w (by decide)).trans (h.flds lo w le le'),
      fun key ne ne' => (d.reg_raise_ne ne').trans (h.regs key ne ne'), (d.raise_mem 4 i).trans h.mem⟩
  · exact h

theorem Resynced.setSync (c : Core) (v : Nat) : Resynced (v % 4) c (c.setSync v) :=
  ((⟨c.fld_setFld_eq _ _ (by decide), fun _ _ h h' => c.fld_setFld_other _ _ h' (Or.inr h), fun _ h _ => c.reg_setFld_ne _ _ _ h, c.setFld_mem _ _ _ _⟩ :
    Resynced (v % 4) c (c.setFld Reg.ctState 0 2 v)).raise 0 _).raise 1 _

/-! ### A message arrives -/

/-- The message is kept, with the time of its arrival. -/
def State.hears (s : State) (p : Nat) (m : TimeMsg) : State := s.onSync (fun y => { y with heard := sput y.heard p (m, s.core.up) })

/-- What a follower's core takes from its parent's message: the offset, the hop count, and ACQUIRE where it was in UNSYNC or HOLDOVER. -/
def Core.fromParent (c : Core) (m : TimeMsg) (offset : Int) : Core :=
  let c1 := (c.setReg Reg.ctOffset (ofSigned 32 offset)).setFld Reg.ctState 16 8 (min 0xFF (m.hops + 1))
  if c1.sync = 0 ∨ c1.sync = 3 then c1.setSync 1 else c1

/-- What a follower takes from its parent's message at time `up`, before it corrects its own time. -/
def State.fromParent (s : State) (up : Nat) (m : TimeMsg) (offset : Int) : State :=
  (s.on (fun c => c.fromParent m offset)).onSync (fun y => { y with parentAt := up, rootAt := if m.sync = 2 then up else y.rootAt, rootSeen := y.rootSeen || m.sync == 2, good := if offset.natAbs ≤ 1000 then y.good + 1 else 0 })

/-- At the 16th good message of a LOCKED parent a follower is LOCKED. -/
def State.lockOn (s : State) (m : TimeMsg) : State := if s.core.sync = 1 ∧ s.sync.good ≥ 16 ∧ m.sync = 2 then s.on (fun c => c.setSync 2) else s

theorem State.lockOn_cases (s : State) (m : TimeMsg) : s.lockOn m = s ∨ s.lockOn m = s.on (fun c => c.setSync 2) := by
  unfold State.lockOn
  split
  · exact Or.inr rfl
  · exact Or.inl rfl

theorem timeReceive_untrained {s : State} {p : Nat} (untrained : s.core.trained p = false) (m : TimeMsg) (offset : Int) : timeReceive s p m offset = s := by
  simp [timeReceive, untrained]

theorem timeReceive_root {s : State} {p : Nat} (trained : s.core.trained p = true) {m : TimeMsg} (offset : Int) (h : s.core.isRoot = true ∨ m.hops = 0xFF) :
    timeReceive s p m offset = s.hears p m := by
  rw [timeReceive, if_neg (by simp [trained])]
  exact if_pos (by obtain h | h := h <;> simp [State.onSync, h])

/-- The parent that a follower has after it heard a message. -/
def State.chooses (s : State) : State := match s.bestParent with | some q => s.follow (some q) | none => s

/-- A message to a device that is not its own root: the choice of its parent and, where the sender is its parent, the correction. -/
theorem timeReceive_follower {s : State} {p : Nat} (trained : s.core.trained p = true) {m : TimeMsg} (offset : Int) (follower : s.core.isRoot = false) (ranked : m.hops ≠ 0xFF) :
    timeReceive s p m offset = if !(s.hears p m).chooses.sync.following || (s.hears p m).chooses.core.fld Reg.ctState 4 5 != p then (s.hears p m).chooses
      else ((((s.hears p m).chooses.fromParent s.core.up m offset).lockOn m).followFreq offset).correct offset := by
  have root : ((s.hears p m).core.isRoot || m.hops == 0xFF) = false := by rw [beq_false_of_ne ranked]; simpa [State.hears, State.onSync] using follower
  rw [timeReceive, if_neg (by simp [trained])]
  exact if_neg (by rw [← State.hears, root]; decide)

/-- What the choice of a parent leaves: the port, in force. -/
theorem State.follow_facts (s : State) {p : Nat} (h : p < 32) : (s.follow (some p)).sync.following = true ∧ (s.follow (some p)).core.fld Reg.ctState 4 5 = p
    ∧ (s.follow (some p)).core.up = s.core.up ∧ (s.follow (some p)).core.mem = s.core.mem ∧ (s.follow (some p)).ctl = s.ctl ∧ (s.follow (some p)).sync.heard = s.sync.heard := by
  unfold State.follow
  dsimp only
  split
  · next kept => simp only [Bool.and_eq_true, beq_iff_eq] at kept; exact ⟨kept.1, kept.2, rfl, rfl, rfl, rfl⟩
  · refine ⟨rfl, ?_, rfl, rfl, rfl, rfl⟩
    exact (s.core.fld_setFld_eq _ _ (by decide)).trans (Nat.mod_eq_of_lt h)

theorem Core.fromParent_facts (c : Core) {m : TimeMsg} (offset : Int) : (c.fromParent m offset).reg Reg.ctOffset = ofSigned 32 offset % 2 ^ 32
    ∧ (c.fromParent m offset).fld Reg.ctState 16 8 = min 0xFF (m.hops + 1) ∧ (c.fromParent m offset).sync ≠ 0 ∧ (c.fromParent m offset).sync ≠ 3 ∧ (c.fromParent m offset).mem = c.mem := by
  have reg : ((c.setReg Reg.ctOffset (ofSigned 32 offset)).setFld Reg.ctState 16 8 (min 0xFF (m.hops + 1))).reg Reg.ctOffset = ofSigned 32 offset % 2 ^ 32 := by
    rw [Core.reg_setFld_ne _ _ _ _ (by decide), Core.reg_setReg_eq]
  have hops : ((c.setReg Reg.ctOffset (ofSigned 32 offset)).setFld Reg.ctState 16 8 (min 0xFF (m.hops + 1))).fld Reg.ctState 16 8 = min 0xFF (m.hops + 1) := by
    rw [Core.fld_setFld_eq _ _ _ (by decide)]; omega
  have mem : ((c.setReg Reg.ctOffset (ofSigned 32 offset)).setFld Reg.ctState 16 8 (min 0xFF (m.hops + 1))).mem = c.mem := by simp
  unfold Core.fromParent
  dsimp only
  generalize (c.setReg Reg.ctOffset (ofSigned 32 offset)).setFld Reg.ctState 16 8 (min 0xFF (m.hops + 1)) = d at *
  split
  · have set := Resynced.setSync d 1
    exact ⟨(set.regs _ (by decide) (by decide)).trans reg, (set.flds 16 8 (by decide) (by decide)).trans hops, by rw [set.sync]; decide, by rw [set.sync]; decide, set.mem.trans mem⟩
  · next settled => exact ⟨reg, hops, fun h => settled (Or.inl h), fun h => settled (Or.inr h), mem⟩

theorem State.lockOn_fromParent_facts (s : State) (up : Nat) (m : TimeMsg) (offset : Int) :
    ((s.fromParent up m offset).lockOn m).core.reg Reg.ctOffset = ofSigned 32 offset % 2 ^ 32 ∧ ((s.fromParent up m offset).lockOn m).core.fld Reg.ctState 16 8 = min 0xFF (m.hops + 1)
    ∧ ((s.fromParent up m offset).lockOn m).core.sync ≠ 0 ∧ ((s.fromParent up m offset).lockOn m).core.sync ≠ 3 := by
  obtain ⟨reg, hops, zero, three, _⟩ := s.core.fromParent_facts (m := m) offset
  obtain h | h := (s.fromParent up m offset).lockOn_cases m
  · rw [h]; exact ⟨reg, hops, zero, three⟩
  · have set := Resynced.setSync (s.core.fromParent m offset) 2
    rw [h]
    refine ⟨(set.regs _ (by decide) (by decide)).trans reg, (set.flds 16 8 (by decide) (by decide)).trans hops, ?_, ?_⟩
    · exact set.sync ▸ (by decide)
    · exact set.sync ▸ (by decide)

/-- A message leaves the strands and memory, and is heard. -/
structure Hears (s t : State) : Prop where
  mem : t.core.mem = s.core.mem
  ctl : t.ctl = s.ctl
  heard : t.sync.heard = s.sync.heard

theorem Hears.trans {s t u : State} (h : Hears s t) (k : Hears t u) : Hears s u := ⟨k.mem.trans h.mem, k.ctl.trans h.ctl, k.heard.trans h.heard⟩

theorem Steered.hears {s t : State} (h : Steered s t) : Hears s t := ⟨h.mem, h.ctl, h.heard⟩

theorem Hears.chooses (s : State) : Hears s s.chooses := by
  unfold State.chooses State.follow
  split
  · dsimp only
    split <;> exact ⟨rfl, rfl, rfl⟩
  · exact ⟨rfl, rfl, rfl⟩

theorem Hears.lockOn (s : State) (m : TimeMsg) : Hears s (s.lockOn m) := by
  obtain h | h := s.lockOn_cases m
  · rw [h]; exact ⟨rfl, rfl, rfl⟩
  · rw [h]; exact ⟨(Resynced.setSync s.core 2).mem, rfl, rfl⟩

theorem Hears.fromParent (s : State) (up : Nat) (m : TimeMsg) (offset : Int) : Hears s (s.fromParent up m offset) :=
  ⟨(s.core.fromParent_facts (m := m) offset).2.2.2.2, rfl, rfl⟩

theorem Hears.timeReceive {s : State} {p : Nat} (trained : s.core.trained p = true) (m : TimeMsg) (offset : Int) : Hears (s.hears p m) (timeReceive s p m offset) := by
  by_cases done : s.core.isRoot = true ∨ m.hops = 0xFF
  · rw [timeReceive_root trained offset done]; exact ⟨rfl, rfl, rfl⟩
  · obtain ⟨follower, ranked⟩ := not_or.1 done
    rw [timeReceive_follower trained offset (Bool.eq_false_iff.2 follower) ranked]
    split
    · exact Hears.chooses _
    · exact ((((Hears.chooses _).trans (Hears.fromParent _ _ _ _)).trans (Hears.lockOn _ _)).trans (Steered.followFreq _ _).hears).trans (Steered.correct _ _).hears

/-- A follower of a fixed parent takes the time of that parent's message. -/
theorem timeReceive_parent {s : State} {p : Nat} (trained : s.core.trained p = true) {m : TimeMsg} (offset : Int) (follower : s.core.isRoot = false) (ranked : m.hops < 0xFF)
    (fixed : s.core.fld Reg.ctCfg 3 1 = 0) (parent : s.core.fld Reg.ctCfg 4 5 = p) :
    (timeReceive s p m offset).core.reg Reg.ctOffset = ofSigned 32 offset % 2 ^ 32 ∧ (timeReceive s p m offset).core.fld Reg.ctState 16 8 = m.hops + 1
    ∧ (timeReceive s p m offset).sync.parentAt = s.core.up ∧ (timeReceive s p m offset).core.sync ≠ 0 ∧ (timeReceive s p m offset).core.sync ≠ 3
    ∧ (timeReceive s p m offset).sync.following = true := by
  have chosen : (s.hears p m).chooses = (s.hears p m).follow (some p) := by
    have : (s.hears p m).bestParent = some p := by
      rw [State.bestParent, if_neg (by rw [show (s.hears p m).core = s.core from rfl, fixed]; decide)]
      exact congrArg some parent
    rw [State.chooses, this]
  obtain ⟨following, port, _⟩ := (s.hears p m).follow_facts (p := p) (parent ▸ Nat.mod_lt _ (by decide))
  rw [timeReceive_follower trained offset follower (by omega), chosen, if_neg (by rw [following, port]; simp)]
  generalize (s.hears p m).follow (some p) = s2 at *
  obtain ⟨reg, hops, zero, three⟩ := s2.lockOn_fromParent_facts s.core.up m offset
  have kept : ((s2.fromParent s.core.up m offset).lockOn m).sync = (s2.fromParent s.core.up m offset).sync := by
    obtain h | h := (s2.fromParent s.core.up m offset).lockOn_cases m
    · rw [h]
    · rw [h]; rfl
  generalize (s2.fromParent s.core.up m offset).lockOn m = s4 at *
  have steered := (Steered.followFreq s4 offset).trans (Steered.correct _ offset)
  refine ⟨?_, (steered.fld _ _ _).trans (hops.trans (by omega)), ?_, ?_, ?_, ?_⟩
  · rw [Core.reg, steered.regs]; exact reg
  · rw [steered.parentAt, kept]; rfl
  · exact fun h => zero ((steered.fld _ 0 2).symm.trans h)
  · exact fun h => three ((steered.fld _ 0 2).symm.trans h)
  · rw [steered.following, kept]; exact following

/-- Settles O25: a message that may leave finds its credit and its turn on the port, and a follower takes the one of its parent. -/
theorem timeMessages : Obligations.TimeMessages := by
  intro s p live
  have send : exec (.timeMessageSend p) s = .next (finish s (timeSend s p)) := congrArg (fun t => Host.Outcome.next (finish s t)) (if_pos live)
  have receive (m : TimeMsg) (offset : Int) : exec (.timeMessageReceive p m offset) s = .next (finish s (timeReceive s p m offset)) :=
    congrArg (fun t => Host.Outcome.next (finish s t)) (if_pos live)
  refine ⟨fun untrained => ⟨by rw [send, timeSend_untrained untrained], fun m offset => by rw [receive, timeReceive_untrained untrained]⟩,
    fun unnamed => by rw [send, timeSend_unnamed p unnamed], fun trained => ?_⟩
  intro x sent hop
  refine ⟨fun before early => by rw [send, timeSend_early before early], fun ready named inside credit room idle => ?_, fun m offset => ?_⟩
  · obtain ⟨rest, wire, alone, mem, ct⟩ := timeSend_sends trained ready named inside credit room idle
    refine ⟨_, rest, send, wire, alone, mem, ct, ?_, ?_⟩
    · rw [timeSend_ready trained ready named credit room idle]; rfl
    · rw [timeSend_ready trained ready named credit room idle]; rfl
  · have frame := Hears.timeReceive trained m offset
    refine ⟨_, receive m offset, ?_, frame.ctl, frame.mem, timeReceive_root trained offset, fun follower ranked fixed parent => timeReceive_parent trained offset follower ranked fixed parent⟩
    rw [frame.heard]
    exact sfind_sput_eq ..

end Sys2Proof.Machine
end

section
/-! SUPPORT. The order of timed events (R57, R60), the descriptors that only steer their strand (R79, R80), and event counters (R73, R74, R89). -/
namespace Sys2Proof.Machine
open Sys2Proof

-- Threads that wait for the kernel keep their stacks, and the check limits the memory of one text.
set_option Elab.async false

/-! ### Sorted lists -/

theorem mem_insBy {α : Type} (le : α → α → Bool) (x y : α) (l : List α) : y ∈ insBy le x l ↔ y = x ∨ y ∈ l := by
  induction l with
  | nil => simp [insBy]
  | cons z l ih =>
    rw [insBy]
    split
    · simp
    · rw [List.mem_cons, List.mem_cons, ih]; exact or_left_comm

theorem mem_sortBy {α : Type} (le : α → α → Bool) (y : α) (l : List α) : y ∈ sortBy le l ↔ y ∈ l := by
  induction l with
  | nil => rfl
  | cons x l ih => rw [sortBy, List.foldr_cons, mem_insBy, ← sortBy, ih, List.mem_cons]

/-- The head of a sorted list comes before every element, in an order that is total and transitive. -/
theorem sortBy_head_le {α : Type} {le : α → α → Bool} (total : ∀ a b, le a b = true ∨ le b a = true) (trans : ∀ a b c, le a b = true → le b c = true → le a c = true)
    {l : List α} {x : α} (h : (sortBy le l).head? = some x) : ∀ y ∈ l, le x y = true := by
  have self (a : α) : le a a = true := (total a a).elim id id
  induction l generalizing x with
  | nil => simp
  | cons z l ih =>
    rw [sortBy, List.foldr_cons, ← sortBy] at h
    cases hs : sortBy le l with
    | nil =>
      rw [hs] at h
      obtain rfl : z = x := by simpa [insBy] using h
      intro y hy
      have empty : y ∉ l := fun m => by simpa [hs] using (mem_sortBy le y l).2 m
      rw [(List.mem_cons.1 hy).resolve_right empty]
      exact self z
    | cons w r =>
      have least := ih (x := w) (by rw [hs]; rfl)
      rw [hs, insBy] at h
      intro y hy
      by_cases first : le z w = true
      · rw [if_pos first] at h
        obtain rfl : z = x := by simpa using h
        obtain rfl | later := List.mem_cons.1 hy
        · exact self y
        · exact trans _ _ _ first (least y later)
      · rw [if_neg first] at h
        obtain rfl : w = x := by simpa using h
        obtain rfl | later := List.mem_cons.1 hy
        · exact (total y w).resolve_left first
        · exact least y later

theorem exists_sortBy_head {α : Type} (le : α → α → Bool) {l : List α} {y : α} (h : y ∈ l) : ∃ x ∈ l, (sortBy le l).head? = some x := by
  cases hs : sortBy le l with
  | nil => simpa [hs] using (mem_sortBy le y l).2 h
  | cons x r => exact ⟨x, (mem_sortBy le x l).1 (hs ▸ List.mem_cons_self), rfl⟩

/-! ### Timed events -/

/-- The order of R60, as numbers. -/
theorem eventLe_iff (a b : Nat × Nat × Nat) : eventLe a b = true ↔ a.1 < b.1 ∨ a.1 = b.1 ∧ (a.2.1 < b.2.1 ∨ a.2.1 = b.2.1 ∧ a.2.2 ≤ b.2.2) := by simp [eventLe]

theorem eventLe_total (a b : Nat × Nat × Nat) : eventLe a b = true ∨ eventLe b a = true := by rw [eventLe_iff, eventLe_iff]; omega

theorem eventLe_trans (a b c : Nat × Nat × Nat) (h : eventLe a b = true) (k : eventLe b c = true) : eventLe a c = true := by rw [eventLe_iff] at *; omega

theorem eventLe_antisymm {a b : Nat × Nat × Nat} (h : eventLe a b = true) (k : eventLe b a = true) : a = b := by
  obtain ⟨t, i, j⟩ := a
  obtain ⟨t', i', j'⟩ := b
  rw [eventLe_iff] at h k
  dsimp only at h k
  obtain ⟨rfl, rfl, rfl⟩ : t = t' ∧ i = i' ∧ j = j' := by omega
  rfl

/-- The head of sorted events is the one that comes before every other. -/
theorem sortBy_eventLe_head {l : List (Nat × Nat × Nat)} {e : Nat × Nat × Nat} (mem : e ∈ l) (least : ∀ x ∈ l, eventLe e x = true) : (sortBy eventLe l).head? = some e := by
  obtain ⟨x, hx, head⟩ := exists_sortBy_head eventLe mem
  rw [head, eventLe_antisymm (sortBy_head_le eventLe_total eventLe_trans head e mem) (least x hx)]

/-- What is due and comes first takes effect. -/
theorem State.fireEvent_eq (s : State) (t kind key : Nat) :
    s.fireEvent (t, kind, key) = if kind = 0 then s.publish key else if kind = 1 then s.swapDue key else if kind = 2 then s.freqNow else s.waitOver key := by
  match kind with
  | 0 => rfl
  | 1 => rfl
  | 2 => rfl
  | _ + 3 => rfl

/-- Settles O28: the first event of the sorted list is the least one, and the order of R60 has no ties. -/
theorem timedEvents : Obligations.TimedEvents := by
  intro s t kind key awake mem least
  have first : s.firstDue = some (t, kind, key) := sortBy_eventLe_head mem fun x hx => (eventLe_iff _ _).2 (least x hx)
  refine congrArg (fun u => Host.Outcome.next (finish s u)) ?_
  rw [timedEvent, if_neg (by simp [awake]), first]
  exact s.fireEvent_eq t kind key

/-! ### Steering descriptors -/

/-- A descriptor's end, by what it does to its own strand. -/
theorem State.ends_eq {s : State} {k : Nat} {f g : Strand → Strand} (h : f { s.strand k with phase := .done, tStart := some s.core.ct } = g (s.strand k)) : s.ends k f = s.setStrand k g := by
  rw [State.ends, State.setStrand, State.setStrand, h]

/-- LOOP's counter, case by case (R80). -/
theorem loopStep_zero (c : Nat × Bool) : loopStep 0 c = ((if c.2 then c.1 else 0, true), true) := rfl

theorem loopStep_more {count : Nat} {c : Nat × Bool} (h : count ≠ 0) (more : (if c.2 then c.1 else count) ≠ 0) :
    loopStep count c = (((if c.2 then c.1 else count) - 1, true), true) := by
  unfold loopStep
  dsimp only
  rw [if_neg h, if_pos more]

theorem loopStep_last {count : Nat} {c : Nat × Bool} (h : count ≠ 0) (last : ¬(if c.2 then c.1 else count) ≠ 0) : loopStep count c = ((0, false), false) := by
  unfold loopStep
  dsimp only
  rw [if_neg h, if_neg last]

/-- A command that acts under a condition that holds. -/
theorem next_ifTrue {c : Prop} [Decidable c] {s u : State} (h : c) : (.next (finish s (if c then u else s)) : Host.Outcome State Fault Refusal) = .next (finish s u) := by rw [if_pos h]

/-- Settles O29: each of them is what its strand does at its end. -/
theorem steeringDescriptors : Obligations.SteeringDescriptors := by
  intro s k t ends
  refine ⟨fun h => next_ifTrue h, fun h => next_ifTrue h, fun h => ?_, fun h => next_ifTrue h, fun h => next_ifTrue h⟩
  intro lv count c n
  simp only [ends]
  refine (next_ifTrue h).trans (congrArg (fun u => Host.Outcome.next (finish s u)) (State.ends_eq ?_))
  change ({ t with phase := .done, tStart := some s.core.ct, loops := setNth t.loops lv (loopStep count c).1, next := if (loopStep count c).2 then some (t.f 24 0 18) else t.next } : Strand) = _
  by_cases zero : count = 0
  · rw [if_pos zero, zero, loopStep_zero]; simp only [n, zero]; rfl
  · rw [if_neg zero]
    by_cases more : n ≠ 0
    · rw [if_pos more, loopStep_more zero more]; rfl
    · rw [if_neg more, loopStep_last zero more]; rfl

end Sys2Proof.Machine
end

section
/-! SUPPORT. Event counters: set, added to and consumed (R73, R74, R79, R89). -/
namespace Sys2Proof.Machine
open Sys2Proof

-- Threads that wait for the kernel keep their stacks, and the check limits the memory of one text.
set_option Elab.async false

theorem State.event_setEvent_eq (s : State) (i v : Nat) : (s.setEvent i v).event i = v % 2 ^ 32 := sget_sset_eq _ _ _ _

theorem State.event_setEvent_ne (s : State) {i j : Nat} (v : Nat) (h : j ≠ i) : (s.setEvent i v).event j = s.event j := sget_sset_ne _ _ _ _ _ h

theorem State.event_setStrand (s : State) (k : Nat) (f : Strand → Strand) (i : Nat) : (s.setStrand k f).event i = s.event i := rfl

/-- Counters set one after the other: each takes the value, and besides them nothing changes. -/
theorem State.foldl_setEvent (s : State) (first v n : Nat) :
    (∀ i, ((upto n).foldl (fun (u : State) i => u.setEvent (first + i) v) s).event i = if first ≤ i ∧ i < first + n then v % 2 ^ 32 else s.event i)
    ∧ ((upto n).foldl (fun (u : State) i => u.setEvent (first + i) v) s).core = s.core ∧ ((upto n).foldl (fun (u : State) i => u.setEvent (first + i) v) s).mgmt = s.mgmt
    ∧ ((upto n).foldl (fun (u : State) i => u.setEvent (first + i) v) s).ctl.strands = s.ctl.strands := by
  induction n with
  | zero => exact ⟨fun i => by rw [if_neg (by omega)]; rfl, rfl, rfl, rfl⟩
  | succ n ih =>
    rw [foldl_upto_succ]
    obtain ⟨events, core, mgmt, strands⟩ := ih
    refine ⟨fun i => ?_, core, mgmt, strands⟩
    by_cases last : i = first + n
    · rw [last, State.event_setEvent_eq, if_pos (by omega)]
    · rw [State.event_setEvent_ne _ _ last, events]
      by_cases inside : first ≤ i ∧ i < first + n
      · rw [if_pos inside, if_pos (by omega)]
      · rw [if_neg inside, if_neg (by omega)]

theorem dfld_lt (d : BitVec 512) (byte lo w : Nat) : dfld d byte lo w < 2 ^ w := Nat.mod_lt _ (Nat.two_pow_pos _)

/-- What is ready for a control opcode: its strand exists and has the opcode. -/
theorem State.control_phase {s : State} {k op : Nat} (h : s.control k op = true) : (s.strand k).phase = .ready := by
  simp only [State.control, State.mayRun, Bool.and_eq_true, beq_iff_eq] at h
  exact h.1.1.1.2

/-- EVENT_SET (R79). -/
theorem eventSet_sets {s : State} {k : Nat} (ready : s.control k 0x04 = true) (i : Nat) :
    (eventSet s k).event i = if (s.strand k).f 24 0 12 ≤ i ∧ i < (s.strand k).f 24 0 12 + (s.strand k).f 26 0 16 ∧ i < 4096 then (s.strand k).f 28 0 32 else s.event i := by
  have count : (s.strand k).f 26 0 16 < 2 ^ 16 := dfld_lt _ _ _ _
  have value : (s.strand k).f 28 0 32 < 2 ^ 32 := dfld_lt _ _ _ _
  have first : (s.strand k).f 24 0 12 < 2 ^ 12 := dfld_lt _ _ _ _
  rw [eventSet, if_pos ready, State.ends, State.event_setStrand, (State.foldl_setEvent ..).1, Nat.mod_eq_of_lt value]
  by_cases inside : (s.strand k).f 24 0 12 ≤ i ∧ i < (s.strand k).f 24 0 12 + (s.strand k).f 26 0 16 ∧ i < 4096
  · rw [if_pos inside, if_pos (by omega)]
  · rw [if_neg inside, if_neg (by omega)]

theorem names_cpEventValue : Names Reg.cpEventValue 5 0 { blk := 0x05, off := 0x05C, rw := 0xFFFFFFFF } := ⟨by decide, by decide, by decide, by decide⟩

theorem names_cpEventAdd : Names Reg.cpEventAdd 5 0 { blk := 0x05, off := 0x060, rw := 0xFFFFFFFF } := ⟨by decide, by decide, by decide, by decide⟩

theorem State.devEffect_cpEventValue (s : State) (v old : Nat) : s.devEffect Reg.cpEventValue v old = s.setEvent (s.core.fld Reg.cpEventSel 0 12) v := rfl

theorem State.devEffect_cpEventAdd (s : State) (v old : Nat) : s.devEffect Reg.cpEventAdd v old = s.addEvent (s.core.fld Reg.cpEventSel 0 12) v := rfl

/-- What the host's write of CP_EVENT_VALUE leaves (R89): registers, and the counter set. -/
theorem State.hostWord_cpEventValue {s : State} {v : Nat} (live : s.live = true) (hv : v < 2 ^ 32) :
    ∃ regs, s.hostWord Reg.cpEventValue v = ({ s with core := { s.core with regs := regs } } : State).setEvent (s.core.fld Reg.cpEventSel 0 12) v := by
  rw [State.hostWord_dev live names_cpEventValue (by decide) hv, State.writeFields_eq _ _ _ _ rfl, State.devEffect_cpEventValue]
  have key : s.core.regKey Reg.cpEventValue = Reg.cpEventValue := rfl
  rw [key, show ((s.on fun c => c.putFields Reg.cpEventValue _ _ v).core.fld Reg.cpEventSel 0 12) = s.core.fld Reg.cpEventSel 0 12 from s.core.fld_setReg_ne _ _ _ (by decide)]
  exact ⟨_, rfl⟩

theorem State.hostWord_cpEventAdd {s : State} {v : Nat} (live : s.live = true) (hv : v < 2 ^ 32) :
    ∃ regs, s.hostWord Reg.cpEventAdd v = ({ s with core := { s.core with regs := regs } } : State).addEvent (s.core.fld Reg.cpEventSel 0 12) v := by
  rw [State.hostWord_dev live names_cpEventAdd (by decide) hv, State.writeFields_eq _ _ _ _ rfl, State.devEffect_cpEventAdd]
  have key : s.core.regKey Reg.cpEventAdd = Reg.cpEventAdd := rfl
  rw [key, show ((s.on fun c => c.putFields Reg.cpEventAdd _ _ v).core.fld Reg.cpEventSel 0 12) = s.core.fld Reg.cpEventSel 0 12 from s.core.fld_setReg_ne _ _ _ (by decide)]
  exact ⟨_, rfl⟩

/-! ### A consumed event -/

theorem State.eventReady_iff {s : State} {k : Nat} : s.eventReady k = true ↔ (s.strand k).phase = .waitEvent ∧ (s.strand k).f 4 12 20 ≤ s.event ((s.strand k).f 4 0 12) := by
  simp [State.eventReady]

/-- Whether a lower strand can be served from the counter that strand `k` waits for (R74). -/
theorem any_lower_iff {s : State} {k i : Nat} : ((upto k).any fun j => s.eventReady j && (s.strand j).f 4 0 12 == i) = true ↔ ∃ j, j < k ∧ s.eventReady j = true ∧ (s.strand j).f 4 0 12 = i := by
  simp [upto]

theorem eventWait_short {s : State} {k : Nat} (short : s.event ((s.strand k).f 4 0 12) < (s.strand k).f 4 12 20) : eventWait s k = s := by
  have : s.eventReady k = false := Bool.eq_false_iff.2 fun h => absurd (State.eventReady_iff.1 h).2 (by omega)
  simp [eventWait, this]

theorem eventWait_behind {s : State} {k : Nat} (h : ∃ j, j < k ∧ s.eventReady j = true ∧ (s.strand j).f 4 0 12 = (s.strand k).f 4 0 12) : eventWait s k = s := by
  unfold eventWait
  dsimp only
  rw [if_pos (any_lower_iff.2 h), ite_self]

theorem eventWait_served {s : State} {k : Nat} (live : s.live = true) (ready : s.eventReady k = true)
    (first : ∀ j, j < k → ¬(s.eventReady j = true ∧ (s.strand j).f 4 0 12 = (s.strand k).f 4 0 12)) :
    eventWait s k = (s.setEvent ((s.strand k).f 4 0 12) (s.event ((s.strand k).f 4 0 12) - (s.strand k).f 4 12 20)).setStrand k (fun t => { t with phase := .ready }) := by
  unfold eventWait
  dsimp only
  rw [if_neg (by simp [live, ready]), if_neg fun h => let ⟨j, hj, h⟩ := any_lower_iff.1 h; first j hj h]

/-- Settles O30: each writes the one counter that it names. -/
theorem eventCounters : Obligations.EventCounters := by
  intro s
  refine ⟨fun k ready => ?_, fun v live hv => ?_, fun v live hv => ?_, fun k live waits => ?_⟩
  · have inside : k < s.ctl.strands.length := State.lt_of_phase _ _ (State.control_phase ready) (by decide)
    refine ⟨_, rfl, eventSet_sets ready, ?_⟩
    obtain ⟨_, core, mgmt, strands⟩ := s.foldl_setEvent ((s.strand k).f 24 0 12) ((s.strand k).f 28 0 32) (min (min ((s.strand k).f 26 0 16) 4096) (4096 - (s.strand k).f 24 0 12))
    rw [eventSet, if_pos ready, State.ends]
    generalize (upto _).foldl (fun (u : State) i => u.setEvent _ _) s = u at *
    have same (j : Nat) : u.strand j = s.strand j := by rw [State.strand, State.strand, strands]
    exact ⟨by rw [State.strand_setStrand_eq _ _ _ (by rwa [strands]), same, core]; rfl, fun j ne => (State.strand_setStrand_ne _ _ _ _ ne).trans (same j), core, mgmt⟩
  · obtain ⟨regs, left⟩ := State.hostWord_cpEventValue live hv
    refine ⟨_, rfl, ?_, ?_, ?_, ?_⟩
    · rw [left, State.event_setEvent_eq, Nat.mod_eq_of_lt hv]
    · intro j ne; rw [left, State.event_setEvent_ne _ _ ne]; rfl
    · intro j; rw [left]; rfl
    · rw [left]; rfl
  · obtain ⟨regs, left⟩ := State.hostWord_cpEventAdd live hv
    refine ⟨_, rfl, ?_, ?_, ?_, ?_⟩
    · rw [left, State.addEvent, State.event_setEvent_eq, satAdd, Nat.mod_eq_of_lt (by omega), Nat.min_comm]; rfl
    · intro j ne; rw [left, State.addEvent, State.event_setEvent_ne _ _ ne]; rfl
    · intro j; rw [left]; rfl
    · rw [left]; rfl
  · intro i n
    refine ⟨fun short => by exact congrArg (fun u => Host.Outcome.next (finish s u)) (eventWait_short short), fun enough fits => ⟨fun lower => ?_, fun first => ?_⟩⟩
    · exact congrArg (fun u => Host.Outcome.next (finish s u)) (eventWait_behind lower)
    · have inside : k < s.ctl.strands.length := State.lt_of_phase _ _ waits (by decide)
      have served := eventWait_served live (State.eventReady_iff.2 ⟨waits, enough⟩) first
      refine ⟨_, rfl, ?_⟩
      rw [served]
      exact ⟨by rw [State.event_setStrand, State.event_setEvent_eq, Nat.mod_eq_of_lt (Nat.lt_of_le_of_lt (Nat.sub_le _ _) fits)], fun j ne => by rw [State.event_setStrand, State.event_setEvent_ne _ _ ne],
        State.strand_setStrand_eq _ _ _ inside, fun j ne => State.strand_setStrand_ne _ _ _ _ ne, rfl⟩

end Sys2Proof.Machine
end

section
/-! SUPPORT. Open transactions by identifier, the fetch of a descriptor and its header waits (R63 to R76). -/
namespace Sys2Proof.Machine
open Sys2Proof

-- Threads that wait for the kernel keep their stacks, and the check limits the memory of one text.
set_option Elab.async false

/-! ### Transactions by identifier -/

theorem Core.id_of_txn? {c : Core} {id : Nat} {x : Txn} (h : c.txn? id = some x) : x.id = id := by simpa using List.find?_some h

/-- A changed transaction is found changed. -/
theorem Core.txn?_setTxn (c : Core) (id : Nat) {f : Txn → Txn} (same : ∀ t, (f t).id = t.id) : (c.setTxn id f).txn? id = (c.txn? id).map f := by
  have found : ((fun t : Txn => t.id == id) ∘ fun t => if t.id == id then f t else t) = fun t => t.id == id := by
    funext t
    by_cases h : t.id = id
    · simp [h, same]
    · simp [h]
  rw [Core.txn?, Core.setTxn, List.find?_map, found]
  cases h : c.txns.find? (fun t => t.id == id) with
  | none => rw [Core.txn?, h]; rfl
  | some x => rw [Core.txn?, h]; simp [show x.id = id by simpa using List.find?_some h]

theorem Core.txn?_setTxn_ne (c : Core) {id j : Nat} {f : Txn → Txn} (same : ∀ t, (f t).id = t.id) (ne : j ≠ id) : (c.setTxn id f).txn? j = c.txn? j := by
  have found : ((fun t : Txn => t.id == j) ∘ fun t => if t.id == id then f t else t) = fun t => t.id == j := by
    funext t
    by_cases h : t.id = id
    · simp [h, same]
    · simp [h]
  rw [Core.txn?, Core.setTxn, List.find?_map, found]
  cases h : c.txns.find? (fun t => t.id == j) with
  | none => rw [Core.txn?, h]; rfl
  | some x =>
    have : ¬x.id = id := fun e => ne ((show x.id = j by simpa using List.find?_some h).symm.trans e)
    rw [Core.txn?, h]
    simp [this]

/-- A transaction that is opened with its first member is found where none was. -/
theorem Core.txn?_append {c : Core} {x : Txn} (none_ : c.txn? x.id = none) : ({ c with txns := c.txns ++ [x] } : Core).txn? x.id = some x := by
  rw [Core.txn?, List.find?_append, ← Core.txn?, none_]
  simp

/-- A fetched member's transaction is open, aborted or not as it was. -/
theorem Core.txn?_openTxn (c : Core) (id : Nat) : ∃ x, (c.openTxn id).txn? id = some x ∧ x.opened = true ∧ ∀ y, c.txn? id = some y → x.aborted = y.aborted := by
  unfold Core.openTxn
  cases h : c.txn? id with
  | none =>
    refine ⟨{ id := id }, ?_, rfl, by simp⟩
    exact Core.txn?_append (x := { id := id }) h
  | some y =>
    refine ⟨{ y with opened := true }, ?_, rfl, ?_⟩
    · simp only [Option.isSome_some, if_true]
      rw [Core.txn?_setTxn _ _ (by simp), h]; rfl
    · rintro _ ⟨⟩; rfl

/-! ### The header -/

/-- Where a descriptor goes whose wait for time is over. -/
def Strand.afterTime (t : Strand) (ct : Nat) : Strand := { t with tOut := ct, phase := if t.f 1 2 1 = 1 ∧ t.f 4 12 20 ≠ 0 then .waitEvent else .ready }

theorem State.afterTime_eq (s : State) (k : Nat) : s.afterTime k = s.setStrand k (fun t => t.afterTime s.core.ct) := rfl

/-- What a header does once its transaction, if it is a member, is open; `dead` tells that this one is aborted. -/
def State.headed (s : State) (k : Nat) (dead : Bool) : State :=
  if dead then s.setStrand k (fun t => { t with phase := .done, comp := { t.comp with status := 0x21 } })
  else if (s.strand k).f 1 1 1 = 1 then
    if s.startTime (s.strand k) < s.core.ct then ((s.on Core.lateEvent).setStrand k (fun t => { t with comp := { t.comp with late := true } })).afterTime k
    else s.setStrand k (fun t => { t with phase := .waitTime, tOut := s.core.ct, entry := isCollective t.op && !s.noEntry })
  else s.afterTime k

theorem State.header_alone {s : State} {k : Nat} (alone : (s.strand k).txn? = none) : s.header k = s.headed k false := by
  unfold State.header
  dsimp only
  rw [alone]
  rfl

/-- Whether a member's transaction is aborted once the member's fetch has opened it. -/
def State.aborts (s : State) (id : Nat) : Bool := match (s.core.openTxn id).txn? id with | some x => x.aborted | none => false

theorem State.header_opens {s : State} {k id : Nat} (member : (s.strand k).txn? = some id) : s.header k = (s.on (fun c => c.openTxn id)).headed k (s.aborts id) := by
  unfold State.header
  dsimp only
  rw [member]
  rfl

theorem State.header_member {s : State} {k id : Nat} {x : Txn} (member : (s.strand k).txn? = some id) (found : (s.core.openTxn id).txn? id = some x) :
    s.header k = (s.on (fun c => c.openTxn id)).headed k x.aborted := by
  rw [State.header_opens member, State.aborts, found]

theorem State.headed_others (s : State) {j k : Nat} (dead : Bool) (ne : j ≠ k) : (s.headed k dead).strand j = s.strand j := by
  unfold State.headed
  split
  · exact State.strand_setStrand_ne _ _ _ _ ne
  · split
    · split
      · exact (State.strand_setStrand_ne _ _ _ _ ne).trans (State.strand_setStrand_ne _ _ _ _ ne)
      · exact State.strand_setStrand_ne _ _ _ _ ne
    · exact State.strand_setStrand_ne _ _ _ _ ne

theorem State.headed_txns (s : State) (k : Nat) (dead : Bool) : (s.headed k dead).core.txns = s.core.txns := by
  unfold State.headed
  split
  · rfl
  · split
    · split <;> rfl
    · rfl

theorem State.header_others (s : State) {j k : Nat} (ne : j ≠ k) : (s.header k).strand j = s.strand j := by
  cases h : (s.strand k).txn? with
  | none => rw [State.header_alone h, State.headed_others _ _ ne]
  | some id =>
    obtain ⟨x, found, _⟩ := s.core.txn?_openTxn id
    rw [State.header_member h found, State.headed_others _ _ ne]
    rfl

/-! ### Events that come before -/

theorem State.before_first {s : State} {e : Nat × Nat × Nat} (least : ∀ x ∈ s.dueEvents, eventLe e x = true) : s.before e = s := by
  unfold State.before State.catchUp
  split
  · next f first =>
    have due : f ∈ s.dueEvents := (mem_sortBy eventLe f _).1 (List.mem_of_mem_head? first)
    rw [if_pos (least f due)]
  · rfl

/-! ### The fetch -/

/-- What a strand reads at its place in the program: the machine after it, the status and the bytes. -/
def State.fetched (s : State) (k : Nat) : Core × Nat × List Byte :=
  s.core.read { q := s.quarter k, strand := some k, index := (s.strand k).pc } (s.core.program.1 + 64 * (s.strand k).pc) 64

/-- The descriptor that was read. -/
def State.fetchedDesc (s : State) (k : Nat) : BitVec 512 := BitVec.ofNat 512 (ofLE (s.fetched k).2.2)

/-- The strand holds the descriptor that it has read. -/
def State.holds (s : State) (k : Nat) : State :=
  ({ s with core := (s.fetched k).1 } : State).setStrand k (fun t => { t with desc := s.fetchedDesc k, comp := {}, fetchFailed := false, next := none, tStart := none, sawPoison := false })

theorem descriptorFetch_stopping {s : State} {k : Nat} (live : s.live = true) (fetch : (s.strand k).phase = .fetch) (stopping : (s.strand k).stopping = true) :
    descriptorFetch s k = s.stopStrand k 2 false := by
  unfold descriptorFetch
  dsimp only
  rw [if_neg (by simp [live, fetch]), if_pos stopping]

section
variable {s : State} {k : Nat} (live : s.live = true) (fetch : (s.strand k).phase = .fetch) (goes : (s.strand k).stopping = false)
include live fetch goes

theorem descriptorFetch_beyond (beyond : s.core.program.2 < s.core.program.1 + 64 * (s.strand k).pc + 64) : descriptorFetch s k = s.stopStrand k 8 true := by
  unfold descriptorFetch
  dsimp only
  rw [if_neg (by simp [live, fetch]), if_neg (by simp [goes]), if_pos beyond]

variable (inside : s.core.program.1 + 64 * (s.strand k).pc + 64 ≤ s.core.program.2)
include inside

theorem descriptorFetch_failed (failed : (s.fetched k).2.1 ≠ 0) : descriptorFetch s k =
    ({ s with core := (s.fetched k).1 } : State).setStrand k (fun t => { t with phase := .done, desc := 0, fetchFailed := true, comp := { status := (s.fetched k).2.1 }, tOut := (s.fetched k).1.ct }) := by
  unfold descriptorFetch
  dsimp only
  rw [if_neg (by simp [live, fetch]), if_neg (by simp [goes]), if_neg (Nat.not_lt.2 inside)]
  exact if_pos failed

variable (read : (s.fetched k).2.1 = 0)
include read

/-- What a descriptor that was read does: a fault, or its header, a late start after the events that R60 puts first. -/
theorem descriptorFetch_read : descriptorFetch s k =
    if !opcodes.contains (dfld (s.fetchedDesc k) 0 0 8) then ({ s with core := (s.fetched k).1 } : State).stopStrand k 5 true
    else if dfld (s.fetchedDesc k) 3 0 6 ≠ k then ({ s with core := (s.fetched k).1 } : State).stopStrand k 6 true
    else (if (s.holds k).startsLate k then (s.holds k).before ((s.holds k).edge (s.holds k).core.ct, 3, k) else s.holds k).header k := by
  unfold descriptorFetch
  dsimp only
  rw [if_neg (by simp [live, fetch]), if_neg (by simp [goes]), if_neg (Nat.not_lt.2 inside)]
  exact if_neg (not_not_intro read)

theorem descriptorFetch_reserved (reserved : dfld (s.fetchedDesc k) 0 0 8 ∉ opcodes) : descriptorFetch s k = ({ s with core := (s.fetched k).1 } : State).stopStrand k 5 true := by
  rw [descriptorFetch_read live fetch goes inside read, if_pos (by simpa using reserved)]

theorem descriptorFetch_other (known : dfld (s.fetchedDesc k) 0 0 8 ∈ opcodes) (other : dfld (s.fetchedDesc k) 3 0 6 ≠ k) :
    descriptorFetch s k = ({ s with core := (s.fetched k).1 } : State).stopStrand k 6 true := by
  rw [descriptorFetch_read live fetch goes inside read, if_neg (by simpa using known), if_pos other]

theorem descriptorFetch_own (known : dfld (s.fetchedDesc k) 0 0 8 ∈ opcodes) (own : dfld (s.fetchedDesc k) 3 0 6 = k) :
    descriptorFetch s k = (if (s.holds k).startsLate k then (s.holds k).before ((s.holds k).edge (s.holds k).core.ct, 3, k) else s.holds k).header k := by
  rw [descriptorFetch_read live fetch goes inside read, if_neg (by simpa using known), if_neg (not_not_intro own)]

end

/-! ### The wait for time -/

theorem waitTimeEnd_waits {s : State} {k : Nat} (h : s.core.ct < s.wakeTime k ∨ (s.strand k).needsEntry = true) : waitTimeEnd s k = s := by
  unfold waitTimeEnd
  rw [if_pos]
  obtain h | h := h <;> simp [h]

section
variable {s : State} {k : Nat} (waits : (s.strand k).phase = .waitTime)
include waits

theorem waitTimeEnd_ends (live : s.live = true) (now : s.wakeTime k ≤ s.core.ct) (entry : (s.strand k).needsEntry = false) :
    waitTimeEnd s k = (s.before (s.edge (s.wakeTime k), 3, k)).waitOver k := by
  unfold waitTimeEnd
  rw [if_neg (by simp [live, waits, entry, now])]

/-- A staggered strand start begins to fetch (R662). -/
theorem State.waitOver_stagger (offset : (s.strand k).startAt ≠ 0) (now : s.wakeTime k ≤ s.core.ct) :
    s.waitOver k = s.setStrand k (fun t => { t with phase := .fetch, startAt := 0, tWdog := s.core.ct }) := by
  rw [State.wakeTime, if_pos offset] at now
  unfold State.waitOver
  dsimp only
  rw [if_neg (not_not_intro waits), if_pos offset, if_neg (Nat.not_lt.2 now)]

/-- A descriptor's wait for its start time ends (R76). -/
theorem State.waitOver_start (start : (s.strand k).startAt = 0) (now : s.wakeTime k ≤ s.core.ct) (entry : (s.strand k).needsEntry = false) :
    s.waitOver k = (s.setStrand k (fun t => { t with entry := false, tWdog := t.tWdog + (s.core.ct - t.tOut) })).afterTime k := by
  rw [State.wakeTime, if_neg (not_not_intro start)] at now
  unfold State.waitOver
  dsimp only
  rw [if_neg (not_not_intro waits), if_neg (not_not_intro start), if_neg (by simp [entry, now])]

end

/-! ### The obligation -/

/-- The clauses of the fetch. -/
theorem descriptorFetch_clauses {s : State} {k : Nat} (live : s.live = true) (fetch : (s.strand k).phase = .fetch) (goes : (s.strand k).stopping = false) :
    let a := s.core.program.1 + 64 * (s.strand k).pc
    (s.core.program.2 < a + 64 → descriptorFetch s k = s.stopStrand k 8 true)
    ∧ (a + 64 ≤ s.core.program.2 → (s.fetched k).2.1 ≠ 0 → ∃ u, descriptorFetch s k = u ∧ (u.strand k).phase = .done ∧ (u.strand k).comp.status = (s.fetched k).2.1
        ∧ (u.strand k).fetchFailed = true ∧ u.core = (s.fetched k).1)
    ∧ (a + 64 ≤ s.core.program.2 → (s.fetched k).2.1 = 0 →
        (dfld (s.fetchedDesc k) 0 0 8 ∉ opcodes → descriptorFetch s k = ({ s with core := (s.fetched k).1 } : State).stopStrand k 5 true)
        ∧ (dfld (s.fetchedDesc k) 0 0 8 ∈ opcodes → dfld (s.fetchedDesc k) 3 0 6 ≠ k → descriptorFetch s k = ({ s with core := (s.fetched k).1 } : State).stopStrand k 6 true)
        ∧ (dfld (s.fetchedDesc k) 0 0 8 ∈ opcodes → dfld (s.fetchedDesc k) 3 0 6 = k →
            ((s.holds k).startsLate k = false → descriptorFetch s k = (s.holds k).header k)
            ∧ ((s.holds k).startsLate k = true → descriptorFetch s k = ((s.holds k).before ((s.holds k).edge (s.holds k).core.ct, 3, k)).header k))) := by
  have present := State.lt_of_phase _ _ fetch (by decide)
  refine ⟨fun beyond => descriptorFetch_beyond live fetch goes beyond, fun inside failed => ?_, fun inside read =>
    ⟨descriptorFetch_reserved live fetch goes inside read, descriptorFetch_other live fetch goes inside read, fun known own => ?_⟩⟩
  · have there : k < ({ s with core := (s.fetched k).1 } : State).ctl.strands.length := present
    refine ⟨_, descriptorFetch_failed live fetch goes inside failed, ?_⟩
    rw [State.strand_setStrand_eq _ _ _ there]
    exact ⟨rfl, rfl, rfl, rfl⟩
  · have left := descriptorFetch_own live fetch goes inside read known own
    exact ⟨fun early => left.trans (by rw [if_neg (Bool.eq_false_iff.1 early)]), fun late => left.trans (by rw [if_pos late])⟩

/-- The clauses of the header. -/
theorem State.header_clauses (s : State) {k : Nat} (present : k < s.ctl.strands.length) :
    let t := s.strand k
    let u := s.header k
    let after : Phase := if t.f 1 2 1 = 1 ∧ t.f 4 12 20 ≠ 0 then .waitEvent else .ready
    (∀ j, j ≠ k → u.strand j = s.strand j)
    ∧ (t.txn? = none → t.f 1 1 1 = 0 → u.strand k = { t with tOut := s.core.ct, phase := after } ∧ u.core = s.core)
    ∧ (t.txn? = none → t.f 1 1 1 = 1 → s.startTime t < s.core.ct → (u.strand k).phase = after ∧ (u.strand k).tOut = s.core.ct ∧ (u.strand k).comp.late = true ∧ u.core = s.core.lateEvent)
    ∧ (t.txn? = none → t.f 1 1 1 = 1 → s.core.ct ≤ s.startTime t → u.strand k = { t with tOut := s.core.ct, phase := .waitTime, entry := isCollective t.op && !s.noEntry } ∧ u.core = s.core)
    ∧ ∀ id, t.txn? = some id → (∃ x, u.core.txn? id = some x ∧ x.opened = true)
        ∧ ∀ x, s.core.txn? id = some x → x.aborted = true → (u.strand k).phase = .done ∧ (u.strand k).comp.status = 0x21 := by
  intro t u after
  refine ⟨fun j ne => s.header_others ne, fun alone plain => ?_, fun alone timed late => ?_, fun alone timed early => ?_, fun id member => ?_⟩
  · have left : u = s.afterTime k := (State.header_alone alone).trans ((if_neg Bool.false_ne_true).trans (if_neg (by rw [plain]; decide)))
    rw [left, State.afterTime_eq, State.strand_setStrand_eq _ _ _ present]
    exact ⟨rfl, rfl⟩
  · have left : u = ((s.on Core.lateEvent).setStrand k (fun t => { t with comp := { t.comp with late := true } })).afterTime k :=
      (State.header_alone alone).trans ((if_neg Bool.false_ne_true).trans ((if_pos timed).trans (if_pos late)))
    rw [left, State.afterTime_eq, State.strand_setStrand_eq _ _ _ (by rw [State.setStrand_length]; exact present), State.strand_setStrand_eq (s.on Core.lateEvent) _ _ present]
    exact ⟨rfl, rfl, rfl, rfl⟩
  · have left : u = s.setStrand k (fun t => { t with phase := .waitTime, tOut := s.core.ct, entry := isCollective t.op && !s.noEntry }) :=
      (State.header_alone alone).trans ((if_neg Bool.false_ne_true).trans ((if_pos timed).trans (if_neg (Nat.not_lt.2 early))))
    rw [left, State.strand_setStrand_eq _ _ _ present]
    exact ⟨rfl, rfl⟩
  · obtain ⟨x, found, isOpen, same⟩ := s.core.txn?_openTxn id
    have left : u = (s.on (fun c => c.openTxn id)).headed k x.aborted := State.header_member member found
    have there : k < (s.on (fun c => c.openTxn id)).ctl.strands.length := present
    refine ⟨⟨x, ?_, isOpen⟩, fun y was aborted => ?_⟩
    · rw [Core.txn?, left, State.headed_txns]; exact found
    · rw [left, same y was, aborted, State.headed, if_pos rfl, State.strand_setStrand_eq _ _ _ there]
      exact ⟨rfl, rfl⟩

/-- Settles O32: the fetch, the header and the wait, branch by branch. -/
theorem fetchAndWait : Obligations.FetchAndWait := by
  intro s k live
  have fetches : exec (.descriptorFetch k) s = .next (finish s (descriptorFetch s k)) := rfl
  have waitEnds : exec (.waitTimeEnd k) s = .next (finish s (waitTimeEnd s k)) := rfl
  rw [fetches, waitEnds]
  refine ⟨fun fetch => ⟨fun stopping => by rw [descriptorFetch_stopping live fetch stopping], fun goes => ?_⟩, fun present => s.header_clauses present, fun waits => ?_⟩
  · obtain ⟨beyond, failed, read⟩ := descriptorFetch_clauses live fetch goes
    refine ⟨fun h => by rw [beyond h], fun inside h => ?_, fun inside ok => ?_⟩
    · obtain ⟨u, left, facts⟩ := failed inside h
      exact ⟨u, by rw [left], facts⟩
    · obtain ⟨reserved, other, own⟩ := read inside ok
      exact ⟨fun h => by rw [reserved h]; rfl, fun known h => by rw [other known h]; rfl, fun known h => ⟨fun early => by rw [(own known h).1 early]; rfl, fun late => by rw [(own known h).2 late]; rfl⟩⟩
  · intro w
    refine ⟨fun h => by rw [waitTimeEnd_waits h], fun now entry => ⟨by rw [waitTimeEnd_ends waits live now entry], fun least => State.before_first fun e he => (eventLe_iff _ _).2 (least e he),
      fun offset => State.waitOver_stagger waits offset now, fun start => ?_⟩⟩
    have present := State.lt_of_phase _ _ waits (by decide)
    intro u
    have left : u = (s.setStrand k (fun t => { t with entry := false, tWdog := t.tWdog + (s.core.ct - t.tOut) })).afterTime k := State.waitOver_start waits start now entry
    rw [left, State.afterTime_eq, State.strand_setStrand_eq _ _ _ (by rw [State.setStrand_length]; exact present), State.strand_setStrand_eq _ _ _ present]
    exact ⟨rfl, rfl, rfl, fun j ne => (State.strand_setStrand_ne _ _ _ _ ne).trans (State.strand_setStrand_ne _ _ _ _ ne)⟩

end Sys2Proof.Machine
end

section
/-! SUPPORT. STORE_IMM (R79, R81, R92, R94). -/
namespace Sys2Proof.Machine
open Sys2Proof

-- Threads that wait for the kernel keep their stacks, and the check limits the memory of one text.
set_option Elab.async false

/-- A live root whose strand 0 is about to store a swap of the power page, while a transaction that has staged a load of cluster time is due. -/
def State.swapStoring : State :=
  let desc : BitVec 512 := BitVec.ofNat 512 (0x0A + (regBase + 0x6020) * 2 ^ 192 + 1 * 2 ^ 256 + 4 * 2 ^ 320)
  (State.reset.on (fun c => { (c.setFld Reg.bootStatus 0 4 11).setBit Reg.ctState 2 true with txns := [{ id := 0, decision := some (true, 0), stageRegs := [(Reg.ctSetHi, 1)] }] })).setStrand 0
    (fun t => { t with phase := .ready, desc := desc })

/-- The start time in the record of strand 0 after a command. -/
def startOf (o : Host.Outcome State Fault Refusal) : Option Nat := match o with | .next u => (u.strand 0).tStart | _ => none

/-- The swap is preceded by the publication, which loads a later time; the descriptor's end comes after it. -/
theorem startOf_swapStoring : startOf (exec (.storeImm 0) State.swapStoring) = some (2 ^ 32) := by decide +kernel

theorem swapStoring_ready : State.swapStoring.control 0 0x0A = true := by decide +kernel

/-- Refutes O34: what a store of SHADOW_CTRL lets come before its swap (R60) may load a later cluster time (R56), here by a staged CT_SET_HI, and the start of the descriptor is
then noted at that later time. -/
theorem not_storesImmediate : ¬ Obligations.StoresImmediate := by
  intro h
  have left := congrArg startOf ((h State.swapStoring 0).1 swapStoring_ready)
  rw [startOf_swapStoring] at left
  revert left
  decide +kernel

end Sys2Proof.Machine
end

section
/-! SUPPORT. Descriptors that wait at a transaction, and what marking it aborted leaves (R79, R95, R96, R100, R101). -/
namespace Sys2Proof.Machine
open Sys2Proof

-- Threads that wait for the kernel keep their stacks, and the check limits the memory of one text.
set_option Elab.async false

/-! ### Discarding -/

/-- A transaction that is marked aborted and has nothing staged (R95). -/
structure Txn.Discarded (t : Txn) : Prop where
  aborted : t.aborted = true
  stage : t.stage = []
  regs : t.stageRegs = []
  notices : t.notices = []

theorem Txn.discarded_discard (t : Txn) : t.discard.Discarded := ⟨rfl, rfl, rfl, rfl⟩

theorem Txn.Discarded.leave {t : Txn} (h : t.Discarded) (k : Nat) : (t.leave k).Discarded := ⟨h.aborted, h.stage, h.regs, h.notices⟩

/-- From `s` to `t` descriptors ended: memory stays, a strand that is done stays done, and transaction `id`, once discarded, stays so. -/
structure Ends (id k : Nat) (s t : State) : Prop where
  mem : t.core.mem = s.core.mem
  done : (s.strand k).phase = .done → (t.strand k).phase = .done
  dead : (∀ x ∈ s.core.txns, x.id = id → x.Discarded) → ∀ x ∈ t.core.txns, x.id = id → x.Discarded

theorem Ends.refl (id k : Nat) (s : State) : Ends id k s s := ⟨rfl, fun h => h, fun h => h⟩

theorem Ends.trans {id k : Nat} {s t u : State} (h : Ends id k s t) (g : Ends id k t u) : Ends id k s u :=
  ⟨g.mem.trans h.mem, fun d => g.done (h.done d), fun d => g.dead (h.dead d)⟩

theorem Ends.foldl {α : Type} {id k : Nat} (f : State → α → State) (step : ∀ s a, Ends id k s (f s a)) (l : List α) (s : State) : Ends id k s (l.foldl f s) := by
  induction l generalizing s with
  | nil => exact Ends.refl _ _ _
  | cons a l ih => exact (step s a).trans (ih _)

/-- A strand keeps its phase when another is changed, or it is itself changed to the same one. -/
theorem State.phase_setStrand {s : State} {j k : Nat} {f : Strand → Strand} {p : Phase} (same : (f (s.strand j)).phase = p ∨ j ≠ k) (h : (s.strand k).phase = p) :
    ((s.setStrand j f).strand k).phase = p := by
  by_cases own : j = k
  · subst own
    by_cases present : j < s.ctl.strands.length
    · rw [State.strand_setStrand_eq _ _ _ present]; exact same.resolve_right (by simp)
    · rw [State.strand_of_le _ _ (by rw [State.setStrand_length]; omega), ← h, State.strand_of_le s j (by omega)]
  · rw [State.strand_setStrand_ne _ _ _ _ (Ne.symm own), h]

theorem Ends.setStrand {id k j : Nat} (s : State) (f : Strand → Strand) (same : (s.strand j).phase = .done → (f (s.strand j)).phase = .done) : Ends id k s (s.setStrand j f) := by
  refine ⟨rfl, fun h => ?_, fun d => d⟩
  by_cases own : j = k
  · subst own; exact State.phase_setStrand (Or.inl (same h)) h
  · exact State.phase_setStrand (Or.inr own) h

theorem Ends.on {id k : Nat} (s : State) {f : Core → Core} (mem : (f s.core).mem = s.core.mem)
    (dead : (∀ x ∈ s.core.txns, x.id = id → x.Discarded) → ∀ x ∈ (f s.core).txns, x.id = id → x.Discarded) : Ends id k s (s.on f) := ⟨mem, fun h => h, dead⟩

theorem Ends.leave (id k : Nat) (s : State) (j : Nat) : Ends id k s (s.leave j) :=
  Ends.on s rfl fun dead x hx own => by
    obtain ⟨t, ht, rfl⟩ := List.mem_map.1 (List.mem_filter.1 hx).1
    exact (dead t ht own).leave j

theorem Ends.endDesc (id k : Nat) (s : State) (j st : Nat) : Ends id k s (s.endDesc j st) := by
  unfold State.endDesc
  exact ((Ends.on s (f := fun c => c.dropRuns j) rfl fun d => d).trans (Ends.leave id k _ j)).trans (Ends.setStrand _ _ fun _ => rfl)

theorem Ends.cancelMember (id k : Nat) (s : State) (j i : Nat) : Ends id k s (s.cancelMember j i) := by
  unfold State.cancelMember
  dsimp only
  split
  · exact (Ends.endDesc id k s j 0x21).trans (Ends.setStrand _ _ fun h => h)
  · exact Ends.refl _ _ _

theorem Ends.closeTxn (id k : Nat) (s : State) (i : Nat) : Ends id k s (s.on (fun c => c.closeTxn i)) :=
  Ends.on s rfl fun dead x hx own => dead x (List.mem_filter.1 hx).1 own

/-- An open transaction that is marked aborted is discarded: its members still running are cancelled and its commits end. -/
theorem State.markAborted_discards (s : State) {id k : Nat} {x : Txn} (found : s.core.txn? id = some x) (live : x.aborted = false) (free : x.decided = false) (but : Nat) :
    (s.markAborted id but).core.mem = s.core.mem ∧ ((s.strand k).phase = .done → ((s.markAborted id but).strand k).phase = .done)
    ∧ ∀ y, (s.markAborted id but).core.txn? id = some y → y.Discarded := by
  have marked : ∀ y ∈ (s.core.setTxn id Txn.discard).txns, y.id = id → y.Discarded := by
    intro y hy own
    obtain ⟨t, _, rfl⟩ := List.mem_map.1 hy
    by_cases h : t.id = id
    · simp only [h, beq_self_eq_true, if_true]; exact t.discarded_discard
    · simp only [beq_false_of_ne h, Bool.false_eq_true, if_false] at own; exact absurd own h
  have raised (u : State) (p i : Nat) : Ends id k u (u.on (fun c => c.raise p i)) := Ends.on u (Core.raise_mem _ _ _) fun d => d
  have steps (u : State) : Ends id k (s.on (fun c => (c.setTxn id Txn.discard).raise 5 5)) u → (u.core.mem = s.core.mem ∧ ((s.strand k).phase = .done → (u.strand k).phase = .done)
      ∧ ∀ y, u.core.txn? id = some y → y.Discarded) := fun h =>
    ⟨h.mem.trans (Core.raise_mem _ _ _), h.done, fun y hy => h.dead marked y (List.mem_of_find?_eq_some hy) (Core.id_of_txn? hy)⟩
  refine steps _ ?_
  unfold State.markAborted
  rw [found]
  dsimp only
  rw [if_neg (by simp [live, free])]
  refine Ends.trans ?_ (Ends.foldl _ (fun u w => ?_) _ _)
  · refine Ends.trans ?_ (Ends.foldl _ (fun u j => Ends.cancelMember id k u j id) _ _)
    split
    · exact raised _ _ _
    · exact Ends.refl _ _ _
  · split
    · exact Ends.endDesc id k u _ _
    · split
      · exact Ends.closeTxn id k u id
      · exact Ends.refl _ _ _
    · exact Ends.refl _ _ _

/-! ### Waiting at a transaction -/

/-- A commit or prepare that waits: its transaction holds it, and its strand is busy. -/
theorem State.await_facts (s : State) {k : Nat} (id : Nat) (w : Waiter) (present : k < s.ctl.strands.length) :
    ((s.await k id w).strand k).phase = .busy ∧ (∃ x, (s.await k id w).core.txn? id = some x ∧ w ∈ x.waiters) ∧ (s.await k id w).core.mem = s.core.mem
    ∧ (s.await k id w).core.regs = s.core.regs ∧ ∀ j, j ≠ k → (s.await k id w).strand j = s.strand j := by
  have expected : ∃ x, (s.core.expectTxn id).txn? id = some x := by
    unfold Core.expectTxn
    cases h : s.core.txn? id with
    | none => exact ⟨_, Core.txn?_append (x := { id := id, opened := false }) h⟩
    | some x => exact ⟨x, h⟩
  obtain ⟨x, found⟩ := expected
  have mem : (s.core.expectTxn id).mem = s.core.mem := by unfold Core.expectTxn; split <;> rfl
  have regs : (s.core.expectTxn id).regs = s.core.regs := by unfold Core.expectTxn; split <;> rfl
  unfold State.await
  refine ⟨?_, ⟨{ x with waiters := x.waiters ++ [w] }, ?_, by simp⟩, mem, regs, fun j ne => State.strand_setStrand_ne _ _ _ _ ne⟩
  · rw [State.strand_setStrand_eq]; exact present
  · exact (Core.txn?_setTxn (s.core.expectTxn id) id (by simp)).trans (by rw [found]; rfl)

theorem txnPrepare_awaits {s : State} {k : Nat} (ready : s.control k 0x06 = true) : txnPrepare s k =
    s.await k ((s.strand k).f 24 0 8) { kind := .participant, strand := k, node := (s.actOf k).getD s.core.node, coord := (s.strand k).f 26 0 16, group := (s.strand k).f 28 0 16, needed := (s.strand k).f 32 0 32, readyAt := s.core.ct } :=
  if_pos ready

/-- Whether TXN_COMMIT finds its transaction aborted. -/
def Core.abortedTxn (c : Core) (id : Nat) : Bool := match c.txn? id with | some x => x.aborted | none => false

theorem Core.abortedTxn_iff (c : Core) (id : Nat) : c.abortedTxn id = true ↔ ∃ x, c.txn? id = some x ∧ x.aborted = true := by
  unfold Core.abortedTxn
  cases c.txn? id <;> simp

theorem txnCommit_eq {s : State} {k : Nat} (ready : s.control k 0x07 = true) : txnCommit s k =
    if (s.strand k).f 25 0 1 = 0 ∧ s.core.abortedTxn ((s.strand k).f 24 0 8) = true then s.ends k (fun t => { t with comp := { t.comp with status := max t.comp.status 0x21 } })
    else s.await k ((s.strand k).f 24 0 8) { kind := if (s.strand k).f 25 0 1 = 0 then .localCommit else .coordinator, strand := k, node := (s.actOf k).getD s.core.node, group := (s.strand k).f 26 0 16, needed := (s.strand k).f 28 0 32, voters := (s.strand k).f 32 0 32, pubTime := (s.strand k).f 40 0 64, readyAt := s.core.ct } :=
  if_pos ready

/-- Whether TXN_ABORT finds its transaction open. -/
def Core.isOpenTxn (c : Core) (id : Nat) : Bool := match c.txn? id with | some x => x.opened | none => false

theorem Core.isOpenTxn_iff (c : Core) (id : Nat) : c.isOpenTxn id = true ↔ ∃ x, c.txn? id = some x ∧ x.opened = true := by
  unfold Core.isOpenTxn
  cases c.txn? id <;> simp

theorem txnAbort_eq {s : State} {k : Nat} (ready : s.control k 0x08 = true) : txnAbort s k =
    if s.core.isOpenTxn ((s.strand k).f 24 0 8) then (s.ends k (fun t => t)).markAborted ((s.strand k).f 24 0 8) k else s.ends k (fun t => t) :=
  if_pos ready

/-- Settles O35: what waits is held by its transaction, and what is marked aborted is discarded. -/
theorem transactionDescriptors : Obligations.TransactionDescriptors := by
  intro s k t id
  have present {op : Nat} (ready : s.control k op = true) : k < s.ctl.strands.length := State.lt_of_phase _ _ (State.control_phase ready) (by decide)
  refine ⟨fun ready => ?_, fun ready clean => ?_, fun x ready loc found aborted => ?_, fun x ready found isOpen clean free => ?_, fun ready closed => ?_⟩
  · obtain ⟨phase, held, mem, regs, others⟩ := s.await_facts id { kind := .participant, strand := k, node := (s.actOf k).getD s.core.node, coord := t.f 26 0 16, group := t.f 28 0 16, needed := t.f 32 0 32, readyAt := s.core.ct } (present ready)
    exact ⟨_, _, congrArg (fun u => Host.Outcome.next (finish s u)) (txnPrepare_awaits ready), phase, held, rfl, rfl, rfl, rfl, rfl, mem, regs, others⟩
  · have waits : ¬(t.f 25 0 1 = 0 ∧ s.core.abortedTxn id = true) := by
      rintro ⟨loc, ab⟩
      obtain ⟨x, found, h⟩ := (s.core.abortedTxn_iff id).1 ab
      obtain other | all := clean
      · omega
      · rw [all x found] at h; cases h
    obtain ⟨phase, held, mem, regs, others⟩ := s.await_facts id { kind := if t.f 25 0 1 = 0 then .localCommit else .coordinator, strand := k, node := (s.actOf k).getD s.core.node, group := t.f 26 0 16, needed := t.f 28 0 32, voters := t.f 32 0 32, pubTime := t.f 40 0 64, readyAt := s.core.ct } (present ready)
    exact ⟨_, _, congrArg (fun u => Host.Outcome.next (finish s u)) ((txnCommit_eq ready).trans (if_neg waits)), phase, held, rfl, rfl, rfl, rfl, rfl, rfl, mem, regs, others⟩
  · exact congrArg (fun u => Host.Outcome.next (finish s u)) ((txnCommit_eq ready).trans (if_pos ⟨loc, (s.core.abortedTxn_iff id).2 ⟨x, found, aborted⟩⟩))
  · obtain ⟨mem, done, dead⟩ := (s.ends k (fun t => t)).markAborted_discards (id := id) (k := k) (x := x) found clean free k
    refine ⟨_, congrArg (fun u => Host.Outcome.next (finish s u)) ((txnAbort_eq ready).trans (if_pos ((s.core.isOpenTxn_iff id).2 ⟨x, found, isOpen⟩))), done ?_, mem, fun y hy => ?_⟩
    · rw [State.ends, State.strand_setStrand_eq _ _ _ (present ready)]
    · obtain ⟨aborted, stage, regs, notices⟩ := dead y hy
      exact ⟨aborted, stage, regs, notices⟩
  · refine congrArg (fun u => Host.Outcome.next (finish s u)) ((txnAbort_eq ready).trans (if_neg fun h => ?_))
    obtain ⟨x, found, isOpen⟩ := (s.core.isOpenTxn_iff id).1 h
    exact absurd isOpen (by rw [closed x found]; decide)

end Sys2Proof.Machine
end

section
/-! SUPPORT. Register writes and publications take no strand away. -/
namespace Sys2Proof.Machine
open Sys2Proof

-- Threads that wait for the kernel keep their stacks, and the check limits the memory of one text.
set_option Elab.async false

/-- From `s` to `t` the number of strands stays. -/
structure Staffed (s t : State) : Prop where
  length : t.ctl.strands.length = s.ctl.strands.length

namespace Staffed
variable {s t u : State}

theorem refl (s : State) : Staffed s s := ⟨rfl⟩

theorem same (h : Staffed s t) (e : u.ctl.strands.length = t.ctl.strands.length := by rfl) : Staffed s u := ⟨e.trans h.length⟩

theorem ite {c : Prop} [Decidable c] (h : Staffed s t) (k : Staffed s u) : Staffed s (if c then t else u) := by split <;> assumption

theorem foldl {α : Type} {f : State → α → State} {l : List α} (step : ∀ u a, Staffed s u → Staffed s (f u a)) (h : Staffed s t) : Staffed s (l.foldl f t) :=
  List.foldlRecOn (motive := Staffed s) l f h fun u hu a _ => step u a hu

theorem setStrand {k : Nat} {f : Strand → Strand} (h : Staffed s t) : Staffed s (t.setStrand k f) := h.same (State.setStrand_length _ _ _)

theorem on {g : Core → Core} (h : Staffed s t) : Staffed s (t.on g) := ⟨h.length⟩

theorem onSync {g : Sync → Sync} (h : Staffed s t) : Staffed s (t.onSync g) := ⟨h.length⟩
theorem onPwr {g : Power → Power} (h : Staffed s t) : Staffed s (t.onPwr g) := ⟨h.length⟩
theorem onJob {g : Job → Job} (h : Staffed s t) : Staffed s (t.onJob g) := ⟨h.length⟩
theorem setEvent {i v : Nat} (h : Staffed s t) : Staffed s (t.setEvent i v) := ⟨h.length⟩
theorem withDev {x : Dx} (h : Staffed s t) : Staffed s (t.withDev x) := ⟨h.length⟩

theorem clrCounts {p : Nat} (h : Staffed s t) : Staffed s (t.clrCounts p) := by
  unfold State.clrCounts
  split
  · exact h
  · exact ite (same (ite h.same h.same) (List.length_map _)) (ite h.same h.same)

theorem shadowWrite {p v : Nat} (h : Staffed s t) : Staffed s (t.shadowWrite p v) := by
  unfold State.shadowWrite
  extract_lets k s1 s2 s3
  have h2 : Staffed s s2 := ite h.same h.same
  have h3 : Staffed s s3 := h2.same.ite h2
  clear_value s3
  have h4 : Staffed s (if bit v 0 = true then (if s3.core.reg (p * 4096 + 0x24) + s3.core.reg (p * 4096 + 0x28) * 2 ^ 32 < s3.core.ct then (s3.fireSwap p).on (fun c => (c.setBit k 5 true).lateEvent)
      else { s3.on (fun c => c.setBit k 0 true) with ctl := { s3.ctl with armTime := sput s3.ctl.armTime p (s3.core.reg (p * 4096 + 0x24) + s3.core.reg (p * 4096 + 0x28) * 2 ^ 32) } }) else s3) :=
    (h3.same.ite h3.same).ite h3
  exact h4.same.ite h4

theorem writeHeader {p o v : Nat} (h : Staffed s t) : Staffed s (t.writeHeader p o v) := by
  unfold State.writeHeader
  extract_lets k
  split
  · exact h.clrCounts.ite h
  · exact h.same
  · exact h.same
  · exact h.same
  · exact h.same.ite h
  · exact h.shadowWrite
  · exact h.same
  · exact h.same
  · exact h

theorem endDesc {k st : Nat} (h : Staffed s t) : Staffed s (t.endDesc k st) := by
  unfold State.endDesc
  exact setStrand h.same

theorem stopStrand {k reason : Nat} {fault : Bool} (h : Staffed s t) : Staffed s (t.stopStrand k reason fault) := by
  unfold State.stopStrand
  exact h.setStrand.on

theorem startStrand {k index : Nat} {restart : Bool} (h : Staffed s t) : Staffed s (t.startStrand k index restart) := by
  unfold State.startStrand
  refine h.ite ?_
  extract_lets off s0 s1 s2
  have h1 : Staffed s s1 := ⟨h.length⟩
  exact h1.setStrand.on.ite h1.setStrand

theorem cancelStrand {k reason : Nat} (h : Staffed s t) : Staffed s (t.cancelStrand k reason) := h.ite (h.stopStrand.ite (h.ite h.endDesc).setStrand)

theorem writeStrand {k r v : Nat} (h : Staffed s t) : Staffed s (t.writeStrand k r v) := by
  unfold State.writeStrand
  split
  · refine ite ?_ ?_
    · exact ite (startStrand h.same) h.same
    · exact ite (cancelStrand h.same) (ite (setStrand h.same) h.same)
  · exact h.same
  · exact h.same
  · exact h.same
  · exact h

theorem messaged (h : Staffed s t) (m : Messaged t u) : Staffed s u := h.same (by rw [m.frame.2.1])

theorem sendVector {v : Nat} (h : Staffed s t) : Staffed s (t.sendVector v) := h.ite (h.on.ite h.on)

theorem eoi {hi : Bool} {vecs : Nat} (h : Staffed s t) : Staffed s (t.eoi hi vecs) := by
  unfold State.eoi
  exact h.foldl fun u i hu => ite hu.sendVector hu

theorem follow {p : Option Nat} (h : Staffed s t) : Staffed s (t.follow p) := by
  unfold State.follow
  split
  · exact h.onSync
  · exact h.ite h.on.onSync

theorem becomeFollower (h : Staffed s t) : Staffed s t.becomeFollower := by
  unfold State.becomeFollower
  exact follow h.on.onSync

theorem roleWritten {old : Nat} (h : Staffed s t) : Staffed s (t.roleWritten old) := by
  unfold State.roleWritten State.freeRun
  extract_lets new s1 s2
  have h1 : Staffed s s1 := h.onSync.ite h
  have h2 : Staffed s s2 := ite (on h1 |>.onSync) (h1.becomeFollower.ite h1)
  exact h2.onSync.ite h2

theorem setTime {v : Nat} (h : Staffed s t) : Staffed s (t.setTime v) := h.on.onSync.ite h.onSync

theorem loadTime (h : Staffed s t) : Staffed s t.loadTime := by
  unfold State.loadTime
  split
  · exact h
  · exact h.setTime.onSync.ite h.onSync

theorem armTimeLoad (h : Staffed s t) : Staffed s t.armTimeLoad := by
  unfold State.armTimeLoad
  exact ite (ite h.onSync h.onSync.loadTime) h

theorem devEffect {off v old : Nat} (h : Staffed s t) : Staffed s (t.devEffect off v old) :=
  h.roleWritten.ite (h.armTimeLoad.ite (h.onPwr.ite (h.setEvent.ite (h.setEvent.ite (h.on.ite (h.on.ite (h.eoi.ite (h.eoi.ite
    ((h.same.ite h.on).ite ((h.same.ite h).ite ((h.same.ite h).ite (h.onJob.ite (h.ite h)))))))))))))

theorem quarterEffect {b q o v old : Nat} (h : Staffed s t) : Staffed s (t.quarterEffect b q o v old) :=
  h.on.ite (h.on.ite ((h.on.ite h).ite (((h.on.ite h).on.ite (h.on.ite h)).on.ite ((h.on.ite h).on.ite (h.on.ite h)) |>.ite
    (h.on.ite ((h.on.ite h).ite (h.on.ite ((h.on.on.ite h.on).ite h)))))))

theorem writeWord {off v : Nat} (h : Staffed s t) : Staffed s (t.writeWord off v) := by
  have fields (p off v : Nat) (d : RegDef) : Staffed s (t.writeFields p off d v) := by unfold State.writeFields; exact h.same
  have table (off v : Nat) : Staffed s (t.writeTable off v) := by
    unfold State.writeTable
    exact ite (h.on.messaged (Messaged.deliverPending _)) h
  unfold State.writeWord
  extract_lets v page
  split
  · exact h
  · refine h.writeHeader.ite ?_
    split
    · exact h.writeStrand
    · refine (table _ _).ite ?_
      split
      · exact h
      · exact h.ite (h.on.ite ((fields _ _ _ _).devEffect.ite (fields _ _ _ _).quarterEffect))

/-! ### Publication -/

theorem boundaryEffects {x : Txn} {time : Nat} (h : Staffed s t) : Staffed s (t.boundaryEffects x time) := by
  unfold State.boundaryEffects
  exact ⟨h.length⟩

/-- What a publication does before its waiting descriptors complete (R97). -/
theorem published {x : Txn} (h : Staffed s t) : Staffed s (x.stageRegs.foldl (fun (u : State) r => u.writeWord r.1 r.2) (t.on fun c => c.publishBytes x)) :=
  foldl (fun _ _ hu => hu.writeWord) h.on

end Staffed
end Sys2Proof.Machine
end

section
/-! SUPPORT. Votes, decisions and publications (R97, R101 to R103, R614, R615). -/
namespace Sys2Proof.Machine
open Sys2Proof

-- Threads that wait for the kernel keep their stacks, and the check limits the memory of one text.
set_option Elab.async false

/-! ### A publication completes what waits for it -/

/-- A waiting descriptor completes with its transaction's publication. -/
def State.completeWaiter (s : State) (w : Waiter) : State :=
  if w.strand < 64 then s.setStrand w.strand (fun d => { d with phase := .done, tWdog := s.core.ct, comp := { d.comp with tEnd := some s.core.ct } }) else s

/-- A strand whose descriptor's completion time is fixed (R97). -/
def Strand.completed (t : Strand) : Prop := t.phase = .done ∧ t.comp.tEnd.isSome = true

theorem State.completeWaiter_length (s : State) (w : Waiter) : (s.completeWaiter w).ctl.strands.length = s.ctl.strands.length := by
  unfold State.completeWaiter
  split
  · exact State.setStrand_length _ _ _
  · rfl

theorem State.completeWaiter_completes (s : State) {w : Waiter} (small : w.strand < 64) (present : w.strand < s.ctl.strands.length) : ((s.completeWaiter w).strand w.strand).completed := by
  rw [State.completeWaiter, if_pos small, State.strand_setStrand_eq _ _ _ present]
  exact ⟨rfl, rfl⟩

theorem State.completeWaiter_keeps (s : State) (w : Waiter) {k : Nat} (h : (s.strand k).completed) : ((s.completeWaiter w).strand k).completed := by
  unfold State.completeWaiter
  split
  · by_cases own : k = w.strand
    · by_cases present : w.strand < s.ctl.strands.length
      · rw [own, State.strand_setStrand_eq _ _ _ present]; exact ⟨rfl, rfl⟩
      · rw [State.strand_of_le _ _ (by omega)] at h; cases h.1
    · rw [State.strand_setStrand_ne _ _ _ _ own]; exact h
  · exact h

theorem State.foldl_completeWaiter (l : List Waiter) (s : State) {w : Waiter} (mem : w ∈ l) (small : w.strand < 64) (present : w.strand < s.ctl.strands.length) :
    ((l.foldl State.completeWaiter s).strand w.strand).completed := by
  have keeps (l : List Waiter) (s : State) (h : (s.strand w.strand).completed) : ((l.foldl State.completeWaiter s).strand w.strand).completed := by
    induction l generalizing s with
    | nil => exact h
    | cons v l ih => exact ih _ (s.completeWaiter_keeps v h)
  induction l generalizing s with
  | nil => cases mem
  | cons v l ih =>
    obtain rfl | later := List.mem_cons.1 mem
    · exact keeps l _ (s.completeWaiter_completes small present)
    · exact ih _ later (by rw [State.completeWaiter_length]; exact present)

theorem Core.txn?_closeTxn (c : Core) (id : Nat) : (c.closeTxn id).txn? id = none := by
  rw [Core.txn?, Core.closeTxn, List.find?_eq_none]
  intro x hx
  simpa using (List.mem_filter.1 hx).2

/-- A publication, up to the completion of what waits for it (R97). -/
def State.publishing (s : State) (id : Nat) (t : Txn) (time : Nat) : State :=
  let s2 := t.stageRegs.foldl (fun (u : State) r => u.writeWord r.1 r.2) (s.on (fun c => c.publishBytes t))
  let s3 := s2.withDev (publishNotices (s2.dev ((embQuarter s2.core).getD 0) none) (s2.core.emb.boundaries + b2n (s2.core.isBoundary id)) t.notices t.adopted)
  let s4 := s3.on (fun c => c.publishEpoch id)
  let s5 := if s4.core.isBoundary id then s4.boundaryEffects t time else s4
  s5.on (fun c => c.setReg Reg.twinJrnlPeak (max (c.reg Reg.twinJrnlPeak) (ceilDiv s4.core.journal 65536)))

theorem State.publishing_length (s : State) (id : Nat) (t : Txn) (time : Nat) : (s.publishing id t time).ctl.strands.length = s.ctl.strands.length := by
  unfold State.publishing
  extract_lets s2 s3 s4 s5
  have h3 : Staffed s s3 := (Staffed.published (Staffed.refl s)).withDev
  have h5 : Staffed s s5 := h3.on.boundaryEffects.ite h3.on
  exact h5.on.length

theorem State.publish_eq {s : State} {id time : Nat} {x : Txn} (found : s.core.txn? id = some x) (decided : x.decision = some (true, time)) (now : s.core.deferred id = false) :
    s.publish id = (x.waiters.foldl State.completeWaiter (s.publishing id x time)).on (fun c => c.closeTxn id) := by
  unfold State.publish
  rw [found]
  dsimp only
  rw [decided]
  dsimp only
  rw [now]
  rfl

/-! ### Decisions -/

/-- A participant that takes a decision to commit (R102). -/
def State.decides (s : State) (d : Decision) : State :=
  (s.on (fun c => c.setTxn d.txn (fun t => { t with decision := some (true, d.time), freq := if c.isBoundary d.txn then some d.freq else none }))).onJob
    (fun j => { j with decided := j.decided.filter (fun e => e.1 != (d.group, d.txn)) ++ [((d.group, d.txn), d.time)] })

theorem State.takeCommit_eq {s : State} {d : Decision} {x : Txn} (found : s.core.txn? d.txn = some x) : s.takeCommit d =
    if x.decision.isSome || !x.awaits d.group || s.core.job.decided.contains ((d.group, d.txn), d.time) then s
    else if x.aborted then s.discardTxn d.txn
    else if d.time < s.core.ct then (((s.before (s.edge s.core.ct, 0, d.txn)).decides d).on Core.lateEvent).publish d.txn
    else if s.noEntry then { s with ctl := { s.ctl with decWait := s.ctl.decWait ++ [d] } }
    else s.decides d := by
  unfold State.takeCommit
  rw [found]
  rfl

theorem State.takeCommit_again {s : State} {d : Decision} {x : Txn} (found : s.core.txn? d.txn = some x) (again : ((d.group, d.txn), d.time) ∈ s.core.job.decided) :
    s.takeCommit d = s := by
  rw [State.takeCommit_eq found, if_pos (by simp [again])]

section
variable {s : State} {d : Decision} {x : Txn} (found : s.core.txn? d.txn = some x) (undecided : x.decision = none) (prepared : x.awaits d.group = true)
include found undecided prepared

variable (fresh : ((d.group, d.txn), d.time) ∉ s.core.job.decided)
include fresh

theorem State.takeCommit_fresh : s.takeCommit d =
    if x.aborted then s.discardTxn d.txn
    else if d.time < s.core.ct then (((s.before (s.edge s.core.ct, 0, d.txn)).decides d).on Core.lateEvent).publish d.txn
    else if s.noEntry then { s with ctl := { s.ctl with decWait := s.ctl.decWait ++ [d] } } else s.decides d := by
  rw [State.takeCommit_eq found, if_neg (by simp [undecided, prepared, fresh])]

theorem State.takeCommit_aborted (aborted : x.aborted = true) : s.takeCommit d = s.discardTxn d.txn := by
  rw [State.takeCommit_fresh found undecided prepared fresh, if_pos aborted]

theorem State.takeCommit_late (live : x.aborted = false) (late : d.time < s.core.ct) :
    s.takeCommit d = (((s.before (s.edge s.core.ct, 0, d.txn)).decides d).on Core.lateEvent).publish d.txn := by
  rw [State.takeCommit_fresh found undecided prepared fresh, if_neg (by simp [live]), if_pos late]

theorem State.takeCommit_waits (live : x.aborted = false) (early : s.core.ct ≤ d.time) (full : s.noEntry = true) :
    s.takeCommit d = { s with ctl := { s.ctl with decWait := s.ctl.decWait ++ [d] } } := by
  rw [State.takeCommit_fresh found undecided prepared fresh, if_neg (by simp [live]), if_neg (Nat.not_lt.2 early), if_pos full]

theorem State.takeCommit_decides (live : x.aborted = false) (early : s.core.ct ≤ d.time) (room : s.noEntry = false) : s.takeCommit d = s.decides d := by
  rw [State.takeCommit_fresh found undecided prepared fresh, if_neg (by simp [live]), if_neg (Nat.not_lt.2 early), if_neg (by simp [room])]

end

/-- A decision to abort that concerns no boundary step of a running job (R102). -/
theorem State.takeDecision_abort {s : State} {d : Decision} (abort : d.commit = false) (plain : s.core.isBoundary d.txn = false ∨ s.core.inJob = false) :
    s.takeDecision d = match s.core.txn? d.txn with | some t => if t.awaits d.group then s.discardTxn d.txn else s | none => s := by
  unfold State.takeDecision
  exact (if_neg (by simp [abort])).trans (if_neg (by obtain h | h := plain <;> simp [h]))

/-- A decision for which no transaction was prepared (R102). -/
theorem State.takeDecision_unprepared {s : State} {d : Decision} (unprepared : ∀ x, s.core.txn? d.txn = some x → x.awaits d.group = false)
    (plain : d.commit = true ∨ s.core.isBoundary d.txn = false ∨ s.core.inJob = false) : s.takeDecision d = s := by
  by_cases commit : d.commit = true
  · rw [State.takeDecision, if_pos commit]
    cases found : s.core.txn? d.txn with
    | none => unfold State.takeCommit; rw [found]
    | some x => rw [State.takeCommit_eq found, if_pos (by simp [unprepared x found])]
  · rw [State.takeDecision_abort (Bool.eq_false_iff.2 commit) (plain.resolve_left commit)]
    cases found : s.core.txn? d.txn with
    | none => rfl
    | some x => exact if_neg (by simp [unprepared x found])

/-! ### Votes -/

/-- A vote is kept with its arrival, in place of the node's earlier one (R101). -/
def State.keepsVote (s : State) (v : Vote) : State :=
  { s with ctl := { s.ctl with votes := s.ctl.votes.filter (fun x => !(x.1.group == v.group && x.1.txn == v.txn && x.1.node == v.node)) ++ [(v, s.core.ct)] } }

/-- Whether a vote ends the boundary step of the running job (R614). -/
def State.voteEnds (s : State) (v : Vote) : Bool := !v.commit && s.core.isBoundary v.txn && s.core.isLeader && s.core.inJob

theorem State.voteEnds_iff (s : State) (v : Vote) : s.voteEnds v = true ↔ v.commit = false ∧ s.core.isBoundary v.txn = true ∧ s.core.isLeader = true ∧ s.core.inJob = true := by
  simp [State.voteEnds, and_assoc]

theorem txnVote_kept {s : State} {v : Vote} (plain : v.handBack = false) (goes : s.voteEnds v = false) : txnVote s v = s.keepsVote v := by
  unfold txnVote
  rw [if_neg (by simp [plain])]
  exact if_neg (by rw [← State.voteEnds, goes]; decide)

theorem txnVote_aborts {s : State} {v : Vote} (plain : v.handBack = false) (ends : s.voteEnds v = true) (phase : s.core.job.phase = .none)
    (undecided : ∀ t, s.core.txn? v.txn = some t → t.decision = none) : txnVote s v = s.decideAbort v.group v.txn s.core.leaderSrc := by
  unfold txnVote
  rw [if_neg (by simp [plain]), if_pos (by rw [← ends, State.voteEnds])]
  cases found : s.core.txn? v.txn with
  | none => exact if_neg (by simp [phase])
  | some t => exact if_neg (by simp [phase, undecided t found])

end Sys2Proof.Machine
namespace Sys2Proof.Machine
open Sys2Proof

/-- Settles O36: votes, decisions and publications, each by its cases. -/
theorem transactionMessages : Obligations.TransactionMessages := by
  intro s serves
  have vote (v : Vote) : exec (.txnVote v) s = .next (finish s (txnVote s v)) := congrArg (fun u => Host.Outcome.next (finish s u)) (if_pos serves)
  have decision (src : Nat) (d : Decision) (toTwin : Bool) : exec (.txnDecision src d toTwin) s = .next (finish s (txnDecision s src d toTwin)) := congrArg (fun u => Host.Outcome.next (finish s u)) (if_pos serves)
  have ack (g id : Nat) : exec (.decisionAck g id) s = .next (finish s (decisionAck s g id)) := congrArg (fun u => Host.Outcome.next (finish s u)) (if_pos serves)
  have direct (src : Nat) (d : Decision) : txnDecision s src d false = s.takeDecision d := rfl
  have commits {d : Decision} (h : d.commit = true) : s.takeDecision d = s.takeCommit d := if_pos h
  refine ⟨fun v plain => ?_, fun v back => ?_, fun src d x commit found undecided prepared => ?_, fun src d unprepared plain => ?_, fun src d x abort plain found prepared => ?_,
    fun src d => ?_, fun h held found => ?_, fun time id live due first => ?_, fun id x time found decided now => ?_⟩
  · intro kept ends
    rw [vote]
    exact ⟨fun goes => by rw [txnVote_kept plain (Bool.eq_false_iff.2 fun h => goes ((s.voteEnds_iff v).1 h))]; rfl,
      fun stops phase undecided => by rw [txnVote_aborts plain ((s.voteEnds_iff v).2 stops) phase undecided]⟩
  · rw [vote, txnVote, if_pos back]
  · intro decided again
    rw [decision, direct, commits commit]
    exact ⟨fun h => by rw [State.takeCommit_again found h], fun h live early room => by rw [State.takeCommit_decides found undecided prepared h live early room]; rfl,
      fun h live early full => by rw [State.takeCommit_waits found undecided prepared h live early full], fun h live late => by rw [State.takeCommit_late found undecided prepared h live late]; rfl,
      fun h aborted => by rw [State.takeCommit_aborted found undecided prepared h aborted]⟩
  · rw [decision, direct, State.takeDecision_unprepared unprepared plain]
  · rw [decision, direct, State.takeDecision_abort abort plain, found]
    exact congrArg (fun u => Host.Outcome.next (finish s u)) (if_pos prepared)
  · exact ⟨_, decision src d true, List.mem_append_right _ (List.mem_singleton.2 rfl), rfl, rfl, rfl⟩
  · have acked : decisionAck s h.dec.group h.dec.txn = (s.onJob (fun j => { j with held := j.held.filter (fun x => x != h) })).on (fun c => c.postAll h.nodes (.decision h.dec) h.src) := by
      unfold decisionAck
      rw [found]
    refine ⟨_, by rw [ack, acked], fun mem => ?_, rfl⟩
    simpa using (List.mem_filter.1 mem).2
  · refine congrArg (fun u => Host.Outcome.next (finish s u)) ((if_pos live).trans ?_)
    have head : (sortBy eventLe (s.dueEvents.filter (fun e => e.2.1 == 0))).head? = some (time, 0, id) :=
      sortBy_eventLe_head (List.mem_filter.2 ⟨due, rfl⟩) fun e he => by
        obtain ⟨mem, kind⟩ := List.mem_filter.1 he
        have kind : e.2.1 = 0 := by simpa using kind
        have := first e mem kind
        rw [eventLe_iff]
        dsimp only
        omega
    unfold txnPublish
    rw [head]
  · rw [State.publish_eq found decided now]
    refine ⟨Core.txn?_closeTxn _ _, fun w mem small present => ?_⟩
    exact State.foldl_completeWaiter x.waiters (s.publishing id x time) mem small (by rw [State.publishing_length]; exact present)

end Sys2Proof.Machine
end

section
/-! SUPPORT. Shadow sets: what a write of SHADOW_CTRL and a swap that fires leave (R105 to R109). -/
namespace Sys2Proof.Machine
open Sys2Proof

-- Threads that wait for the kernel keep their stacks, and the check limits the memory of one text.
set_option Elab.async false

theorem Core.testBit_setBit (c : Core) (key : Nat) {i j : Nat} (b : Bool) (hi : i < 32) (hj : j < 32) :
    ((c.setBit key i b).reg key).testBit j = if j = i then b else (c.reg key).testBit j := by
  rw [Core.setBit, Core.testBit_setFld, decide_eq_true hj, Bool.true_and]
  by_cases h : j = i
  · subst h
    rw [if_pos (by omega), if_pos rfl, Nat.sub_self]
    cases b <;> rfl
  · rw [if_neg (by omega), if_neg h]

theorem Core.reg_setBit_ne (c : Core) {key j : Nat} (i : Nat) (b : Bool) (h : j ≠ key) : (c.setBit key i b).reg j = c.reg j := c.reg_setReg_ne _ _ _ h

/-! ### A swap -/

theorem powerRegs_body : ∀ r ∈ blockRegs 6, 0x40 ≤ r.off ∧ r.off < 4096 := by decide

/-- From `c` to `d` only block registers of the power page changed. -/
structure Swapped (c d : Core) : Prop where
  regs : ∀ key, key / 4096 ≠ 6 ∨ key % 4096 < 0x40 → d.reg key = c.reg key
  mem : d.mem = c.mem
  ct : d.ct = c.ct

theorem Swapped.refl (c : Core) : Swapped c c := ⟨fun _ _ => rfl, rfl, rfl⟩

theorem Swapped.trans {c d e : Core} (h : Swapped c d) (k : Swapped d e) : Swapped c e := ⟨fun key hk => (k.regs key hk).trans (h.regs key hk), k.mem.trans h.mem, k.ct.trans h.ct⟩

theorem Swapped.setReg (c : Core) {off : Nat} (v : Nat) (h : 0x40 ≤ off) (h' : off < 4096) : Swapped c (c.setReg (6 * 4096 + off) v) :=
  ⟨fun _ hk => c.reg_setReg_ne _ _ _ (by omega), c.setReg_mem _ _, rfl⟩

theorem Swapped.swapPage (c : Core) (page : Nat) : Swapped c (c.swapPage page) := by
  unfold Core.swapPage
  split
  · next power =>
    refine List.foldlRecOn (motive := Swapped c) _ _ (Swapped.refl c) fun d hd r hr => ?_
    split
    · exact hd
    · obtain ⟨low, high⟩ := powerRegs_body r hr
      exact hd.trans (power ▸ Swapped.setReg d _ low high)
  · exact Swapped.refl c

/-! ### What a write of SHADOW_CTRL keeps -/

/-- From `s` to `t` SHADOW_CTRL of a page may have other arms, and the power page other active values; memory, strands, cluster time, the latched times and the late count stay. -/
structure Armed (page : Nat) (s t : State) : Prop where
  mem : t.core.mem = s.core.mem
  strands : t.ctl.strands = s.ctl.strands
  ct : t.core.ct = s.core.ct
  regs : ∀ key, key ≠ shadowCtrl page → key / 4096 ≠ 6 ∨ key % 4096 < 0x40 → t.core.reg key = s.core.reg key
  strand : t.core.fld (shadowCtrl page) 8 6 = s.core.fld (shadowCtrl page) 8 6

namespace Armed
variable {page : Nat} {s t u : State}

theorem refl (page : Nat) (s : State) : Armed page s s := ⟨rfl, rfl, rfl, fun _ _ _ => rfl, rfl⟩

theorem trans (h : Armed page s t) (k : Armed page t u) : Armed page s u :=
  ⟨k.mem.trans h.mem, k.strands.trans h.strands, k.ct.trans h.ct, fun key a b => (k.regs key a b).trans (h.regs key a b), k.strand.trans h.strand⟩

theorem setBit (s : State) {i : Nat} (b : Bool) (h : i < 8) : Armed page s (s.on (fun c => c.setBit (shadowCtrl page) i b)) :=
  ⟨Core.setBit_mem _ _ _ _, rfl, rfl, fun _ ne _ => s.core.reg_setBit_ne _ _ ne, s.core.fld_setFld_other _ _ (by decide) (by omega)⟩

theorem swapPage (s : State) : Armed page s (s.on (fun c => c.swapPage page)) := by
  have swapped := Swapped.swapPage s.core page
  refine ⟨swapped.mem, rfl, swapped.ct, fun key _ h => swapped.regs key h, ?_⟩
  rw [Core.fld, Core.fld, State.on_core, swapped.regs _ (Or.inr (by rw [shadowCtrl]; omega))]

theorem ctl (h : Armed page s t) {u : State} (core : u.core = t.core := by rfl) (strands : u.ctl.strands = t.ctl.strands := by rfl) : Armed page s u :=
  ⟨core ▸ h.mem, strands.trans h.strands, core ▸ h.ct, fun key a b => core ▸ h.regs key a b, core ▸ h.strand⟩

theorem disarm (s : State) : Armed page s (s.disarm page) :=
  ctl ((setBit s false (i := 0) (by decide)).trans (setBit _ false (i := 1) (by decide)))

theorem fireSwap (s : State) : Armed page s (s.fireSwap page) := (disarm s).trans (swapPage _)

end Armed

/-- A page that is disarmed has neither arm, and no time latched; bit 5 stays. -/
theorem State.disarm_arms (s : State) (page : Nat) : ((s.disarm page).core.reg (shadowCtrl page)).testBit 0 = false ∧ ((s.disarm page).core.reg (shadowCtrl page)).testBit 1 = false
    ∧ sfind (s.disarm page).ctl.armTime page = none := by
  refine ⟨?_, ?_, sfind_sdel_eq _ _⟩
  · exact (Core.testBit_setBit _ _ _ (by decide) (by decide)).trans ((if_neg (by decide)).trans ((Core.testBit_setBit _ _ _ (by decide) (by decide)).trans (if_pos rfl)))
  · exact (Core.testBit_setBit _ _ _ (by decide) (by decide)).trans (if_pos rfl)

theorem Swapped.shadow {c d : Core} (h : Swapped c d) (page : Nat) : d.reg (shadowCtrl page) = c.reg (shadowCtrl page) := h.regs _ (Or.inr (by rw [shadowCtrl]; omega))

theorem State.fireSwap_arms (s : State) (page : Nat) : ((s.fireSwap page).core.reg (shadowCtrl page)).testBit 0 = false ∧ ((s.fireSwap page).core.reg (shadowCtrl page)).testBit 1 = false
    ∧ sfind (s.fireSwap page).ctl.armTime page = none := by
  obtain ⟨zero, one, time⟩ := s.disarm_arms page
  have same : (s.fireSwap page).core.reg (shadowCtrl page) = (s.disarm page).core.reg (shadowCtrl page) := (Swapped.swapPage _ page).shadow page
  exact ⟨same ▸ zero, same ▸ one, time⟩

/-! ### The parts of a write of SHADOW_CTRL -/

/-- The write names its strand, and clears LATE. -/
def State.shadowNames (s : State) (page v : Nat) : State :=
  s.on (fun c => let c1 := c.setFld (shadowCtrl page) 8 6 (field v 8 6); if bit v 5 then c1.setBit (shadowCtrl page) 5 false else c1)

/-- DISARM. -/
def State.shadowDisarms (s : State) (page v : Nat) : State := if bit v 3 then s.disarm page else s

/-- ARM_DESC. -/
def State.shadowArmsDesc (s : State) (page v : Nat) : State := if bit v 1 then s.on (fun c => c.setBit (shadowCtrl page) 1 true) else s

/-- The time that the page's shadow times name. -/
def Core.shadowTime (c : Core) (page : Nat) : Nat := c.reg (page * 4096 + 0x24) + c.reg (page * 4096 + 0x28) * 2 ^ 32

/-- ARM_TIME. -/
def State.shadowArmsTime (s : State) (page v : Nat) : State :=
  if bit v 0 then
    if s.core.shadowTime page < s.core.ct then (s.fireSwap page).on (fun c => (c.setBit (shadowCtrl page) 5 true).lateEvent)
    else { s.on (fun c => c.setBit (shadowCtrl page) 0 true) with ctl := { s.ctl with armTime := sput s.ctl.armTime page (s.core.shadowTime page) } }
  else s

/-- SWAP_NOW. -/
def State.shadowSwaps (s : State) (page v : Nat) : State := if bit v 2 then s.on (fun c => c.swapPage page) else s

theorem State.shadowWrite_eq (s : State) (page v : Nat) :
    s.shadowWrite page v = ((((s.shadowNames page v).shadowDisarms page v).shadowArmsDesc page v).shadowArmsTime page v).shadowSwaps page v := rfl

/-- What a write of SHADOW_CTRL has armed before it looks at ARM_TIME. -/
theorem State.shadowNames_facts (s : State) (page v : Nat) : (s.shadowNames page v).core.mem = s.core.mem ∧ (s.shadowNames page v).ctl = s.ctl ∧ (s.shadowNames page v).core.ct = s.core.ct
    ∧ (s.shadowNames page v).core.fld (shadowCtrl page) 8 6 = v / 256 % 64 ∧ ∀ key, key ≠ shadowCtrl page → (s.shadowNames page v).core.reg key = s.core.reg key := by
  have named : (s.core.setFld (shadowCtrl page) 8 6 (field v 8 6)).fld (shadowCtrl page) 8 6 = v / 256 % 64 := by
    exact (Core.fld_setFld_eq _ _ _ (by decide)).trans ((congrArg (· % 2 ^ 6) (field_eq_div_mod v 8 6)).trans (Nat.mod_mod _ _))
  unfold State.shadowNames
  simp only [State.on]
  by_cases clear : bit v 5 = true
  · rw [if_pos clear]
    exact ⟨by simp, trivial, rfl, (Core.fld_setFld_other _ _ _ (by decide) (by decide)).trans named, fun key ne => (Core.reg_setBit_ne _ _ _ ne).trans (Core.reg_setFld_ne _ _ _ _ ne)⟩
  · rw [if_neg clear]
    exact ⟨by simp, trivial, rfl, named, fun key ne => Core.reg_setFld_ne _ _ _ _ ne⟩

theorem Armed.shadowDisarms (s : State) (page v : Nat) : Armed page s (s.shadowDisarms page v) := by
  unfold State.shadowDisarms
  split
  · exact Armed.disarm s
  · exact Armed.refl page s

theorem Armed.shadowArmsDesc (s : State) (page v : Nat) : Armed page s (s.shadowArmsDesc page v) := by
  unfold State.shadowArmsDesc
  split
  · exact Armed.setBit s true (by decide)
  · exact Armed.refl page s

/-- What a write of SHADOW_CTRL leaves before ARM_TIME: memory, strands, times and the late count as before, its strand named. -/
structure Readied (page v : Nat) (s t : State) : Prop where
  mem : t.core.mem = s.core.mem
  strands : t.ctl.strands = s.ctl.strands
  ct : t.core.ct = s.core.ct
  strand : t.core.fld (shadowCtrl page) 8 6 = v / 256 % 64
  time : t.core.shadowTime page = s.core.shadowTime page
  late : t.core.reg Reg.ctLateCount = s.core.reg Reg.ctLateCount
  desc : v.testBit 1 = true → (t.core.reg (shadowCtrl page)).testBit 1 = true
  disarmed : v.testBit 3 = true → (t.core.reg (shadowCtrl page)).testBit 0 = false ∧ sfind t.ctl.armTime page = none ∧ (v.testBit 1 = false → (t.core.reg (shadowCtrl page)).testBit 1 = false)
  kept : v.testBit 3 = false → t.ctl = s.ctl

theorem shadowCtrl_ne_time (page : Nat) : page * 4096 + 0x24 ≠ shadowCtrl page ∧ page * 4096 + 0x28 ≠ shadowCtrl page ∧ Reg.ctLateCount ≠ shadowCtrl page := by
  have : Reg.ctLateCount % 4096 ≠ 0x20 := by decide
  unfold shadowCtrl
  omega

theorem State.readied (s : State) (page v : Nat) : Readied page v s (((s.shadowNames page v).shadowDisarms page v).shadowArmsDesc page v) := by
  obtain ⟨mem, ctl, ct, strand, regs⟩ := s.shadowNames_facts page v
  obtain ⟨lo, hi, count⟩ := shadowCtrl_ne_time page
  generalize s.shadowNames page v = s1 at *
  have armed := (Armed.shadowDisarms s1 page v).trans (Armed.shadowArmsDesc (s1.shadowDisarms page v) page v)
  have armsDesc : (s1.shadowDisarms page v).shadowArmsDesc page v = if v.testBit 1 then (s1.shadowDisarms page v).on (fun c => c.setBit (shadowCtrl page) 1 true) else s1.shadowDisarms page v := rfl
  refine ⟨armed.mem.trans mem, by rw [armed.strands, ctl], armed.ct.trans ct, armed.strand.trans strand, ?_, ?_, fun one => ?_, fun three => ?_, fun three => ?_⟩
  · rw [Core.shadowTime, Core.shadowTime, armed.regs _ lo (Or.inr (by omega)), armed.regs _ hi (Or.inr (by omega)), regs _ lo, regs _ hi]
  · rw [armed.regs _ count (Or.inl (by decide)), regs _ count]
  · rw [armsDesc, if_pos one]
    exact (Core.testBit_setBit _ _ _ (by decide) (by decide)).trans (if_pos rfl)
  · obtain ⟨zero, one, time⟩ := s1.disarm_arms page
    have disarms : s1.shadowDisarms page v = s1.disarm page := if_pos three
    rw [armsDesc, disarms]
    by_cases desc : v.testBit 1 = true
    · rw [if_pos desc]
      exact ⟨(Core.testBit_setBit _ _ _ (by decide) (by decide)).trans ((if_neg (by decide)).trans zero), time, fun h => by rw [desc] at h; cases h⟩
    · rw [if_neg desc]
      exact ⟨zero, time, fun _ => one⟩
  · have keeps : s1.shadowDisarms page v = s1 := if_neg (by simp [bit, three])
    rw [armsDesc, keeps, ← ctl]
    split <;> rfl

/-! ### ARM_TIME and SWAP_NOW -/

theorem Core.lateEvent_regs (c : Core) : (∀ key, key ≠ Reg.ctLateCount → key ≠ 0x4010 → c.lateEvent.reg key = c.reg key) ∧ c.lateEvent.mem = c.mem ∧ c.lateEvent.ct = c.ct :=
  ⟨fun _ h h' => (Core.reg_raise_ne _ h').trans (Core.reg_setFld_ne _ _ _ _ h), (Core.raise_mem _ _ _).trans (Core.setFld_mem _ _ _ _ _), rfl⟩

/-- The late count after a late event follows from the one before. -/
theorem Core.lateEvent_count {c d : Core} (h : c.reg Reg.ctLateCount = d.reg Reg.ctLateCount) : c.lateEvent.reg Reg.ctLateCount = d.lateEvent.reg Reg.ctLateCount := by
  have count (e : Core) : e.lateEvent.reg Reg.ctLateCount = putField (e.reg Reg.ctLateCount) 0 32 (satAdd 32 (field (e.reg Reg.ctLateCount) 0 32) 1) % 2 ^ 32 :=
    (Core.reg_raise_ne _ (by decide)).trans (Core.reg_setReg_eq _ _ _)
  rw [count, count, h]

end Sys2Proof.Machine
end

section
/-! SUPPORT. The write of SHADOW_CTRL as a whole, and the swap that fires (R105 to R109). -/
namespace Sys2Proof.Machine
open Sys2Proof

-- Threads that wait for the kernel keep their stacks, and the check limits the memory of one text.
set_option Elab.async false

section
variable (s : State) (page v : Nat)

/-- Whether the write arms a time that has passed. -/
def State.armsLate (s : State) (page v : Nat) : Prop := v.testBit 0 = true ∧ s.core.shadowTime page < s.core.ct

/-- What ARM_TIME leaves of a page. -/
structure TimeArmed (page v : Nat) (s t : State) : Prop where
  mem : t.core.mem = s.core.mem
  strands : t.ctl.strands = s.ctl.strands
  strand : t.core.fld (shadowCtrl page) 8 6 = s.core.fld (shadowCtrl page) 8 6
  armed : v.testBit 0 = true → s.core.ct ≤ s.core.shadowTime page → (t.core.reg (shadowCtrl page)).testBit 0 = true ∧ sfind t.ctl.armTime page = some (s.core.shadowTime page)
  late : s.armsLate page v → (t.core.reg (shadowCtrl page)).testBit 0 = false ∧ (t.core.reg (shadowCtrl page)).testBit 1 = false ∧ (t.core.reg (shadowCtrl page)).testBit 5 = true
    ∧ sfind t.ctl.armTime page = none ∧ t.core.reg Reg.ctLateCount = s.core.lateEvent.reg Reg.ctLateCount
  desc : ¬s.armsLate page v → (t.core.reg (shadowCtrl page)).testBit 1 = (s.core.reg (shadowCtrl page)).testBit 1
  untimed : v.testBit 0 = false → t = s

theorem shadowCtrl_ne_late (page : Nat) : shadowCtrl page ≠ Reg.ctLateCount ∧ shadowCtrl page ≠ 0x4010 := by
  have := (shadowCtrl_ne_time page).2.2
  refine ⟨this.symm, ?_⟩
  unfold shadowCtrl
  omega

theorem State.timeArmed : TimeArmed page v s (s.shadowArmsTime page v) := by
  obtain ⟨count, status⟩ := shadowCtrl_ne_late page
  unfold State.shadowArmsTime bit
  by_cases timed : v.testBit 0 = true
  · by_cases late : s.core.shadowTime page < s.core.ct
    · have stays (d : Core) : d.lateEvent.reg (shadowCtrl page) = d.reg (shadowCtrl page) := d.lateEvent_regs.1 _ count status
      have fired := Armed.fireSwap (page := page) s
      obtain ⟨zero, one, none_⟩ := s.fireSwap_arms page
      have set := Armed.setBit (page := page) (s.fireSwap page) true (i := 5) (by decide)
      rw [if_pos timed, if_pos late]
      refine ⟨?_, fired.strands, ?_, fun _ early => absurd late (Nat.not_lt.2 early), fun _ => ⟨?_, ?_, ?_, none_, ?_⟩, fun h => absurd ⟨timed, late⟩ h, fun h => by rw [timed] at h; cases h⟩
      · exact ((Core.lateEvent_regs _).2.1.trans set.mem).trans fired.mem
      · rw [State.on_core, Core.fld, stays]; exact set.strand.trans fired.strand
      · rw [State.on_core, stays, Core.testBit_setBit _ _ _ (by decide) (by decide), if_neg (by decide), zero]
      · rw [State.on_core, stays, Core.testBit_setBit _ _ _ (by decide) (by decide), if_neg (by decide), one]
      · rw [State.on_core, stays, Core.testBit_setBit _ _ _ (by decide) (by decide), if_pos rfl]
      · exact Core.lateEvent_count ((set.regs _ (Ne.symm count) (Or.inl (by decide))).trans (fired.regs _ (Ne.symm count) (Or.inl (by decide))))
    · have set := Armed.setBit (page := page) s true (i := 0) (by decide)
      rw [if_pos timed, if_neg late]
      refine ⟨set.mem, rfl, set.strand, fun _ _ => ⟨?_, sfind_sput_eq _ _ _⟩, fun h => absurd h.2 late, fun _ => ?_, fun h => by rw [timed] at h; cases h⟩
      · exact (Core.testBit_setBit _ _ _ (by decide) (by decide)).trans (if_pos rfl)
      · exact (Core.testBit_setBit _ _ _ (by decide) (by decide)).trans (if_neg (by decide))
  · rw [if_neg timed]
    exact ⟨rfl, rfl, rfl, fun h => absurd h timed, fun h => absurd h.1 timed, fun _ => rfl, fun _ => rfl⟩

/-- SWAP_NOW changes the active set alone. -/
theorem State.shadowSwaps_frame : (s.shadowSwaps page v).ctl = s.ctl ∧ Swapped s.core (s.shadowSwaps page v).core := by
  unfold State.shadowSwaps
  split
  · exact ⟨rfl, Swapped.swapPage _ _⟩
  · exact ⟨rfl, Swapped.refl _⟩

/-- One write of SHADOW_CTRL, clause by clause (R106, R108). -/
theorem State.shadowWrite_clauses :
    let u := s.shadowWrite page v
    let key := shadowCtrl page
    u.core.mem = s.core.mem ∧ u.ctl.strands = s.ctl.strands ∧ u.core.fld key 8 6 = v / 256 % 64
    ∧ (v.testBit 0 = true → s.core.ct ≤ s.core.shadowTime page → (u.core.reg key).testBit 0 = true ∧ sfind u.ctl.armTime page = some (s.core.shadowTime page))
    ∧ (s.armsLate page v → (u.core.reg key).testBit 0 = false ∧ (u.core.reg key).testBit 1 = false ∧ (u.core.reg key).testBit 5 = true ∧ sfind u.ctl.armTime page = none
        ∧ u.core.reg Reg.ctLateCount = s.core.lateEvent.reg Reg.ctLateCount)
    ∧ (v.testBit 1 = true → ¬s.armsLate page v → (u.core.reg key).testBit 1 = true)
    ∧ (v.testBit 3 = true → v.testBit 0 = false → (u.core.reg key).testBit 0 = false ∧ sfind u.ctl.armTime page = none)
    ∧ (v.testBit 3 = true → v.testBit 1 = false → (u.core.reg key).testBit 1 = false)
    ∧ (v.testBit 0 = false → v.testBit 3 = false → u.ctl = s.ctl) := by
  intro u key
  have readied := s.readied page v
  have whole : u = ((((s.shadowNames page v).shadowDisarms page v).shadowArmsDesc page v).shadowArmsTime page v).shadowSwaps page v := s.shadowWrite_eq page v
  generalize ((s.shadowNames page v).shadowDisarms page v).shadowArmsDesc page v = t at *
  have armed := t.timeArmed page v
  generalize t.shadowArmsTime page v = w at *
  obtain ⟨ctl, swapped⟩ := w.shadowSwaps_frame page v
  rw [← whole] at ctl swapped
  have reg : u.core.reg key = w.core.reg key := swapped.shadow page
  have isLate : t.armsLate page v ↔ s.armsLate page v := by rw [State.armsLate, State.armsLate, readied.time, readied.ct]
  refine ⟨swapped.mem.trans (armed.mem.trans readied.mem), by rw [ctl, armed.strands, readied.strands], ?_, fun timed early => ?_, fun late => ?_, fun one onTime => ?_, fun three untimed => ?_,
    fun three undesc => ?_, fun untimed three => ?_⟩
  · rw [Core.fld, reg]; exact armed.strand.trans readied.strand
  · rw [reg, ctl, ← readied.time]
    exact armed.armed timed (by rwa [readied.time, readied.ct])
  · obtain ⟨zero, one, five, none_, count⟩ := armed.late (isLate.2 late)
    rw [reg, ctl]
    exact ⟨zero, one, five, none_, (swapped.regs _ (Or.inl (by decide))).trans (count.trans (Core.lateEvent_count readied.late))⟩
  · rw [reg, armed.desc fun h => onTime (isLate.1 h)]; exact readied.desc one
  · obtain ⟨zero, none_, _⟩ := readied.disarmed three
    rw [reg, ctl, armed.untimed untimed]
    exact ⟨zero, none_⟩
  · rw [reg]
    by_cases late : t.armsLate page v
    · exact (armed.late late).2.1
    · rw [armed.desc late]; exact (readied.disarmed three).2.2 undesc
  · rw [ctl, armed.untimed untimed, readied.kept three]

end

/-! ### The commands -/

theorem or_low_lt {w : Nat} (h : w < 2 ^ 32) {b : Nat} (hb : b < 2 ^ 32) : (w ||| b) % 2 ^ 32 = w ||| b := Nat.mod_eq_of_lt (Nat.or_lt_two_pow h hb)

/-- A whole word that the host writes to SHADOW_CTRL of a live device, after what comes before a swap that it makes. -/
theorem State.hostRegister_shadow {s : State} {page b q v : Nat} (live : s.live = true) (mapped : pageBlock page = some (b, q)) (hv : v < 2 ^ 32) :
    s.hostRegister (shadowCtrl page) v 15 = (s.beforeSwap (shadowCtrl page) v).hostWrite (shadowCtrl page) v 15 := by
  have small := (pageBlock_lt mapped).1
  have own : shadowCtrl page % 2 ^ 26 / 4 * 4 = shadowCtrl page := by unfold shadowCtrl; omega
  rw [State.hostRegister, if_pos ⟨live, rfl⟩, own, Nat.mod_eq_of_lt hv]

theorem State.hostWrite_shadow {s : State} {page b q v : Nat} (live : s.live = true) (mapped : pageBlock page = some (b, q)) (hv : v < 2 ^ 32) :
    s.hostWrite (shadowCtrl page) v 15 = s.shadowWrite page v := by
  have small := (pageBlock_lt mapped).1
  have own : shadowCtrl page % 2 ^ 26 / 4 * 4 = shadowCtrl page := by unfold shadowCtrl; omega
  have hpage : shadowCtrl page / 4096 = page := by unfold shadowCtrl; omega
  have hoff : shadowCtrl page % 4096 = 0x20 := by unfold shadowCtrl; omega
  rw [State.hostWrite, if_neg (by simp [live]), if_neg (by decide), own, State.writeWord, Nat.mod_eq_of_lt hv]
  dsimp only
  rw [hpage, mapped]
  dsimp only
  rw [hoff, if_pos (by decide)]
  rfl

theorem State.beforeSwap_first {s : State} {page v : Nat} (least : ∀ e ∈ s.dueEvents, eventLe (s.edge s.core.ct, 1, page) e = true) : s.beforeSwap (shadowCtrl page) v = s := by
  have hpage : shadowCtrl page / 4096 = page := by unfold shadowCtrl; omega
  unfold State.beforeSwap
  split
  · rw [hpage]; exact State.before_first least
  · rfl

theorem State.beforeSwap_none {s : State} {page v : Nat} (noSwap : v.testBit 2 = false) (onTime : ¬(v.testBit 0 = true ∧ s.core.shadowTime page < s.core.ct)) :
    s.beforeSwap (shadowCtrl page) v = s := by
  have hpage : shadowCtrl page / 4096 = page := by unfold shadowCtrl; omega
  have stays : s.swapsNow page v = false := by
    unfold State.swapsNow
    rw [show bit v 2 = false from noSwap, Bool.false_or, Bool.and_eq_false_imp]
    exact fun zero => decide_eq_false fun late => onTime ⟨zero, late⟩
  rw [State.beforeSwap, if_neg (by rw [hpage, stays]; simp)]

theorem State.swapDue_fires {s : State} {page t : Nat} (armed : sfind s.ctl.armTime page = some t) (due : t ≤ s.core.ct) : s.swapDue page = s.fireSwap page := by
  unfold State.swapDue
  rw [armed]
  exact if_pos due

theorem State.swapDue_disarms {s : State} {page t : Nat} (armed : sfind s.ctl.armTime page = some t) (due : t ≤ s.core.ct) :
    let u := s.swapDue page
    sfind u.ctl.armTime page = none ∧ (u.core.reg (shadowCtrl page)).testBit 0 = false ∧ (u.core.reg (shadowCtrl page)).testBit 1 = false ∧ u.core.mem = s.core.mem
      ∧ u.ctl.strands = s.ctl.strands := by
  rw [State.swapDue_fires armed due]
  obtain ⟨zero, one, none_⟩ := s.fireSwap_arms page
  have frame := Armed.fireSwap (page := page) s
  exact ⟨none_, zero, one, frame.mem, frame.strands⟩

/-- SWAP_NOW alone copies the shadow set, and names its strand. -/
theorem State.shadowWrite_swapNow (s : State) (page : Nat) {w : Nat} (named : w % 64 = 0) (small : w < 2 ^ 14) :
    s.shadowWrite page (w ||| 4) = s.on (fun c => (c.setFld (shadowCtrl page) 8 6 (w / 256)).swapPage page) := by
  have low (i : Nat) (hi : i < 6) : w.testBit i = false := by
    rw [show w = 2 ^ 6 * (w / 64) by omega, Nat.testBit_two_pow_mul]
    rw [decide_eq_false (by omega), Bool.false_and]
  have bits (i : Nat) (hi : i < 6) : bit (w ||| 4) i = decide (i = 2) := by
    rw [bit, Nat.testBit_or, low i hi, Bool.false_or]
    have place : i = 0 ∨ i = 1 ∨ i = 2 ∨ i = 3 ∨ i = 4 ∨ i = 5 := by omega
    rcases place with rfl | rfl | rfl | rfl | rfl | rfl <;> rfl
  have strand : field (w ||| 4) 8 6 = w / 256 := by
    have : (w ||| 4) / 2 ^ 8 = w / 2 ^ 8 := by
      rw [Nat.or_div_two_pow]; simp
    rw [field_eq_div_mod, this]
    omega
  rw [State.shadowWrite_eq, State.shadowNames, State.shadowDisarms, State.shadowArmsDesc, State.shadowArmsTime, State.shadowSwaps, bits 5 (by decide), bits 3 (by decide), bits 1 (by decide),
    bits 0 (by decide), bits 2 (by decide), strand]
  rfl

/-- Settles O37: the write of SHADOW_CTRL acts in the order of R108, and a swap clears both arms. -/
theorem shadowCommands : Obligations.ShadowCommands := by
  intro s page b q live mapped key time wrote
  have first {t : Nat} (h : ∀ e ∈ s.dueEvents, s.edge t < e.1 ∨ s.edge t = e.1 ∧ (1 < e.2.1 ∨ 1 = e.2.1 ∧ page ≤ e.2.2)) : ∀ e ∈ s.dueEvents, eventLe (s.edge t, 1, page) e = true :=
    fun e he => (eventLe_iff _ _).2 (h e he)
  have writes {v : Nat} (hv : v < 2 ^ 32) : (.next (finish s (s.hostRegister (shadowCtrl page) v 15)) : Host.Outcome State Fault Refusal) = wrote v := by
    rw [State.hostRegister_shadow live mapped hv]; rfl
  refine ⟨fun w hw => ⟨writes (Nat.or_lt_two_pow hw (by decide)), writes (Nat.or_lt_two_pow hw (by decide)), writes (Nat.or_lt_two_pow hw (by decide)), writes (Nat.or_lt_two_pow hw (by decide))⟩,
    fun v hv => ⟨State.hostWrite_shadow live mapped hv, State.beforeSwap_none, fun least => State.beforeSwap_first (first least)⟩, fun v => s.shadowWrite_clauses page v,
    fun w named small alone => ?_, fun t armed => ⟨fun early => ?_, fun due => ⟨?_, fun least => State.before_first (first least), State.swapDue_disarms armed due⟩⟩⟩
  · have hw : w ||| 4 < 2 ^ 32 := Nat.or_lt_two_pow (by omega) (by decide)
    refine (writes hw).trans (congrArg (fun u => Host.Outcome.next (finish s u)) ?_)
    rw [alone]
    exact (State.hostWrite_shadow live mapped hw).trans (s.shadowWrite_swapNow page named small)
  · refine congrArg (fun u => Host.Outcome.next (finish s u)) ((if_pos live).trans ?_)
    unfold shadowSwap
    dsimp only
    rw [armed]
    exact if_neg (Nat.not_le.2 early)
  · refine congrArg (fun u => Host.Outcome.next (finish s u)) ((if_pos live).trans ?_)
    unfold shadowSwap
    dsimp only
    rw [armed]
    exact if_pos due

end Sys2Proof.Machine
end

section
/-! SUPPORT. How a descriptor runs on its engine, how outside events work on it, and how messages are served (R68, R656, R664). -/
namespace Sys2Proof.Machine
open Sys2Proof

-- Threads that wait for the kernel keep their stacks, and the check limits the memory of one text.
set_option Elab.async false

/-! ### Asking the ramp limiter -/

/-- From `s` to `t` only the ramp limiter, its report and the arrays' columns changed. -/
structure Asked (s t : State) : Prop where
  ctl : t.ctl = s.ctl
  rest : t.sync = s.sync ∧ t.host = s.host ∧ t.mgmt = s.mgmt ∧ t.pending = s.pending

theorem Asked.refl (s : State) : Asked s s := ⟨rfl, rfl, rfl, rfl, rfl⟩

theorem Asked.trans {s t u : State} (h : Asked s t) (k : Asked t u) : Asked s u := by
  obtain ⟨ctl, sync, host, mgmt, pending⟩ := h
  obtain ⟨ctl', sync', host', mgmt', pending'⟩ := k
  exact ⟨ctl'.trans ctl, sync'.trans sync, host'.trans host, mgmt'.trans mgmt, pending'.trans pending⟩

theorem Asked.takeCharge (s : State) (u : Nat) : Asked s (s.takeCharge u) := by
  unfold State.takeCharge State.openColumns
  split <;> exact ⟨rfl, rfl, rfl, rfl, rfl⟩

theorem Asked.askUnit (s : State) (u k : Nat) : Asked s (s.askUnit u k).1 := by
  unfold State.askUnit
  split
  · exact Asked.refl s
  · split
    · exact ⟨rfl, rfl, rfl, rfl, rfl⟩
    · split
      · exact Asked.takeCharge s u
      · exact ⟨rfl, rfl, rfl, rfl, rfl⟩

theorem Asked.askUnits (s : State) (us : List Nat) (k : Nat) : Asked s (s.askUnits us k).1 :=
  List.foldlRecOn (motive := fun p : State × Bool => Asked s p.1) us _ (Asked.refl s) fun p hp u _ => hp.trans (Asked.askUnit p.1 u k)

/-- Units that start at once leave the machine, its power and its reports as they are, but for the ramp limiter and the columns. -/
structure Admitted (s t : State) : Prop where
  core : t.core = s.core
  pwr : t.pwr = { s.pwr with ramp := t.pwr.ramp, columns := t.pwr.columns }

theorem Admitted.refl (s : State) : Admitted s s := ⟨rfl, rfl⟩

theorem Admitted.trans {s t u : State} (h : Admitted s t) (k : Admitted t u) : Admitted s u := by
  refine ⟨k.core.trans h.core, ?_⟩
  rw [k.pwr, h.pwr]

theorem Admitted.takeCharge (s : State) (u : Nat) : Admitted s (s.takeCharge u) := by
  unfold State.takeCharge State.openColumns
  split <;> exact ⟨rfl, rfl⟩

theorem Admitted.askUnit {s : State} {u k : Nat} (ok : (s.askUnit u k).2 = true) : Admitted s (s.askUnit u k).1 := by
  unfold State.askUnit at ok ⊢
  split at ok
  · next idle => rw [if_pos idle]; exact Admitted.refl s
  · next busy =>
    rw [if_neg busy]
    split at ok
    · cases ok
    · next free =>
      rw [if_neg free]
      split at ok
      · next holds => rw [if_pos holds]; exact Admitted.takeCharge s u
      · cases ok

/-- Units that the limiter lets start change nothing else. -/
theorem Admitted.askUnits {s : State} {us : List Nat} {k : Nat} (ok : s.Admits us k) : Admitted s (s.askUnits us k).1 := by
  have all (us : List Nat) (p : State × Bool) (h : (us.foldl (fun (p : State × Bool) u => let (t, ok) := p.1.askUnit u k; (t, p.2 && ok)) p).2 = true) :
      p.2 = true ∧ Admitted p.1 (us.foldl (fun (p : State × Bool) u => let (t, ok) := p.1.askUnit u k; (t, p.2 && ok)) p).1 := by
    induction us generalizing p with
    | nil => exact ⟨h, Admitted.refl _⟩
    | cons u us ih =>
      obtain ⟨both, later⟩ := ih _ h
      simp only [Bool.and_eq_true] at both
      exact ⟨both.1, (Admitted.askUnit both.2).trans later⟩
  exact (all us (s, true) ok).2

theorem State.admits_nil (s : State) (k : Nat) : s.Admits [] k := rfl

/-! ### Running a descriptor -/

/-- The strand after its descriptor's work has left `x`. -/
def Strand.after (t : Strand) (x : Dx) : Strand :=
  { t with comp := x.comp, sawPoison := x.acc.poison, adds := x.adds, rkey := BitVec.ofNat 64 x.key, rstream := BitVec.ofNat 16 x.stream, rpos := BitVec.ofNat 48 x.pos }

theorem Asked.strand {s t : State} (asked : Asked s t) (j : Nat) : t.strand j = s.strand j := by rw [State.strand, State.strand, asked.ctl]

theorem Asked.withDx_length {s t : State} (asked : Asked s t) (k : Nat) (x : Dx) : (t.withDx k x).ctl.strands.length = s.ctl.strands.length := by
  rw [State.withDx, State.setStrand_length, show ({ t with core := { x.c with actAs := none }, ctl := { t.ctl with lfsr := x.lfsr } } : State).ctl.strands = t.ctl.strands from rfl, asked.ctl]

theorem Asked.withDx_others {s t : State} (asked : Asked s t) (x : Dx) {j k : Nat} (ne : j ≠ k) : (t.withDx k x).strand j = s.strand j :=
  (State.strand_setStrand_ne _ _ _ _ ne).trans (asked.strand j)

section
variable {s t : State} {k : Nat} (present : k < s.ctl.strands.length) (asked : Asked s t)
include present asked

theorem Asked.withDx_strand (x : Dx) : (t.withDx k x).strand k = (s.strand k).after x := by
  have here : k < ({ t with core := { x.c with actAs := none }, ctl := { t.ctl with lfsr := x.lfsr } } : State).ctl.strands.length := by
    rw [show ({ t with core := { x.c with actAs := none }, ctl := { t.ctl with lfsr := x.lfsr } } : State).ctl.strands = t.ctl.strands from rfl, asked.ctl]; exact present
  rw [State.withDx, State.strand_setStrand_eq _ _ _ here, ← asked.strand k]
  rfl

/-- What a strand's engine leaves, with the strand in a phase. -/
theorem Asked.left {x : Dx} {p : Phase} {f : Strand → Strand} (phase : (f ((s.strand k).after x)).phase = p) (record : (f ((s.strand k).after x)).comp = x.comp)
    (place : (f ((s.strand k).after x)).pc = (s.strand k).pc ∧ (f ((s.strand k).after x)).desc = (s.strand k).desc ∧ (f ((s.strand k).after x)).steps = (s.strand k).steps)
    (us : List Nat) : Left s (((t.withDx k x).worked us).setStrand k f) k x p ∧ (((t.withDx k x).worked us).setStrand k f).strand k = f ((s.strand k).after x) := by
  have own : (((t.withDx k x).worked us).setStrand k f).strand k = f ((s.strand k).after x) := by
    rw [State.strand_setStrand_eq _ _ _ (by rw [State.worked_ctl, asked.withDx_length]; exact present), State.worked_strand, asked.withDx_strand present]
  obtain ⟨sync, host, mgmt, pending⟩ := asked.rest
  refine ⟨⟨rfl, ?_, by rw [own, phase], by rw [own, record], by rw [own]; exact place, fun j ne => ?_, sync, host, mgmt, pending⟩, own⟩
  · rw [← asked.ctl]; rfl
  · rw [State.strand_setStrand_ne _ _ _ _ ne, State.worked_strand, asked.withDx_others x ne]

end

/-- A note of who was served last leaves what the descriptor left. -/
theorem Left.served {s u : State} {k : Nat} {x : Dx} {p : Phase} (h : Left s u k x p) (m : SMap Nat) : Left s { u with ctl := { u.ctl with served := m } } k x p := by
  obtain ⟨core, ctl, phase, record, place, others, rest⟩ := h
  exact ⟨core, by rw [ctl], phase, record, place, others, rest⟩

theorem State.admits_iff {s : State} {us : List Nat} {k : Nat} : s.Admits us k ↔ (s.askUnits us k).2 = true := Iff.rfl

/-- A descriptor that is ready and whose units may start runs on its engine. -/
theorem State.runDesc_ran {s : State} {k : Nat} (present : k < s.ctl.strands.length) (units : Dx → List Nat) (f : Dx → Dx × Bool) (admits : s.Admits (units (f (s.dx k)).1) k) :
    Ran s (s.runDesc k units f) k (f (s.dx k)) := by
  have asked := Asked.askUnits s (units (f (s.dx k)).1) k
  unfold State.runDesc
  dsimp only
  rw [if_neg (by rw [State.admits_iff.1 admits]; decide)]
  generalize f (s.dx k) = r at *
  have left := asked.left present (x := if (s.dx k).held r.1 then s.dx k else r.1) (p := if (s.dx k).held r.1 then .ready else if r.2 then .done else .busy)
    (f := fun t => { t with phase := if (s.dx k).held r.1 then .ready else if r.2 then .done else .busy, units := units r.1, tStart := some (t.tStart.getD s.core.ct) }) rfl rfl ⟨rfl, rfl, rfl⟩ (units r.1)
  obtain ⟨left, own⟩ := left
  have ran (u : State) (hu : Left s u k (if (s.dx k).held r.1 then s.dx k else r.1) (if (s.dx k).held r.1 then .ready else if r.2 then .done else .busy))
      (start : (u.strand k).tStart = some ((s.strand k).tStart.getD s.core.ct)) : Ran s u k r := by
    refine ⟨?_, start⟩
    split
    · next h => rw [if_pos h, if_pos h] at hu; exact hu
    · next h => rw [if_neg h, if_neg h] at hu; exact hu
  split
  · exact ran _ (left.served _) ((congrArg Strand.tStart own).trans rfl)
  · exact ran _ left ((congrArg Strand.tStart own).trans rfl)

theorem State.runNow_ran {s : State} {k : Nat} (present : k < s.ctl.strands.length) {units : List Nat} (f : Dx → Dx) (admits : s.Admits units k) :
    Ran s (s.runNow k units f) k (f (s.dx k), true) := State.runDesc_ran present (fun _ => units) (fun x => (f x, true)) admits

/-- What an outside event leaves of a strand that is busy, after the limiter was asked. -/
theorem Asked.worked {s t : State} {k : Nat} (busy : (s.strand k).phase = .busy) (asked : Asked s t) (f : Dx → Dx × Bool) (same : t.dx k = s.dx k) (us : List Nat) :
    Worked s ((t.work k f).worked us) k (f (s.dx k)) := by
  have present := State.lt_of_phase _ _ busy (by decide)
  obtain ⟨sync, host, mgmt, pending⟩ := asked.rest
  unfold State.work
  rw [if_neg (by rw [asked.strand k, busy]; decide)]
  dsimp only
  rw [same]
  generalize f (s.dx k) = r
  have own := asked.withDx_strand present r.1
  have ctl : (t.withDx k r.1).ctl = { s.ctl with strands := (t.withDx k r.1).ctl.strands, lfsr := r.1.lfsr, served := (t.withDx k r.1).ctl.served } := by rw [← asked.ctl]; rfl
  by_cases done : r.2 = true
  · rw [if_pos done, Worked, if_pos done]
    have last : (((t.withDx k r.1).setStrand k fun t => { t with phase := .done }).worked us).strand k = { (s.strand k).after r.1 with phase := .done } := by
      rw [State.worked_strand, State.strand_setStrand_eq _ _ _ (by rw [asked.withDx_length]; exact present), own]
    exact ⟨rfl, by rw [← asked.ctl]; rfl, by rw [last], by rw [last]; rfl, by rw [last]; exact ⟨rfl, rfl, rfl⟩,
      fun j ne => (State.worked_strand ..).trans ((State.strand_setStrand_ne _ _ _ _ ne).trans (asked.withDx_others _ ne)), sync, host, mgmt, pending⟩
  · rw [if_neg done, Worked, if_neg done]
    have last : ((t.withDx k r.1).worked us).strand k = (s.strand k).after r.1 := own
    exact ⟨rfl, ctl, by rw [last]; exact busy, by rw [last]; rfl, by rw [last]; exact ⟨rfl, rfl, rfl⟩, fun j ne => asked.withDx_others _ ne, sync, host, mgmt, pending⟩

theorem State.work_worked {s : State} {k : Nat} (busy : (s.strand k).phase = .busy) (f : Dx → Dx × Bool) : Worked s (s.work k f) k (f (s.dx k)) := by
  have h := (Asked.refl s).worked busy f rfl []
  obtain ⟨core, ctl, phase, record, place, others, rest⟩ := h
  exact ⟨core, ctl, phase, record, place, others, rest⟩

/-! ### Starting -/

theorem State.mayRun_facts {s : State} {k : Nat} {ok : Nat → Bool} (h : s.mayRun k ok = true) : s.live = true ∧ (s.strand k).phase = .ready ∧ ok (s.strand k).op = true := by
  simp only [State.mayRun, Bool.and_eq_true, beq_iff_eq] at h
  obtain ⟨⟨⟨⟨live, ready⟩, op⟩, _⟩, _⟩ := h
  exact ⟨live, ready, op⟩

theorem State.mayRun_present {s : State} {k : Nat} {ok : Nat → Bool} (h : s.mayRun k ok = true) : k < s.ctl.strands.length := State.lt_of_phase _ _ (State.mayRun_facts h).2.1 (by decide)

end Sys2Proof.Machine
end

section
/-! SUPPORT. The matrix and sparse commands (R159, R228, R243, R247, R251, R260). -/
namespace Sys2Proof.Machine
open Sys2Proof

-- Threads that wait for the kernel keep their stacks, and the check limits the memory of one text.
set_option Elab.async false

theorem State.engineRun_present {s : State} {k op : Nat} (h : s.engineRun k op = true) : k < s.ctl.strands.length := State.mayRun_present h

/-- A product on an array that is not faulty. -/
theorem State.product_ran {s : State} {k op : Nat} (ready : s.engineRun k op = true) (alive : s.arrayDead (s.quarter k) = false) (f : Dx → Dx)
    (admits : s.Admits [unitArray (s.quarter k)] k) : Ran s (s.product k op f) k (f (s.dx k), true) := by
  have run : s.product k op f = s.runNow k [unitArray (s.quarter k)] f := by
    rw [State.product, if_neg (by rw [ready]; decide), if_neg (by rw [alive]; decide)]
  exact run ▸ State.runNow_ran (State.engineRun_present ready) f admits

/-- A product on a faulty array completes with 0x40 and leaves the machine below the strands. -/
theorem State.product_dead {s : State} {k op : Nat} (ready : s.engineRun k op = true) (dead : s.arrayDead (s.quarter k) = true) (f : Dx → Dx) :
    Ran s (s.product k op f) k ((s.dx k).st 0x40, true) ∧ (s.product k op f).core = { s.core with actAs := none } := by
  have run : s.product k op f = s.runNow k [] (fun x => x.st 0x40) := by rw [State.product, if_neg (by rw [ready]; decide), if_pos dead]
  have ran : Ran s (s.product k op f) k ((s.dx k).st 0x40, true) := run ▸ State.runNow_ran (State.engineRun_present ready) (fun x => x.st 0x40) (State.admits_nil s k)
  refine ⟨ran, ?_⟩
  have left := ran.1
  split at left
  · exact left.core
  · exact left.core

/-- What the SPMM that strand `k` holds leaves. -/
def State.spmmLeft (s : State) (k : Nat) (fails : List CheckFail) (slabs : List SlabFail) : Dx :=
  (spmm (s.dx k) (sget 0 s.core.arrayPrev (s.quarter k)) fails slabs).ran (s.dx k) 0

/-- The units whose path an SPMM has taken, by the counts that it leaves. -/
def State.spmmUnits (s : State) (q : Nat) (c : Core) : List Nat :=
  (if c.reg64 (Reg.arrayBusyLo q) ≠ s.core.reg64 (Reg.arrayBusyLo q) then [unitArray q] else [])
    ++ if c.fld (Reg.smeSegments q) 16 16 ≠ s.core.fld (Reg.smeSegments q) 16 16 ∨ c.reg64 (Reg.smeMatchLo q) ≠ s.core.reg64 (Reg.smeMatchLo q) then [unitSme q] else []

theorem spmmRun_ran {s : State} {k : Nat} (ready : s.engineRun k 0x18 = true) (fails : List CheckFail) (slabs : List SlabFail)
    (admits : s.Admits (s.spmmUnits (s.quarter k) (s.spmmLeft k fails slabs).c) k) : Ran s (spmmRun s k fails slabs) k (s.spmmLeft k fails slabs, true) := by
  have run : spmmRun s k fails slabs = s.runDesc k (fun x => s.spmmUnits (s.quarter k) x.c)
      (fun x => ((spmm x (sget 0 s.core.arrayPrev (s.quarter k)) fails slabs).ran x 0, true)) := by
    rw [spmmRun, if_neg (by rw [ready]; decide)]
    refine congrArg (fun units => s.runDesc k units _) (funext fun x => ?_)
    simp only [State.spmmUnits, bne_iff_ne, Bool.or_eq_true]
  rw [run]
  exact State.runDesc_ran (State.engineRun_present ready) _ _ admits

theorem convertRun_ran {s : State} {k : Nat} (ready : s.engineRun k 0x1A = true) : Ran s (convertRun s k) k (spConvert (s.dx k), true) := by
  rw [convertRun, if_pos ready]
  exact State.runNow_ran (State.engineRun_present ready) _ (State.admits_nil s k)

/-- The MC's tuning of the sparse threshold changes the policies alone. -/
theorem threshTune_frame (c : Core) (q : Nat) (r : PathCompare) : threshTune c q r = { c with policy := (threshTune c q r).policy } := by
  unfold threshTune
  dsimp only
  split <;> rfl

theorem marginAdapt_frame (c : Core) : (marginAdapt c).mem = c.mem ∧ (marginAdapt c).regs = c.regs := by
  unfold marginAdapt
  dsimp only
  split <;> exact ⟨rfl, rfl⟩

/-- Settles O38: each command runs its descriptor on its engine, through `State.runDesc_ran`. -/
theorem matrixDescriptors : Obligations.MatrixDescriptors := by
  unfold Obligations.MatrixDescriptors
  intro s k
  refine ⟨fun fails ready alive admits => ⟨_, rfl, State.product_ran ready alive _ admits⟩, fun c op fails row ready dead => ?_,
    fun fails ready alive admits => ⟨_, rfl, State.product_ran ready alive _ admits⟩, fun fails slabs ready admits => ⟨_, rfl, spmmRun_ran ready fails slabs admits⟩,
    fun ready => ⟨_, rfl, convertRun_ran ready⟩, fun cmp live => ⟨?_, threshTune_frame _ _ _⟩, fun live => ⟨?_, marginAdapt_frame _⟩⟩
  · simp at row
    rcases row with ⟨rfl, rfl⟩ | ⟨rfl, rfl⟩
    · exact ⟨_, rfl, State.product_dead ready dead _⟩
    · exact ⟨_, rfl, State.product_dead ready dead _⟩
  · exact congrArg (fun u => Host.Outcome.next (finish s u)) (if_pos live)
  · exact congrArg (fun u => Host.Outcome.next (finish s u)) (if_pos live)

end Sys2Proof.Machine
end

section
/-! SUPPORT. Messages for the samplers and the gather engines: when they wait, and what serving them leaves (R293, R294, R313 to R337, R656, R664). -/
namespace Sys2Proof.Machine
open Sys2Proof

-- Threads that wait for the kernel keep their stacks, and the check limits the memory of one text.
set_option Elab.async false

/-! ### Power and messages do not meet -/

theorem State.work_power (s : State) (p : Power) (k : Nat) (f : Dx → Dx × Bool) : ({ s with pwr := p } : State).work k f = { s.work k f with pwr := p } := by
  unfold State.work
  by_cases idle : (s.strand k).phase ≠ .busy
  · rw [if_pos idle, if_pos (show (({ s with pwr := p } : State).strand k).phase ≠ .busy from idle)]
  · rw [if_neg idle, if_neg (show ¬(({ s with pwr := p } : State).strand k).phase ≠ .busy from idle)]
    dsimp only
    rw [show ({ s with pwr := p } : State).dx k = s.dx k from rfl]
    generalize f (s.dx k) = r
    by_cases fin : r.2 = true
    · rw [if_pos fin, if_pos fin]; rfl
    · rw [if_neg fin, if_neg fin]; rfl

theorem State.withDev_power (s : State) (p : Power) (x : Dx) : ({ s with pwr := p } : State).withDev x = { s.withDev x with pwr := p } := rfl

theorem State.embServe_power (s : State) (p : Power) (dst : Nat) (f : Dx → Dx) : ({ s with pwr := p } : State).embServe dst f = { s.embServe dst f with pwr := p } := rfl

theorem State.lookTake_power (s : State) (p : Power) (dst src : Nat) (a : EmbAns) : ({ s with pwr := p } : State).lookTake dst src a = { s.lookTake dst src a with pwr := p } := by
  cases a with
  | row => rfl
  | group node k g n d v q =>
    unfold State.lookTake
    dsimp only
    by_cases mine : s.strandFor k dst = true
    · rw [if_pos mine, if_pos (show ({ s with pwr := p } : State).strandFor k dst = true from mine), State.work_power]
    · rw [if_neg mine, if_neg (show ¬({ s with pwr := p } : State).strandFor k dst = true from mine)]

theorem State.sampServe_none {s : State} {dst : Nat} (wadi : Nat) (r : SampReq) (none : s.sampQ (s.serveAs dst) = none) :
    s.sampServe dst wadi r = s.withDev ((s.dev 0 (s.serveAs dst)).send r.node wadi (.sampleAnswer { strand := r.strand, l := r.l, v := r.v, edges := .none, poison := false })) := by
  rw [State.sampServe, none]
  rfl

theorem State.sampServe_some {s : State} {dst q : Nat} (wadi : Nat) (r : SampReq) (some : s.sampQ (s.serveAs dst) = some q) :
    let p := sampleServe (s.dev q (s.serveAs dst)) r
    s.sampServe dst wadi r = s.withDev (p.1.send r.node wadi (.sampleAnswer { strand := r.strand, l := r.l, v := r.v, edges := p.2, poison := p.1.acc.poison })) := by
  dsimp only
  rw [State.sampServe, some]

theorem State.sampServe_power (s : State) (p : Power) (dst wadi : Nat) (r : SampReq) : ({ s with pwr := p } : State).sampServe dst wadi r = { s.sampServe dst wadi r with pwr := p } := by
  cases h : s.sampQ (s.serveAs dst) with
  | none => rewrite [State.sampServe_none wadi r h, State.sampServe_none (s := { s with pwr := p }) wadi r h]; exact State.withDev_power ..
  | some q => rewrite [State.sampServe_some wadi r h, State.sampServe_some (s := { s with pwr := p }) wadi r h]; exact State.withDev_power ..

theorem State.sampTake_power (s : State) (p : Power) (dst : Nat) (a : SampAns) : ({ s with pwr := p } : State).sampTake dst a = { s.sampTake dst a with pwr := p } := by
  unfold State.sampTake
  dsimp only
  cases s.core.samps.find? (fun r => r.strand == a.strand) with
  | none => rfl
  | some r =>
    dsimp only
    by_cases mine : s.strandFor a.strand dst = true
    · rw [if_pos mine, if_pos (show ({ s with pwr := p } : State).strandFor a.strand dst = true from mine)]
      exact State.work_power ..
    · rw [if_neg mine, if_neg (show ¬({ s with pwr := p } : State).strandFor a.strand dst = true from mine)]

theorem State.serveMsg_power_of_embServe (s : State) (p : Power) {m : Msg} {dst : Nat} {f : Dx → Dx} (serve : ∀ u : State, u.serveMsg m = u.embServe dst f) :
    ({ s with pwr := p } : State).serveMsg m = { s.serveMsg m with pwr := p } := by
  rewrite [serve, serve]
  exact State.embServe_power s p dst f

/-- What serving a message does is independent of the power state. -/
theorem State.serveMsg_power (s : State) (p : Power) (m : Msg) : ({ s with pwr := p } : State).serveMsg m = { s.serveMsg m with pwr := p } := by
  obtain ⟨dst, wadi, body, strand, src⟩ := m
  cases body with
  | sampleRequest r => exact State.sampServe_power ..
  | sampleAnswer a => exact State.sampTake_power ..
  | embAnswer a => exact State.lookTake_power ..
  | contrib c => exact State.serveMsg_power_of_embServe s p (dst := dst) (f := fun x => contribIn x c) fun _ => rfl
  | _ => rfl

/-! ### Serving at once, and waiting -/

/-- A change of the power state that a start pays: the ramp limiter and the columns alone. -/
def Power.Paid (p r : Power) : Prop := r = { p with ramp := r.ramp, columns := r.columns }

theorem State.eq_of_admitted {s t : State} (asked : Asked s t) (admitted : Admitted s t) : t = { s with pwr := t.pwr } := by
  obtain ⟨ctl, sync, host, mgmt, pending⟩ := asked
  obtain ⟨core, -⟩ := admitted
  cases s; cases t
  simp only at *
  subst ctl sync host mgmt pending core
  rfl

theorem State.blocked_iff (s : State) (m : Msg) : (s.pwr.emergency || s.core.inbox.any (fun n => claimOf n.body == claimOf m.body)) = true ↔ s.Blocked m := by
  rw [Bool.or_eq_true, List.any_eq_true]
  simp only [beq_iff_eq, State.Blocked]

theorem State.takeMsg_blocked {s : State} {m : Msg} (serves : s.serves = true) (blocked : s.Blocked m) :
    s.takeMsg m = s.on (fun c => { c with inbox := c.inbox ++ [m] }) := by
  rewrite [State.takeMsg, if_neg (by rw [serves]; decide), if_pos ((s.blocked_iff m).2 blocked)]
  rfl

/-- A message that is served at once leaves what serving it leaves, and what its start paid. -/
theorem State.takeMsg_takes {s : State} {m : Msg} (serves : s.serves = true) (takes : s.Takes m) : ∃ p, s.takeMsg m = { s.serveMsg m with pwr := p } ∧ s.pwr.Paid p := by
  obtain ⟨free, flows, admits⟩ := takes
  have admitted := Admitted.askUnits admits
  have same := State.eq_of_admitted (Asked.askUnits s (s.msgUnit m).toList (claimOf m.body)) admitted
  have paid : s.pwr.Paid (s.askUnits (s.msgUnit m).toList (claimOf m.body)).1.pwr := admitted.pwr
  rewrite [State.takeMsg, if_neg (by rw [serves]; decide), if_neg (mt (s.blocked_iff m).1 free)]
  dsimp only
  rw [if_neg (by rw [State.admits_iff.1 admits]; decide), same]
  generalize (s.askUnits (s.msgUnit m).toList (claimOf m.body)).1.pwr = p at paid ⊢
  rw [State.serveMsg_power, if_neg (by rw [show ({ s.serveMsg m with pwr := p } : State).core.stall = (s.serveMsg m).core.stall from rfl, flows]; exact Bool.false_ne_true)]
  refine ⟨_, rfl, ?_⟩
  rw [Power.Paid] at paid ⊢
  rw [paid]

/-- A message that a node of this device serves. -/
theorem State.withDev_served (s : State) (x : Dx) : Served s (s.withDev x) x := ⟨rfl, rfl, rfl, rfl, rfl, rfl, rfl⟩

theorem Served.paid {s u : State} {x : Dx} (h : Served s u x) {p : Power} (paid : s.pwr.Paid p) : Served s { u with pwr := p } x := ⟨h.core, h.ctl, paid, h.rest⟩

theorem Worked.paid {s u : State} {k : Nat} {r : Dx × Bool} (h : Worked s u k r) (p : Power) : Worked s { u with pwr := p } k r := by
  obtain ⟨core, ctl, phase, record, place, others, rest⟩ := h
  exact ⟨core, ctl, phase, record, place, others, rest⟩

/-- A message that is taken and served as a node of this device. -/
theorem State.takeMsg_served {s : State} {m : Msg} {x : Dx} (serves : s.serves = true) (takes : s.Takes m) (serve : s.serveMsg m = s.withDev x) : Served s (s.takeMsg m) x := by
  obtain ⟨p, run, paid⟩ := State.takeMsg_takes serves takes
  rw [run, serve]
  exact (s.withDev_served x).paid paid

/-- A message that is taken and goes on with a strand's descriptor. -/
theorem State.takeMsg_worked {s : State} {m : Msg} {k : Nat} {f : Dx → Dx × Bool} (serves : s.serves = true) (takes : s.Takes m) (busy : (s.strand k).phase = .busy)
    (serve : s.serveMsg m = s.work k f) : Worked s (s.takeMsg m) k (f (s.dx k)) := by
  obtain ⟨p, run, -⟩ := State.takeMsg_takes serves takes
  rw [run, serve]
  exact (State.work_worked busy f).paid p

/-! ### Sampling -/

theorem sampleRun_ran {s : State} {k : Nat} (ready : s.engineRun k 0x40 = true) (admits : s.Admits [unitSampler (s.quarter k)] k) :
    Ran s (sampleRun s k) k (sampLeft k (sample (s.dx k) k (s.strand k).steps)) := by
  rw [sampleRun, if_pos ready]
  exact State.runDesc_ran (State.engineRun_present ready) (fun _ => [unitSampler (s.quarter k)]) (fun x => sampLeft k (sample x k (s.strand k).steps)) admits

theorem State.sampTake_work {s : State} {dst : Nat} {a : SampAns} {r : SampRun} (held : s.core.samps.find? (fun x => x.strand == a.strand) = some r) (mine : s.strandFor a.strand dst = true) :
    s.sampTake dst a = s.work a.strand (fun x => sampLeft a.strand (sampleAnswer x (s.strand a.strand).steps r a)) := by
  rw [State.sampTake, held]
  exact if_pos mine

/-- Settles O39: `State.runDesc_ran` for the descriptor, `State.takeMsg_served` and `State.takeMsg_worked` for the messages. -/
theorem sampling : Obligations.Sampling := by
  unfold Obligations.Sampling
  intro s
  refine ⟨fun k ready admits => ⟨_, rfl, sampleRun_ran ready admits⟩,
    fun dst wadi r serves takes none => ⟨_, rfl, State.takeMsg_served serves takes (State.sampServe_none wadi r none)⟩,
    fun dst wadi r q serves takes some => ⟨_, rfl, State.takeMsg_served serves takes (State.sampServe_some wadi r some)⟩,
    fun dst wadi r serves blocked => congrArg (fun u => Host.Outcome.next (finish s u)) (State.takeMsg_blocked serves blocked),
    fun dst a r serves takes held mine busy => ⟨_, rfl, State.takeMsg_worked serves takes busy (State.sampTake_work held mine)⟩⟩

end Sys2Proof.Machine
end

section
/-! SUPPORT. The embedding descriptors and the messages to the gather engine (R311 to R336). -/
namespace Sys2Proof.Machine
open Sys2Proof

-- Threads that wait for the kernel keep their stacks, and the check limits the memory of one text.
set_option Elab.async false

/-! ### Descriptors -/

theorem State.event?_eq {s : State} (live : s.live = true) (calm : s.pwr.emergency = false) (f : State → State) : s.event? f = f s := by
  rw [State.event?, if_pos (by rw [live, calm]; rfl)]

theorem lookupRun_ran {s : State} {k : Nat} (ready : s.engineRun k 0x30 = true) (admits : s.Admits [unitGather (s.quarter k)] k) :
    Ran s (lookupRun s k) k (embLookup (s.dx k) k (s.strand k).det) := by
  rw [lookupRun, if_pos ready]
  exact State.runDesc_ran (State.engineRun_present ready) (fun _ => [unitGather (s.quarter k)]) (fun x => embLookup x k (s.strand k).det) admits

theorem gradRun_ran {s : State} {k : Nat} (ready : s.engineRun k 0x31 = true) (admits : s.Admits [unitGather (s.quarter k)] k) :
    Ran s (gradRun s k) k (embGrad (s.dx k) k, false) := by
  rw [gradRun, if_pos ready]
  exact State.runDesc_ran (State.engineRun_present ready) (fun _ => [unitGather (s.quarter k)]) (fun x => (embGrad x k, false)) admits

theorem updateRun_ran {s : State} {k : Nat} (ready : s.mayRun k (fun o => o == 0x32) = true) (admits : s.Admits [unitGather (s.quarter k)] k) :
    Ran s (updateRun s k) k (s.dx k, false) := by
  rw [updateRun, if_pos ready]
  exact State.runDesc_ran (State.mayRun_present ready) (fun _ => [unitGather (s.quarter k)]) (fun x => (x, false)) admits

/-- What `EMB_SYNC` leaves at a job step (R335). -/
def syncLeft (x : Dx) (step : Nat) : Dx × Bool :=
  if x.acc.txn.isNone then (x, true)
  else if verdictsIn (syncVerdicts x step) then (syncFinish (syncVerdicts x step) step, true) else (syncVerdicts x step, false)

theorem syncRun_ran {s : State} {k : Nat} (ready : s.engineRun k 0x33 = true) : Ran s (syncRun s k) k (syncLeft (s.dx k) (s.core.reg Reg.jobStep)) := by
  rw [syncRun, if_pos ready]
  exact State.runDesc_ran (State.engineRun_present ready) (fun _ => []) (fun x => syncLeft x (s.core.reg Reg.jobStep)) (State.admits_nil s k)

theorem State.dx_txn (s : State) (k : Nat) : (s.dx k).acc.txn = (s.strand k).txn? := rfl

theorem syncLeft_none {x : Dx} (none : x.acc.txn = .none) (step : Nat) : syncLeft x step = (x, true) := if_pos (by rw [none]; rfl)

theorem syncLeft_some {x : Dx} (some : x.acc.txn.isSome = true) (step : Nat) :
    syncLeft x step = if verdictsIn (syncVerdicts x step) then (syncFinish (syncVerdicts x step) step, true) else (syncVerdicts x step, false) :=
  if_neg (by rw [Option.isNone_iff_eq_none]; exact Option.isSome_iff_ne_none.1 some)

/-! ### Update windows (R325, R328) -/

/-- What stage 1 of a window does at the descriptor of its `EMB_UPDATE`. -/
def stage1Left (x : Dx) (table tag senders : Nat) : Dx × Bool :=
  if stage1Ready x.c.emb table tag senders x.c.actAs.isSome then (closeStage1 x table tag, false) else (x, false)

theorem stage1Left_ready {x : Dx} {table tag senders : Nat} (ready : stage1Ready x.c.emb table tag senders x.c.actAs.isSome = true) :
    stage1Left x table tag senders = (closeStage1 x table tag, false) := if_pos ready

theorem stage1Left_waits {x : Dx} {table tag senders : Nat} (waits : stage1Ready x.c.emb table tag senders x.c.actAs.isSome = false) :
    stage1Left x table tag senders = (x, false) := if_neg (Bool.eq_false_iff.1 waits)

theorem windowStage1_worked {s : State} {k : Nat} (live : s.live = true) (calm : s.pwr.emergency = false) (op : (s.strand k).op = 0x32) (busy : (s.strand k).phase = .busy) :
    Worked s (windowStage1 s k) k (stage1Left (s.dx k) ((s.strand k).f 24 0 8) ((s.strand k).f 26 0 16) ((s.strand k).f 28 0 17)) := by
  unfold windowStage1
  dsimp only
  rw [if_neg (not_not_intro op), State.event?_eq live calm]
  exact State.work_worked busy fun x => stage1Left x ((s.strand k).f 24 0 8) ((s.strand k).f 26 0 16) ((s.strand k).f 28 0 17)

/-- What stage 2 of a window does at the descriptor of its `EMB_UPDATE`. -/
def stage2Left (x : Dx) (table tag : Nat) : Dx × Bool :=
  let y := embUpdate (x.emb (fun e => e.setWindow { e.window table tag x.c.actAs.isSome with stage2 := true }))
  if x.held y then (x, false) else (y, true)

theorem State.admits_one {s : State} {u k : Nat} : s.Admits [u] k ↔ (s.askUnit u k).2 = true := by
  rw [State.admits_iff, State.askUnits]
  exact Iff.of_eq (congrArg (· = true) (Bool.true_and _))

theorem Asked.dx {s t : State} (asked : Asked s t) (core : t.core = s.core) (k : Nat) : t.dx k = s.dx k := by
  unfold State.dx State.actOf State.quarter State.strand
  rw [asked.ctl, core]

theorem windowStage2_worked {s : State} {k : Nat} (live : s.live = true) (calm : s.pwr.emergency = false) (op : (s.strand k).op = 0x32) (busy : (s.strand k).phase = .busy)
    (ready : stage2Ready (s.dx k) ((s.strand k).f 24 0 8) ((s.strand k).f 26 0 16) = true) (admits : s.Admits [unitGather (s.quarter k)] k) :
    Worked s (windowStage2 s k) k (stage2Left (s.dx k) ((s.strand k).f 24 0 8) ((s.strand k).f 26 0 16)) := by
  have ok := State.admits_one.1 admits
  have asked := Asked.askUnit s (unitGather (s.quarter k)) k
  unfold windowStage2
  dsimp only
  rewrite [if_neg (by rw [op, busy]; decide), State.event?_eq live calm, if_neg (by rw [ready]; decide), if_neg (by rw [ok]; decide)]
  exact asked.worked busy (fun x => stage2Left x ((s.strand k).f 24 0 8) ((s.strand k).f 26 0 16)) (asked.dx (Admitted.askUnit ok).core k) _

theorem windowStage2_waits {s : State} {k : Nat} (live : s.live = true) (calm : s.pwr.emergency = false)
    (waits : stage2Ready (s.dx k) ((s.strand k).f 24 0 8) ((s.strand k).f 26 0 16) = false) : windowStage2 s k = s := by
  unfold windowStage2
  dsimp only
  split
  · rfl
  · rw [State.event?_eq live calm, if_pos (by rw [waits]; rfl)]

/-- Settles O40: each descriptor through `State.runDesc_ran`, each stage through `Asked.worked`. -/
theorem embeddingDescriptors : Obligations.EmbeddingDescriptors := by
  unfold Obligations.EmbeddingDescriptors
  intro s k
  refine ⟨fun ready admits => ⟨_, rfl, lookupRun_ran ready admits⟩, fun ready admits => ⟨_, rfl, gradRun_ran ready admits⟩,
    fun ready admits => ⟨_, rfl, updateRun_ran ready admits⟩, fun ready none => ⟨_, rfl, ?_⟩, fun ready some => ⟨_, rfl, ?_⟩,
    fun ⟨live, calm, op, busy⟩ => ⟨fun ready => ⟨_, rfl, ?_⟩, fun waits => ⟨_, rfl, ?_⟩⟩,
    fun ⟨live, calm, op, busy⟩ => ⟨fun ready admits => ⟨_, rfl, windowStage2_worked live calm op busy ready admits⟩,
      fun waits => congrArg (fun u => Host.Outcome.next (finish s u)) (windowStage2_waits live calm waits)⟩⟩
  · exact syncLeft_none (x := s.dx k) none _ ▸ syncRun_ran ready
  · have ran := syncRun_ran ready
    rw [syncLeft_some (x := s.dx k) some] at ran
    exact ran
  · exact stage1Left_ready (x := s.dx k) ready ▸ windowStage1_worked live calm op busy
  · exact stage1Left_waits (x := s.dx k) waits ▸ windowStage1_worked live calm op busy

/-! ### Messages -/

theorem ackContrib_own {x : Dx} {n : Nat} (me : x.c.isMe n = true) (table tag : Nat) :
    ackContrib x table tag [n] = x.emb (fun e => let w := e.window table tag (n != x.c.node); e.setWindow { w with unacked := w.unacked - 1 }) :=
  if_pos (by rw [me]; rfl)

theorem ackContrib_forward {x : Dx} {n : Nat} {rest : List Nat} (far : x.c.isMe n = false ∨ rest ≠ []) (table tag : Nat) :
    ackContrib x table tag (n :: rest) = x.send n 13 (.contribAck table tag (n :: rest)) := by
  refine if_neg fun h => ?_
  rw [Bool.and_eq_true, List.isEmpty_iff] at h
  exact far.elim (fun no => Bool.false_ne_true (no.symm.trans h.1)) (fun more => more h.2)

theorem State.lookTake_work {s : State} {k dst : Nat} (mine : s.strandFor k dst = true) (src node g n : Nat) (d v : List Nat) (p : Bool) :
    s.lookTake dst src (.group node k g n d v p) = s.work k (fun x => lookupAnswer x k src (.group node k g n d v p)) := if_pos mine

/-! ### Verdicts (R334, R335) -/

/-- What a verdict does at strand `k`, where an `EMB_SYNC` may wait for it. -/
def State.syncGoes (step : Nat) (u : State) (k : Nat) : State :=
  if (u.strand k).op = 0x33 then u.work k (fun x => if verdictsIn x then (syncFinish x step, true) else (x, false)) else u

theorem State.syncGoes_idle {s : State} {k : Nat} (idle : ¬((s.strand k).op = 0x33 ∧ (s.strand k).phase = .busy)) (step : Nat) : s.syncGoes step k = s := by
  unfold State.syncGoes State.work
  split
  · next op => exact if_pos fun busy => idle ⟨op, busy⟩
  · rfl

theorem State.syncGoes_all_idle {s : State} (step : Nat) : ∀ ks : List Nat, (∀ k ∈ ks, ¬((s.strand k).op = 0x33 ∧ (s.strand k).phase = .busy)) → ks.foldl (State.syncGoes step) s = s
  | [], _ => rfl
  | k :: ks, idle => by
    rw [List.foldl_cons, State.syncGoes_idle (idle k List.mem_cons_self)]
    exact State.syncGoes_all_idle step ks fun j hj => idle j (List.mem_cons_of_mem k hj)

theorem State.syncGoes_others {s : State} {k j : Nat} (busy : (s.strand k).phase = .busy) (ne : j ≠ k) (step : Nat) : (s.syncGoes step k).strand j = s.strand j := by
  unfold State.syncGoes
  split
  · exact (State.work_worked busy _).others j ne
  · rfl

/-- Where one `EMB_SYNC` alone waits, a verdict works on its descriptor. -/
theorem State.syncGoes_single {s : State} {k : Nat} (busy : (s.strand k).phase = .busy) (step : Nat) :
    ∀ ks : List Nat, ks.Nodup → k ∈ ks → (∀ j ∈ ks, j ≠ k → ¬((s.strand j).op = 0x33 ∧ (s.strand j).phase = .busy)) → ks.foldl (State.syncGoes step) s = s.syncGoes step k
  | j :: js, nodup, mem, idle => by
    obtain ⟨fresh, nodup⟩ := List.nodup_cons.1 nodup
    rw [List.foldl_cons]
    by_cases here : j = k
    · subst here
      refine State.syncGoes_all_idle step js fun i hi => ?_
      have ne : i ≠ j := fun h => fresh (h ▸ hi)
      rw [State.syncGoes_others busy ne]
      exact idle i (List.mem_cons_of_mem j hi) ne
    · rw [State.syncGoes_idle (idle j List.mem_cons_self here)]
      exact State.syncGoes_single busy step js nodup ((List.mem_cons.1 mem).resolve_left (Ne.symm here)) fun i hi => idle i (List.mem_cons_of_mem j hi)

/-- A device that has kept a verdict in place of an older one. -/
def State.keepVerdict (s : State) (table r : Nat) (ok : Bool) : State :=
  s.on (fun c => { c with emb := { c.emb with verdicts := c.emb.verdicts.filter (fun v => !(v.1 == table && v.2.1 == r)) ++ [(table, r, ok)] } })

theorem migrationVerdict_eq {s : State} (serves : s.serves = true) (table r : Nat) (ok : Bool) :
    migrationVerdict s table r ok = (upto 64).foldl (State.syncGoes (s.core.reg Reg.jobStep)) (s.keepVerdict table r ok) := if_neg (by rw [serves]; decide)

theorem migrationVerdict_idle {s : State} (serves : s.serves = true) (table r : Nat) (ok : Bool) (idle : ∀ k, k < 64 → ¬((s.strand k).op = 0x33 ∧ (s.strand k).phase = .busy)) :
    migrationVerdict s table r ok = s.keepVerdict table r ok :=
  (migrationVerdict_eq serves ..).trans (State.syncGoes_all_idle _ _ fun k hk => idle k (List.mem_range.1 hk))

theorem migrationVerdict_worked {s : State} (serves : s.serves = true) (table r : Nat) (ok : Bool) {k : Nat} (lt : k < 64) (op : (s.strand k).op = 0x33) (busy : (s.strand k).phase = .busy)
    (alone : ∀ j, j < 64 → j ≠ k → ¬((s.strand j).op = 0x33 ∧ (s.strand j).phase = .busy)) :
    let s1 := s.keepVerdict table r ok
    Worked s1 (migrationVerdict s table r ok) k (if verdictsIn (s1.dx k) then (syncFinish (s1.dx k) (s.core.reg Reg.jobStep), true) else (s1.dx k, false)) := by
  have run : migrationVerdict s table r ok = (s.keepVerdict table r ok).work k (fun x => if verdictsIn x then (syncFinish x (s.core.reg Reg.jobStep), true) else (x, false)) :=
    calc migrationVerdict s table r ok
      _ = (upto 64).foldl (State.syncGoes (s.core.reg Reg.jobStep)) (s.keepVerdict table r ok) := migrationVerdict_eq serves ..
      _ = (s.keepVerdict table r ok).syncGoes (s.core.reg Reg.jobStep) k :=
        State.syncGoes_single (s := s.keepVerdict table r ok) busy _ _ List.nodup_range (List.mem_range.2 lt) fun j hj => alone j (List.mem_range.1 hj)
      _ = _ := if_pos op
  rw [run]
  exact State.work_worked (s := s.keepVerdict table r ok) busy fun x => if verdictsIn x then (syncFinish x (s.core.reg Reg.jobStep), true) else (x, false)

theorem selectMigrations_due {s : State} (serves : s.serves = true) (due : s.core.emb.selDue = true) (mean : Nat) (low : List (Nat × Nat × List (Nat × Nat))) :
    Served s (selectMigrations s mean low) (migrationSelect (s.dev s.embQ (s.serveAs s.core.node)) mean low) := by
  rw [selectMigrations, if_pos (by rw [serves, due]; rfl)]
  exact s.withDev_served _

theorem selectMigrations_idle {s : State} (idle : s.core.emb.selDue = false) (mean : Nat) (low : List (Nat × Nat × List (Nat × Nat))) : selectMigrations s mean low = s := by
  rw [selectMigrations, if_neg (by rw [idle, Bool.and_false]; decide)]

theorem endForward_served {s : State} (serves : s.serves = true) (table r : Nat) : Served s (endForward s table r) (forwardEnd (s.dev s.embQ (s.serveAs s.core.node)) table r) := by
  rw [endForward, if_pos serves]
  exact s.withDev_served _

theorem next_blocked {s : State} {m : Msg} (serves : s.serves = true) (blocked : s.Blocked m) :
    (Host.Outcome.next (finish s (s.takeMsg m)) : Host.Outcome State Fault Refusal) = .next (finish s (s.on (fun c => { c with inbox := c.inbox ++ [m] }))) :=
  congrArg (fun u => Host.Outcome.next (finish s u)) (State.takeMsg_blocked serves blocked)

/-- Settles O41: each message through `State.takeMsg_served` or `State.takeMsg_worked`, each that waits through `State.takeMsg_blocked`. -/
theorem embeddingMessages : Obligations.EmbeddingMessages := by
  unfold Obligations.EmbeddingMessages
  intro s dst serves
  refine ⟨fun r => ⟨fun takes => ⟨_, rfl, State.takeMsg_served serves takes rfl⟩, next_blocked serves⟩,
    fun src serve r vals poison => ⟨fun takes => ⟨_, rfl, State.takeMsg_served serves takes rfl⟩, next_blocked serves⟩,
    fun src node k g n d v p => ⟨next_blocked serves, fun takes mine busy => ⟨_, rfl, State.takeMsg_worked serves takes busy (State.lookTake_work mine ..)⟩⟩,
    fun g => ⟨fun takes => ⟨_, rfl, State.takeMsg_served serves takes rfl⟩, next_blocked serves⟩,
    fun c => ⟨fun takes => ⟨_, rfl, State.takeMsg_served serves takes rfl⟩, next_blocked serves⟩,
    fun src table tag => ⟨fun takes => ⟨_, rfl, State.takeMsg_served serves takes rfl⟩, next_blocked serves⟩,
    fun src table tag => ⟨fun takes => ⟨_, rfl, State.takeMsg_served serves takes rfl⟩, next_blocked serves⟩,
    fun table tag n me => ⟨fun takes => ⟨_, rfl, State.takeMsg_served serves takes (congrArg s.withDev (ackContrib_own me table tag))⟩, next_blocked serves⟩,
    fun table tag f n rest far => ⟨fun takes => ⟨_, rfl, State.takeMsg_served serves takes (congrArg s.withDev ?_)⟩, next_blocked serves⟩,
    fun mean low => ⟨fun due => ⟨_, rfl, selectMigrations_due serves due mean low⟩, fun idle => congrArg (fun u => Host.Outcome.next (finish s u)) (selectMigrations_idle idle mean low)⟩,
    fun m => ⟨fun takes => ⟨_, rfl, State.takeMsg_served serves takes rfl⟩, next_blocked serves⟩,
    fun table r slot => ⟨fun takes => ⟨_, rfl, State.takeMsg_served serves takes rfl⟩, next_blocked serves⟩,
    fun n => ⟨fun takes => ⟨_, rfl, State.takeMsg_served serves takes rfl⟩, next_blocked serves⟩,
    fun table r => ⟨_, rfl, endForward_served serves table r⟩,
    fun table r ok => ⟨fun idle => congrArg (fun u => Host.Outcome.next (finish s u)) (migrationVerdict_idle serves table r ok idle),
      fun k lt op busy alone => ⟨_, rfl, migrationVerdict_worked serves table r ok lt op busy alone⟩⟩⟩
  rw [if_pos (by rw [List.length_cons, List.length_cons]; omega), List.drop_one]
  exact ackContrib_forward far table tag

end Sys2Proof.Machine
end

section
/-! SUPPORT. Launches on the lane processors: start, dispatch, deferred adds, saving, reserved opcodes (R345 to R347, R353, R359, R363 to R370, R375). -/
namespace Sys2Proof.Machine
open Sys2Proof

-- Threads that wait for the kernel keep their stacks, and the check limits the memory of one text.
set_option Elab.async false

/-! ### Launches of the machine -/

theorem Core.launch?_dropLaunch (c : Core) (k : Nat) : (c.dropLaunch k).launch? k = none := by
  simp [Core.dropLaunch, Core.launch?]

theorem Core.launch?_congr {c d : Core} (h : c.lanes = d.lanes) (k : Nat) : c.launch? k = d.launch? k := by rw [Core.launch?, Core.launch?, h]

theorem Core.strand_of_launch? {c : Core} {k : Nat} {r : LaneRun} (h : c.launch? k = some r) : r.strand = k := by simpa using List.find?_some h

@[simp] theorem Core.raise_lanes (c : Core) (page i : Nat) : (c.raise page i).lanes = c.lanes := (rfl)
@[simp] theorem Core.setFld_lanes (c : Core) (key lo w v : Nat) : (c.setFld key lo w v).lanes = c.lanes := (rfl)

theorem Core.launch?_dropRuns (c : Core) (k : Nat) : (c.dropRuns k).launch? k = none := c.launch?_dropLaunch k

theorem State.endDesc_launch? (s : State) (k st : Nat) : (s.endDesc k st).core.launch? k = none := s.core.launch?_dropRuns k

theorem finishLaunch_launch? (x : Dx) (r : LaneRun) : (finishLaunch x r).c.launch? r.strand = none := Core.launch?_dropLaunch _ _

theorem stopLaunch_launch? (x : Dx) (r : LaneRun) (g reason : Nat) : (stopLaunch x r g reason).c.launch? r.strand = none :=
  (Core.launch?_congr (by rw [stopLaunch]; exact (Core.raise_lanes ..).trans ((Core.setFld_lanes ..).trans (Core.setFld_lanes ..))) r.strand).trans (finishLaunch_launch? x r)

theorem stopLaunch_status (x : Dx) (r : LaneRun) (g reason : Nat) : 0x20 ≤ (stopLaunch x r g reason).comp.status := Nat.le_max_right _ _

/-- The reason of a group's stop stands in LANE_FAULT (R353). -/
theorem stopLaunch_reason (x : Dx) (r : LaneRun) (g reason : Nat) : (stopLaunch x r g reason).c.fld (Reg.laneFault r.quarter) 1 2 = reason % 2 ^ 2 := by
  have apart : Reg.laneFault r.quarter ≠ qpage r.quarter 4 * 4096 + 0x10 := by rw [Reg.laneFault, qreg, qpage]; omega
  rw [stopLaunch, Dx.core, Core.fld_raise_ne _ _ _ apart, Core.fld_setFld_other _ _ _ (by decide) (by decide), Core.fld_setFld_eq _ _ _ (by decide)]

theorem laneNext_launch {x : Dx} {gi : Nat} {r : LaneRun} {g : LaneGroup} {w : LWord} (h : laneNext x gi = some (r, g, w)) : x.c.launch? (x.acc.strand.getD 64) = some r := by
  unfold laneNext at h
  split at h
  · cases h
  · next r' found =>
    split at h
    · cases h
    · cases h; exact found

theorem State.dx_launch? (s : State) (k : Nat) : (s.dx k).c.launch? ((s.dx k).acc.strand.getD 64) = s.core.launch? k := rfl

/-! ### Descriptors that draw nothing -/

theorem Dx.held_of_lfsr {x y : Dx} (same : y.lfsr = x.lfsr) : x.held y = false := by
  rw [Dx.held, same, bne_self_eq_false, Bool.false_and, Bool.false_and]

theorem Ran.left {s u : State} {k : Nat} {r : Dx × Bool} (h : Ran s u k r) (free : (s.dx k).held r.1 = false) : Left s u k r.1 (if r.2 then .done else .busy) := by
  have left := h.1
  rwa [if_neg (by rw [free]; decide)] at left

theorem Dx.write_lfsr (x : Dx) (a : Nat) (bs : List Byte) : (x.write a bs).lfsr = x.lfsr := rfl

theorem laneSave_lfsr (x : Dx) : (laneSave x).1.lfsr = x.lfsr := by
  unfold laneSave
  dsimp only
  split
  · exact Dx.write_lfsr ..
  · exact List.foldlRecOn (motive := fun y : Dx => y.lfsr = x.lfsr) _ _ (Dx.write_lfsr ..) fun y hy p _ => (Dx.write_lfsr ..).trans hy

theorem laneSave_strand {x : Dx} {r : LaneRun} (found : x.c.launch? (x.f 24 0 6) = some r) : (laneSave x).2 = some (x.f 24 0 6) := by
  unfold laneSave
  dsimp only
  rw [found]
  exact congrArg some (Core.strand_of_launch? found)

theorem laneSave_none {x : Dx} (none : x.c.launch? (x.f 24 0 6) = none) : (laneSave x).2 = .none := by
  unfold laneSave
  dsimp only
  rw [none]

/-! ### LANE_LAUNCH -/

/-- The launch that strand `k`'s LANE_LAUNCH opens. -/
def State.newLaunch (s : State) (k : Nat) : LaneRun :=
  { strand := k, quarter := s.quarter k, desc := (s.strand k).desc, procFirst := (s.strand k).f 25 0 7, procCount := procCount (s.strand k).desc }

theorem launchRun_ran {s : State} {k : Nat} (ready : s.engineRun k 0x50 = true) : Ran s (launchRun s k) k (laneLaunch (s.dx k)) := by
  rw [launchRun, if_pos ready]
  exact State.runDesc_ran (State.engineRun_present ready) _ _ (State.admits_nil s k)

theorem laneLaunch_opens {s : State} {k : Nat} (sound : s.core.lanesFaulty (s.quarter k) = false) (groups : (s.strand k).f 28 0 24 ≠ 0) :
    laneLaunch (s.dx k) = ((s.dx k).core (fun c => { c with lanes := c.lanes ++ [s.newLaunch k] }), false) := by
  have opens : laneLaunch (s.dx k) = _ := (if_neg (Bool.eq_false_iff.1 sound)).trans (if_neg groups)
  exact opens

theorem laneLaunch_faulty {s : State} {k : Nat} (faulty : s.core.lanesFaulty (s.quarter k) = true) : laneLaunch (s.dx k) = ((s.dx k).st 0x40, true) := if_pos faulty

theorem launchRun_opens {s : State} {k : Nat} (ready : s.engineRun k 0x50 = true) (sound : s.core.lanesFaulty (s.quarter k) = false) (groups : (s.strand k).f 28 0 24 ≠ 0) :
    ((launchRun s k).strand k).phase = .busy ∧ (launchRun s k).core.lanes = s.core.lanes ++ [s.newLaunch k] ∧ (launchRun s k).core.mem = s.core.mem := by
  have ran := launchRun_ran ready
  rw [laneLaunch_opens sound groups] at ran
  obtain ⟨core, -, phase, -⟩ := ran.left (Dx.held_of_lfsr rfl)
  refine ⟨phase, ?_, ?_⟩
  · rw [core]; rfl
  · rw [core]; rfl

theorem launchRun_faulty {s : State} {k : Nat} (ready : s.engineRun k 0x50 = true) (faulty : s.core.lanesFaulty (s.quarter k) = true) :
    ((launchRun s k).strand k).phase = .done ∧ 0x40 ≤ ((launchRun s k).strand k).comp.status ∧ (launchRun s k).core.lanes = s.core.lanes := by
  have ran := launchRun_ran ready
  rw [laneLaunch_faulty faulty] at ran
  obtain ⟨core, -, phase, record, -⟩ := ran.left (Dx.held_of_lfsr rfl)
  refine ⟨phase, ?_, ?_⟩
  · rw [record]; exact Nat.le_max_right _ _
  · rw [core]; rfl

/-! ### GROUP_DISPATCH -/

theorem dispatchRun_worked {s : State} {k p : Nat} {r : LaneRun} (live : s.live = true) (calm : s.pwr.emergency = false) (busy : (s.strand k).phase = .busy)
    (found : s.core.launch? k = some r) (next : s.core.nextProc r = some p) (left : r.left = true) (isOpen : s.core.dispatchOpen r p = true)
    (ok : (s.askUnit (unitLane r.quarter p) k).2 = true) : Worked s (dispatchRun s k) k (groupDispatch (s.dx k)) := by
  have asked := Asked.askUnit s (unitLane r.quarter p) k
  unfold dispatchRun
  rw [State.event?_eq live calm, found]
  dsimp only
  rw [next]
  dsimp only
  rw [if_neg (by rw [left, isOpen]; decide), if_pos ok]
  exact asked.worked busy groupDispatch (asked.dx (Admitted.askUnit ok).core k) _

theorem sget_newGroup (r : LaneRun) (g p i : Nat) : sget 0 (r.newGroup g p).s i =
    if i = 3 then (r.off 40 + g * r.scratch) % 2 ^ 32 else if i = 2 then r.off 36 else if i = 1 then r.groups else if i = 0 then g else 0 := by
  have read (m : SMap Nat) (j v : Nat) : sget 0 (sset 0 m j v) i = if i = j then v else sget 0 m i := by
    split
    · next h => rw [h, sget_sset_eq]
    · next h => exact sget_sset_ne 0 m j i v h
  simp only [LaneRun.newGroup, read]
  rfl

theorem newGroup_thread (r : LaneRun) (g p : Nat) {t : Nat} (lt : t < 32) : sfind (r.newGroup g p).v t = some t :=
  (show ∀ t, t < 32 → sfind ((upto 32).map fun t => (t, t)) t = some t by decide) t lt

/-! ### DEFERRED_ADD_APPLY -/

theorem deferredApply_done {x : Dx} {r : LaneRun} (found : x.c.launch? (x.acc.strand.getD 64) = some r) (empty : r.resident = []) (last : r.left = false) :
    (deferredApply x).2 = true ∧ (deferredApply x).1.c.launch? (x.acc.strand.getD 64) = none := by
  unfold deferredApply
  rw [found]
  dsimp only
  rw [if_neg (by rw [empty, last]; decide)]
  exact ⟨rfl, (congrArg _ (Core.strand_of_launch? found).symm).trans (finishLaunch_launch? _ { r with adds := [] })⟩

/-! ### LANE_SAVE -/

/-- The state in which LANE_SAVE has written its image. -/
def State.saved (s : State) (k : Nat) : State := s.runDesc k (fun _ => []) (fun x => ((laneSave x).1, true))

theorem saveRun_some {s : State} {k : Nat} {r : LaneRun} (ready : s.engineRun k 0x51 = true) (found : s.core.launch? ((s.strand k).f 24 0 6) = some r) :
    saveRun s k = ((s.saved k).endDesc ((s.strand k).f 24 0 6) 0x20).setStrand ((s.strand k).f 24 0 6) (fun t => { t with comp := { t.comp with cancelled := true } }) := by
  rw [saveRun, if_neg (by rw [ready]; decide), laneSave_strand (x := s.dx k) found]
  rfl

theorem saveRun_none {s : State} {k : Nat} (ready : s.engineRun k 0x51 = true) (none : s.core.launch? ((s.strand k).f 24 0 6) = .none) : saveRun s k = s.saved k := by
  rw [saveRun, if_neg (by rw [ready]; decide), laneSave_none (x := s.dx k) none]
  rfl

theorem State.saved_ran {s : State} {k : Nat} (ready : s.engineRun k 0x51 = true) : Ran s (s.saved k) k ((laneSave (s.dx k)).1, true) :=
  State.runDesc_ran (State.engineRun_present ready) (fun _ => []) (fun x => ((laneSave x).1, true)) (State.admits_nil s k)

/-- The end of a strand's descriptor: it is done with at least the status. -/
theorem State.endDesc_strand (s : State) {k : Nat} (st : Nat) (present : k < s.ctl.strands.length) :
    ((s.endDesc k st).strand k).phase = .done ∧ st ≤ ((s.endDesc k st).strand k).comp.status := by
  have there : k < ((s.on (fun c => c.dropRuns k)).leave k).ctl.strands.length := present
  unfold State.endDesc
  dsimp only
  rw [State.strand_setStrand_eq _ _ _ there]
  exact ⟨rfl, Nat.le_max_right _ _⟩

theorem State.endDesc_length (s : State) (k st : Nat) : (s.endDesc k st).ctl.strands.length = s.ctl.strands.length := by
  unfold State.endDesc
  exact State.setStrand_length ..

theorem State.endDesc_others (s : State) {k j : Nat} (st : Nat) (ne : j ≠ k) : (s.endDesc k st).strand j = s.strand j := by
  unfold State.endDesc
  dsimp only
  rw [State.strand_setStrand_ne _ _ _ _ ne, State.leave, State.on_strand, State.on_strand]

theorem State.runDesc_length (s : State) (k : Nat) (units : Dx → List Nat) (f : Dx → Dx × Bool) : (s.runDesc k units f).ctl.strands.length = s.ctl.strands.length := by
  unfold State.runDesc
  dsimp only
  have asked := Asked.askUnits s (units (f (s.dx k)).1) k
  split
  · rw [asked.ctl]
  · split
    · dsimp only; rw [State.setStrand_length, State.worked_ctl, asked.withDx_length]
    · rw [State.setStrand_length, State.worked_ctl, asked.withDx_length]

/-- What ending the launch of another strand leaves, after a descriptor of this one. -/
theorem State.endLaunch_clauses (u : State) {k j : Nat} (ne : j ≠ k) (present : j < u.ctl.strands.length) (done : (u.strand k).phase = .done) :
    let v := (u.endDesc j 0x20).setStrand j (fun t => { t with comp := { t.comp with cancelled := true } })
    (v.strand k).phase = .done ∧ v.core.launch? j = none ∧ (v.strand j).phase = .done ∧ 0x20 ≤ (v.strand j).comp.status ∧ (v.strand j).comp.cancelled = true := by
  have there : j < (u.endDesc j 0x20).ctl.strands.length := by rw [State.endDesc_length]; exact present
  obtain ⟨ended, status⟩ := u.endDesc_strand 0x20 present
  dsimp only
  refine ⟨?_, u.endDesc_launch? j 0x20, ?_, ?_, ?_⟩
  · rw [State.strand_setStrand_ne _ _ _ _ (Ne.symm ne), u.endDesc_others _ (Ne.symm ne), done]
  · rw [State.strand_setStrand_eq _ _ _ there]; exact ended
  · rw [State.strand_setStrand_eq _ _ _ there]; exact status
  · rw [State.strand_setStrand_eq _ _ _ there]

theorem saveRun_clauses {s : State} {k : Nat} {r : LaneRun} (ready : s.engineRun k 0x51 = true) (found : s.core.launch? ((s.strand k).f 24 0 6) = some r)
    (ne : (s.strand k).f 24 0 6 ≠ k) (present : (s.strand k).f 24 0 6 < s.ctl.strands.length) :
    let u := saveRun s k
    let j := (s.strand k).f 24 0 6
    (u.strand k).phase = .done ∧ u.core.launch? j = none ∧ (u.strand j).phase = .done ∧ 0x20 ≤ (u.strand j).comp.status ∧ (u.strand j).comp.cancelled = true := by
  have done := ((State.saved_ran ready).left (Dx.held_of_lfsr (laneSave_lfsr _))).phase
  dsimp only
  rw [saveRun_some ready found]
  exact State.endLaunch_clauses _ ne (by rw [State.saved, State.runDesc_length]; exact present) done

theorem restoreRun_ran {s : State} {k : Nat} (ready : s.engineRun k 0x52 = true) : Ran s (restoreRun s k) k (laneRestore (s.dx k)) := by
  rw [restoreRun, if_pos ready]
  exact State.runDesc_ran (State.engineRun_present ready) _ _ (State.admits_nil s k)

/-! ### LANE_RESERVED_OPCODE -/

theorem laneReserved_stops {x : Dx} {gi : Nat} {r : LaneRun} {g : LaneGroup} {w : LWord} (next : laneNext x gi = some (r, g, w)) (reserved : w.reserved = true) :
    laneReserved x gi = (stopLaunch (x.touch (r.codeAt g.pc) 8) r g.g 3, true) := by
  rw [laneReserved, next]
  exact if_pos reserved

/-- What a descriptor that an outside event ended has left. -/
theorem Worked.done {s u : State} {k : Nat} {r : Dx × Bool} (h : Worked s u k r) (fin : r.2 = true) :
    (u.strand k).phase = .done ∧ (u.strand k).comp = r.1.comp ∧ u.core = { r.1.c with actAs := none } := by
  rw [Worked, if_pos fin] at h
  exact ⟨h.phase, h.record, h.core⟩

theorem applyDeferred_worked {s : State} {k : Nat} (live : s.live = true) (calm : s.pwr.emergency = false) (busy : (s.strand k).phase = .busy) :
    Worked s (applyDeferred s k) k (deferredApply (s.dx k)) := by
  rw [applyDeferred, State.event?_eq live calm]
  exact State.work_worked busy _

theorem reservedOp_worked {s : State} {k : Nat} (live : s.live = true) (calm : s.pwr.emergency = false) (busy : (s.strand k).phase = .busy) (gi : Nat) :
    Worked s (reservedOp s k gi) k (laneReserved (s.dx k) gi) := by
  rw [reservedOp, State.event?_eq live calm]
  exact State.work_worked busy (fun x => laneReserved x gi)

/-- What a descriptor that an outside event ended at a status has left, where it held its strand's launch. -/
theorem Worked.ended {s u : State} {k : Nat} {x : Dx} (h : Worked s u k (x, true)) {st : Nat} (status : st ≤ x.comp.status) (gone : x.c.launch? k = none) :
    (u.strand k).phase = .done ∧ st ≤ (u.strand k).comp.status ∧ u.core.launch? k = none ∧ ∀ key lo w, u.core.fld key lo w = x.c.fld key lo w := by
  obtain ⟨done, record, core⟩ := h.done rfl
  refine ⟨done, ?_, ?_, fun key lo w => ?_⟩
  · rw [record]; exact status
  · rw [core]; exact gone
  · rw [core]; rfl

theorem reservedOp_clauses {s : State} {k gi : Nat} {r : LaneRun} {g : LaneGroup} {w : LWord} (live : s.live = true) (calm : s.pwr.emergency = false)
    (busy : (s.strand k).phase = .busy) (next : laneNext (s.dx k) gi = some (r, g, w)) (reserved : w.reserved = true) :
    let u := reservedOp s k gi
    (u.strand k).phase = .done ∧ 0x20 ≤ (u.strand k).comp.status ∧ u.core.launch? k = none ∧ u.core.fld (Reg.laneFault r.quarter) 1 2 = 3 := by
  have own : r.strand = k := Core.strand_of_launch? (laneNext_launch next)
  have worked := reservedOp_worked live calm busy gi
  rw [laneReserved_stops next reserved] at worked
  obtain ⟨done, status, gone, fields⟩ := worked.ended (stopLaunch_status _ r g.g 3) (own ▸ stopLaunch_launch? _ r g.g 3)
  exact ⟨done, status, gone, (fields _ 1 2).trans (stopLaunch_reason _ r g.g 3)⟩

theorem applyDeferred_clauses {s : State} {k : Nat} {r : LaneRun} (live : s.live = true) (calm : s.pwr.emergency = false) (busy : (s.strand k).phase = .busy)
    (found : s.core.launch? k = some r) (empty : r.resident = []) (last : r.left = false) :
    let u := applyDeferred s k
    Worked s u k (deferredApply (s.dx k)) ∧ (u.strand k).phase = .done ∧ u.core.launch? k = none := by
  have worked := applyDeferred_worked live calm busy
  obtain ⟨fin, gone⟩ := deferredApply_done (x := s.dx k) found empty last
  obtain ⟨done, -, core⟩ := worked.done fin
  refine ⟨worked, done, ?_⟩
  rw [core]
  exact gone

/-- Settles O42: each command runs its descriptor or works on it; the clauses read off what the lane functions leave. -/
theorem laneLaunches : Obligations.LaneLaunches := by
  unfold Obligations.LaneLaunches
  refine ⟨fun s k => ⟨fun ready sound groups => ⟨_, s.newLaunch k, rfl, ?_⟩, fun ready faulty => ⟨_, rfl, ?_⟩,
    fun r p live calm busy found next left isOpen ok => ⟨_, rfl, dispatchRun_worked live calm busy found next left isOpen ok⟩,
    fun r live calm busy found empty last => ⟨_, rfl, ?_⟩, fun r ready found ne present => ⟨_, rfl, ?_⟩, fun ready none => ⟨_, rfl, ?_⟩,
    fun ready => ⟨_, rfl, restoreRun_ran ready⟩, fun gi r g w live calm busy next reserved => ⟨_, rfl, ?_⟩⟩, fun r g p => ?_⟩
  · obtain ⟨phase, lanes, mem⟩ := launchRun_opens ready sound groups
    exact ⟨phase, lanes, rfl, rfl, rfl, rfl, rfl, rfl, rfl, mem⟩
  · exact launchRun_faulty ready faulty
  · exact applyDeferred_clauses live calm busy found empty last
  · exact saveRun_clauses ready found ne present
  · exact saveRun_none ready none ▸ State.saved_ran ready
  · exact reservedOp_clauses live calm busy next reserved
  · dsimp only
    refine ⟨by simp [sget_newGroup], by simp [sget_newGroup], by simp [sget_newGroup], by simp [sget_newGroup], fun i hi => ?_, rfl, rfl, rfl, rfl, rfl, fun t lt => newGroup_thread r g p lt⟩
    rw [sget_newGroup, if_neg (by omega), if_neg (by omega), if_neg (by omega), if_neg (by omega)]

end Sys2Proof.Machine
end

section
/-! SUPPORT. The issue of lane instructions, and their failed checks (R351, R363, R373). -/
namespace Sys2Proof.Machine
open Sys2Proof

-- Threads that wait for the kernel keep their stacks, and the check limits the memory of one text.
set_option Elab.async false

/-- Each command of the lane instructions issues the group and the operation of its row. -/
theorem exec_laneRow {c : Nat → Nat → Nat → Instr} {grp op : Nat} (row : (c, grp, op) ∈ laneRows) (s : State) (k gi fails : Nat) :
    exec (c k gi fails) s = .next (finish s (laneOp s grp op k gi fails)) := by
  have all : ∀ p ∈ laneRows, exec (p.1 k gi fails) s = .next (finish s (laneOp s p.2.1 p.2.2 k gi fails)) := by
    simp only [laneRows, List.cons_append, List.nil_append, List.forall_mem_cons]
    and_intros <;> try rfl
    exact fun p hp => absurd hp List.not_mem_nil
  exact all _ row

theorem Asked.worked_units (s : State) (us : List Nat) : Asked s (s.worked us) := ⟨rfl, rfl, rfl, rfl, rfl⟩

theorem Asked.laneWorked (s : State) (k g : Nat) : Asked s (s.laneWorked k g) ∧ (s.laneWorked k g).core = s.core := by
  unfold State.laneWorked
  split
  · split
    · exact ⟨Asked.worked_units s _, rfl⟩
    · exact ⟨Asked.refl s, rfl⟩
  · exact ⟨Asked.refl s, rfl⟩

theorem Worked.of_worked {s u : State} {k : Nat} {r : Dx × Bool} {us : List Nat} (h : Worked s (u.worked us) k r) : Worked s u k r := by
  obtain ⟨core, ctl, phase, record, place, others, rest⟩ := h
  exact ⟨core, ctl, phase, record, place, others, rest⟩

theorem laneOp_worked {s : State} {k : Nat} (live : s.live = true) (calm : s.pwr.emergency = false) (busy : (s.strand k).phase = .busy) (grp op gi fails : Nat) :
    Worked s (laneOp s grp op k gi fails) k (laneIssue (s.dx k) grp op gi fails) := by
  obtain ⟨asked, core⟩ := Asked.laneWorked s k gi
  rw [laneOp, State.event?_eq live calm]
  exact (asked.worked busy (fun x => laneIssue x grp op gi fails) (asked.dx core k) []).of_worked

/-! ### Checks -/

theorem laneChecks_passes (x : Dx) (q : Nat) {fails : Nat} (few : fails < 3) : (laneChecks x q fails).2 = false := by
  unfold laneChecks
  dsimp only
  split
  · rfl
  · rw [if_neg (by omega)]

/-- One or two failed checks are reruns, which the record counts. -/
theorem laneChecks_reruns (x : Dx) (q : Nat) {fails : Nat} (some : 0 < fails) (few : fails < 3) :
    0x10 ≤ (laneChecks x q fails).1.comp.status ∧ fails ≤ (laneChecks x q fails).1.comp.retries := by
  unfold laneChecks
  dsimp only
  rw [if_neg (by omega), if_neg (by omega)]
  dsimp only
  refine ⟨Nat.le_max_right _ _, Nat.le_trans ?_ (Nat.le_max_right _ _)⟩
  omega

/-- A third failed check ends the launch and declares the quarter's lane processors faulty. -/
theorem laneChecks_fails (x : Dx) (q : Nat) {fails : Nat} (many : 3 ≤ fails) :
    (laneChecks x q fails).2 = true ∧ 0x40 ≤ (laneChecks x q fails).1.comp.status ∧ (laneChecks x q fails).1.c.lanesFaulty q = true := by
  have apart : Reg.laneFault q ≠ qpage q 4 * 4096 + 0x10 := by rw [Reg.laneFault, qreg, qpage]; omega
  unfold laneChecks
  dsimp only
  rw [if_neg (by omega), if_pos (by omega)]
  refine ⟨rfl, Nat.le_max_right _ _, ?_⟩
  rw [Core.lanesFaulty, Dx.core, Core.fld_raise_ne _ _ _ apart, Core.setBit, Core.fld_setFld_eq _ _ _ (by decide)]
  rfl

/-! ### Issuing -/

/-- The machine in which a thread group's word has been fetched and counted (R351). -/
def State.laneFetched (s : State) (k : Nat) (r : LaneRun) (g : LaneGroup) : Dx := ((s.dx k).touch (r.codeAt g.pc) 8).core (fun c => c.inc64 (Reg.laneIssueLo r.quarter) 1)

theorem laneIssue_eq {s : State} {k gi grp op : Nat} {r : LaneRun} {g : LaneGroup} {w : LWord} (h : Issues s k gi r g w grp op) (fails : Nat) :
    laneIssue (s.dx k) grp op gi fails =
      if (laneChecks (s.laneFetched k r g) r.quarter fails).2 then (finishLaunch (laneChecks (s.laneFetched k r g) r.quarter fails).1 r, true)
      else settleGroup (laneRunWord (laneStart s k r g fails) w).1 (laneRunWord (laneStart s k r g fails) w).2 := by
  obtain ⟨grp', op', kept⟩ := h.word
  rw [laneIssue, h.next]
  exact if_neg (by rw [grp', op', kept]; simp)

theorem laneOp_issued {s : State} {k gi grp op : Nat} {r : LaneRun} {g : LaneGroup} {w : LWord} (h : Issues s k gi r g w grp op) {fails : Nat} (few : fails < 3) :
    Issued s (laneOp s grp op k gi fails) k r g w fails := by
  have worked := laneOp_worked h.live h.calm h.busy grp op gi fails
  rw [laneIssue_eq h, if_neg (by rw [laneChecks_passes _ _ few]; decide)] at worked
  exact worked

theorem Comp.status_dropMany (t : Comp) (n i : Nat) : t.status ≤ (t.dropMany n i).status := by
  unfold Comp.dropMany
  split
  · exact Nat.le_refl _
  · exact Nat.le_max_left _ _

theorem laneOp_dead {s : State} {k gi grp op : Nat} {r : LaneRun} {g : LaneGroup} {w : LWord} (h : Issues s k gi r g w grp op) {fails : Nat} (many : 3 ≤ fails) :
    let u := laneOp s grp op k gi fails
    (u.strand k).phase = .done ∧ 0x40 ≤ (u.strand k).comp.status ∧ u.core.launch? k = none ∧ u.core.lanesFaulty r.quarter = true := by
  obtain ⟨dead, status, faulty⟩ := laneChecks_fails (s.laneFetched k r g) r.quarter many
  have own : r.strand = k := Core.strand_of_launch? (laneNext_launch h.next)
  have worked := laneOp_worked h.live h.calm h.busy grp op gi fails
  rw [laneIssue_eq h, if_pos dead] at worked
  generalize (laneChecks (s.laneFetched k r g) r.quarter fails).1 = x at worked status faulty
  obtain ⟨done, status', gone, fields⟩ := worked.ended (Nat.le_trans status (Comp.status_dropMany _ _ _)) (own ▸ finishLaunch_launch? x r)
  refine ⟨done, status', gone, ?_⟩
  rw [Core.lanesFaulty, fields]
  exact faulty

/-- Settles O43: `exec_laneRow` for every row, then `laneIssue_eq` by the number of failed checks. -/
theorem laneIssues : Obligations.LaneIssues := by
  unfold Obligations.LaneIssues
  intro s k gi r g w c grp op row issues
  exact ⟨fun fails few => ⟨_, exec_laneRow row s k gi fails, laneOp_issued issues few⟩, fun fails some few => laneChecks_reruns _ _ some few,
    fun fails many => ⟨_, exec_laneRow row s k gi fails, laneOp_dead issues many⟩⟩

end Sys2Proof.Machine
end

section
/-! SUPPORT. Stash transfers, random numbers, copies and cache operations, and the messages of training support (R423 to R431, R447 to R450, R473 to R476). -/
namespace Sys2Proof.Machine
open Sys2Proof

-- Threads that wait for the kernel keep their stacks, and the check limits the memory of one text.
set_option Elab.async false

/-! ### What a run leaves of its strand -/

/-- The strand of a descriptor that has run: what its work left, in its phase. -/
theorem State.runDesc_strand {s : State} {k : Nat} (present : k < s.ctl.strands.length) (units : Dx → List Nat) (f : Dx → Dx × Bool) (admits : s.Admits (units (f (s.dx k)).1) k)
    (free : (s.dx k).held (f (s.dx k)).1 = false) :
    ((s.runDesc k units f).strand k).rkey = BitVec.ofNat 64 (f (s.dx k)).1.key ∧ ((s.runDesc k units f).strand k).rstream = BitVec.ofNat 16 (f (s.dx k)).1.stream
      ∧ ((s.runDesc k units f).strand k).rpos = BitVec.ofNat 48 (f (s.dx k)).1.pos := by
  have asked := Asked.askUnits s (units (f (s.dx k)).1) k
  unfold State.runDesc
  dsimp only
  rw [if_neg (by rw [State.admits_iff.1 admits]; decide), if_neg (by rw [free]; decide), if_neg (by rw [free]; decide)]
  generalize f (s.dx k) = r at *
  obtain ⟨-, own⟩ := asked.left present (x := r.1) (p := if r.2 then .done else .busy)
    (f := fun t => { t with phase := if r.2 then .done else .busy, units := units r.1, tStart := some (t.tStart.getD s.core.ct) }) rfl rfl ⟨rfl, rfl, rfl⟩ (units r.1)
  split
  · exact ⟨congrArg Strand.rkey own, congrArg Strand.rstream own, congrArg Strand.rpos own⟩
  · exact ⟨congrArg Strand.rkey own, congrArg Strand.rstream own, congrArg Strand.rpos own⟩

theorem rngRun_ran {s : State} {k op : Nat} (ready : s.engineRun k op = true) (f : Dx → Dx) : Ran s (rngRun s op k f) k (f (s.dx k), true) := by
  rw [rngRun, if_pos ready]
  exact State.runNow_ran (State.engineRun_present ready) f (State.admits_nil s k)

theorem dmaRun_ran {s : State} {k op : Nat} (ready : s.engineRun k op = true) (admits : s.Admits [unitDma (s.quarter k)] k) (f : Dx → Dx) :
    Ran s (dmaRun s op k f) k (f (s.dx k), true) := by
  rw [dmaRun, if_pos ready]
  exact State.runNow_ran (State.engineRun_present ready) f admits

theorem cacheRun_ran {s : State} {k o : Nat} (named : (if (s.strand k).f 24 4 3 ≥ 5 then 1 else (s.strand k).f 24 4 3) = o) (ready : s.engineRun k 0x72 = true)
    (admits : s.Admits [unitDma (s.quarter k)] k) (f : Dx → Dx) : Ran s (cacheRun s o k f) k (f (s.dx k), true) := by
  unfold cacheRun
  dsimp only
  rw [if_pos named]
  exact dmaRun_ran ready admits f

/-! ### RNG_ROUND -/

/-- The key of RNG_ROUND and RNG_DERIVE (R447). -/
def Strand.mixed (t : Strand) : Nat := if t.f 24 0 2 = 0 then t.f 40 0 64 else kd (t.f 40 0 64) 0xFFFD ((t.f 28 0 32 + if t.f 24 2 1 = 1 then t.steps else 0) % 2 ^ 32)

theorem State.mixKey_dx (s : State) (k : Nat) : (s.dx k).mixKey (s.strand k).steps = (s.strand k).mixed := rfl

/-- What RNG_ROUND does at once: a transaction member changes nothing before its completion (R443). -/
def roundNow (steps : Nat) (x : Dx) : Dx := if x.acc.txn.isSome then x else rngRound x steps

/-- A machine in which strand `k` has the rounding context that its RNG_ROUND names. -/
def State.Rounds (s u : State) (k : Nat) : Prop :=
  (u.strand k).rkey = BitVec.ofNat 64 (s.strand k).mixed ∧ (u.strand k).rstream = BitVec.ofNat 16 ((s.strand k).f 26 0 16) ∧ (u.strand k).rpos = BitVec.ofNat 48 ((s.strand k).f 32 0 48)
    ∧ u.core = { s.core with actAs := none }

theorem roundNow_lfsr (steps : Nat) (x : Dx) : (roundNow steps x).lfsr = x.lfsr ∧ (roundNow steps x).c = x.c := by
  unfold roundNow
  split
  · exact ⟨rfl, rfl⟩
  · exact ⟨rfl, rfl⟩

theorem rngRound_clauses {s : State} {k : Nat} (ready : s.engineRun k 0x80 = true) :
    let u := rngRun s 0x80 k (roundNow (s.strand k).steps)
    (u.strand k).phase = .done ∧ u.core = { s.core with actAs := none } ∧ ((s.strand k).txn? = none → s.Rounds u k)
      ∧ ((s.strand k).txn?.isSome = true → (u.strand k).rkey = (s.strand k).rkey ∧ (u.strand k).rstream = (s.strand k).rstream ∧ (u.strand k).rpos = (s.strand k).rpos) := by
  obtain ⟨lfsr, c⟩ := roundNow_lfsr (s.strand k).steps (s.dx k)
  have free := Dx.held_of_lfsr lfsr
  obtain ⟨core, -, phase, -⟩ := (rngRun_ran ready (roundNow (s.strand k).steps)).left free
  obtain ⟨key, stream, pos⟩ := State.runDesc_strand (State.engineRun_present ready) (fun _ => []) (fun x => (roundNow (s.strand k).steps x, true)) (State.admits_nil s k) free
  have run : rngRun s 0x80 k (roundNow (s.strand k).steps) = s.runDesc k (fun _ => []) (fun x => (roundNow (s.strand k).steps x, true)) := if_pos ready
  have kept : (rngRun s 0x80 k (roundNow (s.strand k).steps)).core = { s.core with actAs := none } := by rw [core, c]; rfl
  dsimp only at key stream pos ⊢
  refine ⟨phase, kept, fun none => ?_, fun some => ?_⟩
  · have now : roundNow (s.strand k).steps (s.dx k) = rngRound (s.dx k) (s.strand k).steps := if_neg (by rw [State.dx_txn, none]; decide)
    rw [← run, now] at key stream pos
    exact ⟨key, stream, pos, kept⟩
  · have now : roundNow (s.strand k).steps (s.dx k) = s.dx k := if_pos (by rw [State.dx_txn]; exact some)
    rw [← run, now] at key stream pos
    exact ⟨key.trans ((BitVec.ofNat_toNat ..).trans (BitVec.setWidth_eq _)), stream.trans ((BitVec.ofNat_toNat ..).trans (BitVec.setWidth_eq _)), pos.trans ((BitVec.ofNat_toNat ..).trans (BitVec.setWidth_eq _))⟩

/-- The completion of a transaction member's RNG_ROUND sets its strand's rounding context (R443). -/
theorem State.completeWork_rounds {s : State} {k : Nat} (op : (s.strand k).op = 0x80) (member : (s.strand k).txn?.isSome = true) (began : (s.strand k).tStart.isSome = true)
    (good : (s.strand k).comp.status < 0x20) (kept : (s.strand k).comp.cancelled = false) : s.Rounds (s.completeWork k) k := by
  have present : k < s.ctl.strands.length := by
    refine Nat.lt_of_not_ge fun beyond => ?_
    have none : ({} : Strand).op = 0 := by decide +kernel
    rw [State.strand_of_le s k beyond, none] at op
    exact absurd op (by decide)
  have run : s.completeWork k = s.withDx k (rngRound (s.dx k) (s.strand k).steps) := if_pos ⟨op, member, began, good, kept⟩
  have own := (Asked.refl s).withDx_strand present (rngRound (s.dx k) (s.strand k).steps)
  rw [← run] at own
  exact ⟨congrArg Strand.rkey own, congrArg Strand.rstream own, congrArg Strand.rpos own, by rw [run]; rfl⟩

/-! ### RNG_LANE_SEED -/

theorem laneState_setLane (m : SMap Nat) (k v j : Nat) : laneState (setLane m k v) j = if j = k then (if v = 0 then 1 else v) else laneState m j := by
  unfold setLane laneState
  dsimp only
  generalize (if v = 0 then 1 else v) = w
  by_cases own : j = k
  · subst own
    rw [if_pos rfl]
    by_cases reset : w = j + 1
    · rw [if_pos reset, sfind_sdel_eq, reset]; rfl
    · rw [if_neg reset, sfind_sput_eq]; rfl
  · rw [if_neg own]
    split
    · rw [sfind_sdel_ne m k j own]
    · rw [sfind_sput_ne m k j w own]

/-- What a lane's seed makes of it, by its key (R446). -/
def laneSeeded (key k : Nat) : Nat := if kd key 0xFFFA k % 2 ^ 32 = 0 then 1 else kd key 0xFFFA k % 2 ^ 32

/-- Seeding lanes in turn leaves each at its seed. -/
theorem laneState_seed (key : Nat) (ks : List Nat) (m : SMap Nat) (j : Nat) (seeded : j ∈ ks ∨ laneState m j = laneSeeded key j) :
    laneState (ks.foldl (fun m k => setLane m k (kd key 0xFFFA k % 2 ^ 32)) m) j = laneSeeded key j := by
  induction ks generalizing m with
  | nil => exact seeded.resolve_left List.not_mem_nil
  | cons k ks ih =>
    refine ih _ ?_
    rw [laneState_setLane]
    by_cases own : j = k
    · subst own; exact Or.inr (if_pos rfl)
    · rw [if_neg own]
      exact seeded.imp_left fun h => (List.mem_cons.1 h).resolve_left own

theorem seedQuarter_eq (m : SMap Nat) (q key : Nat) :
    seedQuarter m q key = ((upto 134).flatMap fun u => (upto 32).map fun l => laneKey q u l).foldl (fun m k => setLane m k (kd key 0xFFFA k % 2 ^ 32)) m := by
  rw [seedQuarter, List.foldl_flatMap]
  simp only [List.foldl_map]

theorem laneState_seedQuarter (m : SMap Nat) (q key : Nat) {unit lane : Nat} (hu : unit < 134) (hl : lane < 32) :
    laneState (seedQuarter m q key) (laneKey q unit lane) = laneSeeded key (laneKey q unit lane) := by
  rw [seedQuarter_eq]
  exact laneState_seed key _ m _ (Or.inl (List.mem_flatMap.2 ⟨unit, List.mem_range.2 hu, List.mem_map.2 ⟨lane, List.mem_range.2 hl, rfl⟩⟩))

theorem seedRun_ran {s : State} {k : Nat} (ready : s.engineRun k 0x83 = true) : Ran s (seedRun s k) k (rngLaneSeed (s.dx k)) := by
  rw [seedRun, if_pos ready]
  exact State.runDesc_ran (State.engineRun_present ready) _ _ (State.admits_nil s k)

/-- An RNG_LANE_SEED is not itself held (R450). -/
theorem State.held_laneSeed {s : State} {k : Nat} (ready : s.engineRun k 0x83 = true) (y : Dx) : (s.dx k).held y = false := by
  have op : (s.dx k).f 0 0 8 = 0x83 := beq_iff_eq.1 (State.mayRun_facts ready).2.2
  rw [Dx.held, op, bne_self_eq_false, Bool.and_false, Bool.false_and]

theorem seedRun_seeds {s : State} {k : Nat} (ready : s.engineRun k 0x83 = true) (empty : s.core.residentGroups (s.quarter k) = 0) :
    ((seedRun s k).strand k).phase = .done ∧ (seedRun s k).ctl.lfsr = seedQuarter s.ctl.lfsr (s.quarter k) ((s.strand k).f 40 0 64) := by
  have seeds : rngLaneSeed (s.dx k) = ({ s.dx k with lfsr := seedQuarter s.ctl.lfsr (s.quarter k) ((s.strand k).f 40 0 64), c := { (s.dx k).c with laneSeed := s.core.laneSeed.filter (fun h => h.2 != k) } }, true) :=
    if_pos empty
  have ran := seedRun_ran ready
  rw [seeds] at ran
  obtain ⟨-, ctl, phase, -⟩ := ran.left (State.held_laneSeed ready _)
  exact ⟨phase, by rw [ctl]⟩

theorem seedRun_waits {s : State} {k : Nat} (ready : s.engineRun k 0x83 = true) (busy : s.core.residentGroups (s.quarter k) ≠ 0) :
    ((seedRun s k).strand k).phase = .busy ∧ (∃ h ∈ (seedRun s k).core.laneSeed, h.2 = k) ∧ (seedRun s k).ctl.lfsr = s.ctl.lfsr := by
  have waits : rngLaneSeed (s.dx k) = (if s.core.laneSeed.any (fun h => h.2 == k) then s.dx k else (s.dx k).core (fun c => { c with laneSeed := c.laneSeed ++ [(s.quarter k, k)] }), false) :=
    if_neg busy
  have ran := seedRun_ran ready
  rw [waits] at ran
  obtain ⟨core, ctl, phase, -⟩ := ran.left (State.held_laneSeed ready _)
  dsimp only at core ctl
  refine ⟨phase, ?_, ?_⟩
  · rw [core]
    by_cases known : s.core.laneSeed.any (fun h => h.2 == k) = true
    · rw [if_pos known]
      obtain ⟨h, mem, own⟩ := List.any_eq_true.1 known
      exact ⟨h, mem, beq_iff_eq.1 own⟩
    · rw [if_neg known]
      exact ⟨(s.quarter k, k), List.mem_append_right _ List.mem_cons_self, rfl⟩
  · rw [ctl]
    split
    · rfl
    · rfl

/-! ### Stash transfers -/

theorem stashRun_ran {s : State} {k : Nat} (ready : s.engineRun k 0x7E = true) (admits : s.Admits [unitDma (s.quarter k)] k) :
    Ran s (stashRun s k) k (actStash (s.dx k) s.host.bme s.host.mps) := by
  rw [stashRun, if_pos ready]
  exact State.runDesc_ran (State.engineRun_present ready) (fun _ => [unitDma (s.quarter k)]) (fun x => actStash x s.host.bme s.host.mps) admits

theorem fetchRun_ran {s : State} {k : Nat} (ready : s.engineRun k 0x7F = true) (admits : s.Admits [unitDma (s.quarter k)] k) :
    Ran s (fetchRun s k) k (actFetch (s.dx k) s.host.bme s.host.mrrs) := by
  rw [fetchRun, if_pos ready]
  exact State.runDesc_ran (State.engineRun_present ready) (fun _ => [unitDma (s.quarter k)]) (fun x => actFetch x s.host.bme s.host.mrrs) admits

theorem Dx.stashTarget_host {x : Dx} (host : x.f 24 0 2 = 2) : x.stashTarget = 2 := by rw [Dx.stashTarget, host]; rfl

theorem actStash_noMaster {x : Dx} (host : x.f 24 0 2 = 2) (mps : Nat) : actStash x false mps = (x.noMaster, true) :=
  if_pos ⟨Dx.stashTarget_host host, rfl⟩

theorem actFetch_noMaster {x : Dx} (host : x.f 24 0 2 = 2) (mrrs : Nat) : actFetch x false mrrs = (x.noMaster, true) :=
  if_pos ⟨Dx.stashTarget_host host, rfl⟩

theorem Core.setBit_stash (c : Core) (key i : Nat) (b : Bool) : (c.setBit key i b).stash = c.stash := (rfl)

theorem Core.raise_stash (c : Core) (page i : Nat) : (c.raise page i).stash = c.stash := (rfl)

theorem Dx.noMaster_stash (x : Dx) : x.noMaster.c.stash = x.c.stash := (Core.raise_stash ..).trans (Core.setBit_stash ..)

theorem Dx.noMaster_mem (x : Dx) : x.noMaster.c.mem = x.c.mem := (Core.raise_mem ..).trans (Core.setBit_mem ..)

/-- A transfer that is refused for want of Bus Master Enable (R684). -/
theorem Ran.noMaster {s u : State} {k : Nat} (h : Ran s u k ((s.dx k).noMaster, true)) :
    (u.strand k).phase = .done ∧ 0x20 ≤ (u.strand k).comp.status ∧ u.core.stash = s.core.stash ∧ u.core.mem = s.core.mem := by
  obtain ⟨core, -, phase, record, -⟩ := h.left (Dx.held_of_lfsr rfl)
  refine ⟨phase, ?_, ?_, ?_⟩
  · rw [record]; exact Nat.le_max_right _ _
  · exact (congrArg Core.stash core).trans (Dx.noMaster_stash (s.dx k))
  · exact (congrArg Core.mem core).trans (Dx.noMaster_mem (s.dx k))

/-- Settles O49: each descriptor through `State.runDesc_ran`, the seeds by `laneState_seedQuarter`. -/
theorem trainingDescriptors : Obligations.TrainingDescriptors := by
  unfold Obligations.TrainingDescriptors
  intro s k
  refine ⟨fun ready => ⟨_, rfl, rngRound_clauses ready⟩, fun op member began good kept => State.completeWork_rounds op member began good kept,
    fun ready _ => ⟨_, rfl, rngRun_ran ready _⟩, fun ready _ => ⟨_, rfl, rngRun_ran ready _⟩, fun ready empty => ⟨_, rfl, ?_⟩, fun ready busy => ⟨_, rfl, seedRun_waits ready busy⟩,
    fun ready admits => ⟨_, rfl, stashRun_ran ready admits⟩, fun ready admits => ⟨_, rfl, fetchRun_ran ready admits⟩, fun c op row ready admits host off => ?_,
    fun ready admits => ⟨_, rfl, dmaRun_ran ready admits _⟩, fun ready admits => ⟨_, rfl, dmaRun_ran ready admits _⟩, fun ready admits => ⟨_, rfl, dmaRun_ran ready admits _⟩,
    fun named ready admits => ⟨_, rfl, cacheRun_ran named ready admits _⟩, fun named ready admits => ⟨_, rfl, cacheRun_ran named ready admits _⟩,
    fun named ready admits => ⟨_, rfl, cacheRun_ran named ready admits _⟩, fun named ready admits => ⟨_, rfl, cacheRun_ran named ready admits _⟩,
    fun named ready admits => ⟨_, rfl, cacheRun_ran named ready admits _⟩⟩
  · obtain ⟨phase, lfsr⟩ := seedRun_seeds ready empty
    refine ⟨phase, fun unit lane hu hl => ?_⟩
    rw [lfsr]
    exact laneState_seedQuarter _ _ _ hu hl
  · simp at row
    rcases row with ⟨rfl, rfl⟩ | ⟨rfl, rfl⟩
    · exact ⟨_, rfl, Ran.noMaster (actStash_noMaster (x := s.dx k) host _ ▸ off ▸ stashRun_ran ready admits)⟩
    · exact ⟨_, rfl, Ran.noMaster (actFetch_noMaster (x := s.dx k) host _ ▸ off ▸ fetchRun_ran ready admits)⟩

/-! ### Messages -/

theorem spareAnnounce_reg (c : Core) (n : Nat) :
    let v := n % 65536 + if c.pair = 2 ∨ c.pair = 5 then 65536 else 0
    (spareAnnounce c n).reg Reg.trnTwinSpare = v ∧ (spareAnnounce c n).mem = c.mem ∧ (c.reg Reg.trnTwinSpare ≠ v → ((spareAnnounce c n).reg 0x8010).testBit 1 = true) := by
  intro v
  have small : v % 2 ^ 32 = v := Nat.mod_eq_of_lt (by show n % 65536 + (if c.pair = 2 ∨ c.pair = 5 then 65536 else 0) < 2 ^ 32; split <;> omega)
  have written : ({ c.setReg Reg.trnTwinSpare v with job := { c.job with spareKnown := true } } : Core).reg Reg.trnTwinSpare = v := (c.reg_setReg_eq _ _).trans small
  unfold spareAnnounce
  dsimp only
  by_cases same : c.reg Reg.trnTwinSpare = v
  · rw [if_pos same]
    exact ⟨written, rfl, fun ne => absurd same ne⟩
  · rw [if_neg same]
    refine ⟨(Core.reg_raise_ne _ (by decide)).trans written, Core.raise_mem .., fun _ => ?_⟩
    rw [Core.testBit_raise _ 8 (by decide) (by decide)]
    rfl

theorem twinStash_sends (x : Dx) (r : StashReq) : ∃ b : Msg, (twinStash x r).c.out.getLast? = some b ∧ b.dst = x.c.twin ∧ b.wadi = 14 := by
  cases r with
  | write strand off bs poison => exact ⟨_, List.getLast?_concat, rfl, rfl⟩
  | read strand off len => exact ⟨_, List.getLast?_concat, rfl, rfl⟩

theorem announced_eq {s : State} (serves : s.serves = true) (n : Nat) : announced s n = s.on (fun c => spareAnnounce c n) := if_pos serves

theorem twinTransfer_eq {s : State} (serves : s.serves = true) (r : StashReq) : twinTransfer s r = s.withDev (twinStash (s.dev 0 none) r) := if_pos serves

theorem stashAnswered_ack {s : State} (serves : s.serves = true) {k : Nat} (busy : (s.strand k).phase = .busy) (n : Nat) :
    Worked s (stashAnswered s (.ack k n)) k (stashAnswer (s.dx k) (.ack k n)) := by
  rw [stashAnswered, if_pos serves]
  exact State.work_worked busy fun x => stashAnswer x (.ack k n)

theorem stashAnswered_data {s : State} (serves : s.serves = true) {k : Nat} (busy : (s.strand k).phase = .busy) (off : Nat) (bs : List Byte) (p : List Nat) :
    Worked s (stashAnswered s (.data k off bs p)) k (stashAnswer (s.dx k) (.data k off bs p)) := by
  rw [stashAnswered, if_pos serves]
  exact State.work_worked busy fun x => stashAnswer x (.data k off bs p)

theorem hostReadBack_worked {s : State} (live : s.live = true) {k : Nat} (busy : (s.strand k).phase = .busy) (off : Nat) (bs : List Byte) (bad : Bool) :
    Worked s (hostReadBack s k off bs bad) k (hostReadDone (s.dx k) s.host.mrrs off bs bad) := by
  rw [hostReadBack, if_pos live]
  exact State.work_worked busy fun x => hostReadDone x s.host.mrrs off bs bad

/-- Settles O50: the announcement by `spareAnnounce_reg`, the twin's transfers by `twinStash_sends`, the answers through `State.work_worked`. -/
theorem trainingMessages : Obligations.TrainingMessages := by
  unfold Obligations.TrainingMessages
  intro s
  refine ⟨fun n serves => ⟨_, rfl, ?_⟩, fun r serves => ?_, fun k n serves busy => ⟨_, rfl, stashAnswered_ack serves busy n⟩,
    fun k off bs p serves busy => ⟨_, rfl, stashAnswered_data serves busy off bs p⟩, fun k off bs bad live busy => ⟨_, rfl, hostReadBack_worked live busy off bs bad⟩⟩
  · obtain ⟨reg, mem, raised⟩ := spareAnnounce_reg s.core n
    rw [announced_eq serves]
    exact ⟨reg, mem, rfl, raised⟩
  · obtain ⟨b, last, dst, wadi⟩ := twinStash_sends (s.dev 0 none) r
    refine ⟨_, b, rfl, ?_⟩
    rw [twinTransfer_eq serves]
    exact ⟨s.withDev_served _, last, dst, wadi⟩

end Sys2Proof.Machine
end

section
/-! SUPPORT. Collectives: starting, packets that go on or wait, aborts and acknowledgements (R558 to R567, R585 to R589, R599). -/
namespace Sys2Proof.Machine
open Sys2Proof

-- Threads that wait for the kernel keep their stacks, and the check limits the memory of one text.
set_option Elab.async false

/-! ### Receive buffers -/

/-- From `c` to `d` only the links' state and the wire changed. -/
def Core.Moves (c d : Core) : Prop := d = { c with seif := d.seif, wire := d.wire }

theorem Core.Moves.refl (c : Core) : c.Moves c := rfl

theorem Core.Moves.trans {c d e : Core} (h : c.Moves d) (k : d.Moves e) : c.Moves e := by
  unfold Core.Moves at *
  rw [k, h]

theorem Core.Moves.setPort (c : Core) (p : Nat) (f : PortSt → PortSt) : c.Moves (c.setPort p f) := rfl

theorem Core.Moves.put (c : Core) (p : Nat) (b : Body) : c.Moves (c.put p b) := rfl

theorem Core.Moves.grant (c : Core) (p k : Nat) : c.Moves (c.grant p k) := by
  unfold Core.grant
  split
  · exact Core.Moves.refl c
  · dsimp only
    split
    · exact Core.Moves.refl c
    · exact (Core.Moves.setPort c p _).trans (Core.Moves.put _ p _)

theorem Core.Moves.freeHeld (c : Core) (p wadi : Nat) (slot : Option (Nat × Nat)) : c.Moves (c.freeHeld p wadi slot) := by
  unfold Core.freeHeld
  split
  · exact ((Core.Moves.setPort c p _).trans (Core.Moves.grant _ p _)).trans (Core.Moves.grant _ p _)
  · exact Core.Moves.refl c

theorem Core.Moves.takeArrived (c : Core) (p wadi : Nat) : c.Moves (c.takeArrived p wadi).1 := by
  unfold Core.takeArrived
  split
  · dsimp only; exact Core.Moves.setPort c p _
  · exact Core.Moves.refl c

theorem Core.Moves.coll {c d : Core} (h : c.Moves d) : d.coll = c.coll := (congrArg Core.coll (show d = { c with seif := d.seif, wire := d.wire } from h)).trans rfl
theorem Core.Moves.mem {c d : Core} (h : c.Moves d) : d.mem = c.mem := (congrArg Core.mem (show d = { c with seif := d.seif, wire := d.wire } from h)).trans rfl
theorem Core.Moves.regs {c d : Core} (h : c.Moves d) : d.regs = c.regs := (congrArg Core.regs (show d = { c with seif := d.seif, wire := d.wire } from h)).trans rfl

/-- What a change of a port keeps of a port, every port has kept. -/
theorem Core.port_setPort_keeps {α : Type} (c : Core) (p q : Nat) {f : PortSt → PortSt} (g : PortSt → α) (keep : ∀ x, g (f x) = g x) : g ((c.setPort p f).port q) = g (c.port q) := by
  unfold Core.port Core.setPort
  dsimp only
  by_cases own : q = p
  · subst own
    by_cases inside : q < c.seif.ports.length
    · rw [nth_setNth_eq _ _ _ _ inside, keep, Core.port]
    · rw [nth_of_le _ (setNth ..) _ (by rw [setNth_length]; omega), nth_of_le _ c.seif.ports _ (by omega)]
  · rw [nth_setNth_ne _ _ _ _ _ own]

theorem Core.put_port (c : Core) (p q : Nat) (b : Body) : (c.put p b).port q = c.port q := rfl

theorem Core.grant_held (c : Core) (p k q : Nat) : ((c.grant p k).port q).held = (c.port q).held := by
  unfold Core.grant
  split
  · rfl
  · dsimp only
    split
    · rfl
    · rw [Core.put_port]; exact c.port_setPort_keeps p q PortSt.held fun _ => rfl

theorem Core.takeArrived_held (c : Core) (p wadi q : Nat) : ((c.takeArrived p wadi).1.port q).held = (c.port q).held := by
  unfold Core.takeArrived
  split
  · exact c.port_setPort_keeps p q PortSt.held fun _ => rfl
  · rfl

theorem Core.takeArrived_wire (c : Core) (p wadi : Nat) : (c.takeArrived p wadi).1.wire = c.wire := by
  unfold Core.takeArrived
  split
  · rfl
  · rfl

theorem Core.takeArrived_ports (c : Core) (p wadi : Nat) : (c.takeArrived p wadi).1.seif.ports.length = c.seif.ports.length := by
  unfold Core.takeArrived
  split
  · exact setNth_length ..
  · rfl

/-- What a packet held of the receive buffer is free. -/
theorem Core.freeHeld_held (c : Core) {p : Nat} (wadi cls n : Nat) (inside : p < c.seif.ports.length) :
    sget 0 ((c.freeHeld p wadi (some (cls, n))).port p).held (2 * wadi + cls) = sget 0 (c.port p).held (2 * wadi + cls) - n := by
  unfold Core.freeHeld Core.freeFlits
  dsimp only
  rw [Core.grant_held, Core.grant_held, Core.port_setPort _ _ inside, sget_sset_eq]

/-! ### Packets -/

/-- A machine that takes the place of a collective packet in the receive buffer, its contents having come. -/
def State.came (s : State) (port wadi : Nat) : State := { s with core := (s.core.takeArrived port wadi).1 }

theorem State.came_collMatch (s : State) (port wadi dst group tag : Nat) : collMatch (s.came port wadi).core dst group tag = collMatch s.core dst group tag := by
  rw [collMatch, collMatch, State.came, (Core.Moves.takeArrived s.core port wadi).coll]

theorem foldl_parkBytes (l : List (Nat × Nat × CollPkt)) (n : Nat) : l.foldl (fun n e => n + parkBytes e.2.2) n = n + (l.map fun e => parkBytes e.2.2).sum := by
  induction l generalizing n with
  | nil => rfl
  | cons e l ih => rw [List.foldl_cons, ih, List.map_cons, List.sum_cons, Nat.add_assoc]

theorem Core.parkRoom_iff (c : Core) (q : Nat) (p : CollPkt) : c.parkRoom q p = true ↔
    ((c.coll.parked.filter (fun e => e.1 == q)).map (fun e => parkBytes e.2.2)).sum + parkBytes p ≤ min (c.fld (Reg.collParkSize q) 0 7) 64 * 2 ^ 20 := by
  rw [Core.parkRoom, decide_eq_true_iff, foldl_parkBytes, Nat.zero_add]

/-- A packet that goes on with its open collective. -/
theorem collPacket_worked {s : State} {dst port : Nat} {p : CollPkt} {r : CollRun} (serves : s.serves = true) (found : collMatch s.core dst p.group p.tag = some r)
    (calm : s.pwr.emergency = false) (busy : (s.strand r.strand).phase = .busy) :
    let s1 := (s.came port p.wadi).on (fun c => c.freeHeld port p.wadi (s.core.takeArrived port p.wadi).2)
    (collTake (s1.dx r.strand) r port p).1.c.stall = false → Worked s1 (collPacket s dst port p) r.strand (collTake (s1.dx r.strand) r port p) := by
  intro s1 flows
  have worked : Worked s1 (s1.work r.strand (fun x => collTake x r port p)) r.strand (collTake (s1.dx r.strand) r port p) := State.work_worked (s := s1) busy _
  have stall : (s1.work r.strand (fun x => collTake x r port p)).core.stall = false := by
    have core : (s1.work r.strand (fun x => collTake x r port p)).core = { (collTake (s1.dx r.strand) r port p).1.c with actAs := none } := by
      unfold Worked at worked
      exact worked.core
    rw [core]
    exact flows
  have same := (State.came_collMatch s port p.wadi dst p.group p.tag).trans found
  have run : collPacket s dst port p = s1.work r.strand (fun x => collTake x r port p) := by
    unfold collPacket
    rw [if_neg (by rw [serves]; decide)]
    dsimp only
    rw [show collMatch (s.core.takeArrived port p.wadi).1 dst p.group p.tag = some r from same]
    dsimp only
    rw [if_neg (by rw [calm]; decide)]
    refine if_neg fun held => ?_
    have held : (s1.work r.strand (fun x => collTake x r port p)).core.stall = true := (Bool.and_eq_true_iff.1 held).1
    exact Bool.false_ne_true (stall.symm.trans held)
  rw [run]
  exact worked

/-- A packet whose collective is not open, or that an emergency stop holds, waits. -/
theorem collPacket_parks {s : State} {dst port : Nat} {p : CollPkt} (serves : s.serves = true) (waits : collMatch s.core dst p.group p.tag = none ∨ s.pwr.emergency = true) :
    collPacket s dst port p = (s.came port p.wadi).on (fun c => collPark c port dst p (s.core.takeArrived port p.wadi).2) := by
  unfold collPacket
  rw [if_neg (by rw [serves]; decide)]
  dsimp only
  cases found : collMatch (s.core.takeArrived port p.wadi).1 dst p.group p.tag with
  | none => rfl
  | some r =>
    have same := (State.came_collMatch s port p.wadi dst p.group p.tag).symm.trans found
    exact if_pos (waits.resolve_left fun none => by rw [none] at same; cases same)

theorem collPark_room {c : Core} {port dst : Nat} {p : CollPkt} (slot : Option (Nat × Nat)) (room : c.parkRoom (port % 4) p = true) :
    collPark c port dst p slot = ({ c with coll := { c.coll with parked := c.coll.parked ++ [(port % 4, dst, p)] } } : Core).freeHeld port p.wadi slot := if_pos room

theorem collPark_full {c : Core} {port dst : Nat} {p : CollPkt} (slot : Option (Nat × Nat)) (full : ¬c.parkRoom (port % 4) p = true) :
    collPark c port dst p slot = { c with coll := { c.coll with stuck := c.coll.stuck ++ [{ port := port, dst := dst, pkt := p, cls := (slot.getD (0, 0)).1, flits := (slot.getD (0, 0)).2 }] } } := if_neg full

section
variable {s : State} {dst port : Nat} {p : CollPkt} (serves : s.serves = true) (waits : collMatch s.core dst p.group p.tag = none ∨ s.pwr.emergency = true)
include serves waits

theorem collPacket_room (room : s.core.parkRoom (port % 4) p = true) :
    let u := collPacket s dst port p
    u.core.coll = { s.core.coll with parked := s.core.coll.parked ++ [(port % 4, dst, p)] } ∧ (u.core.mem = s.core.mem ∧ u.core.regs = s.core.regs ∧ u.ctl = s.ctl)
      ∧ ∀ cls n, (s.core.takeArrived port p.wadi).2 = some (cls, n) → cls < 2 → port < s.core.seif.ports.length →
        sget 0 (u.core.port port).held (2 * p.wadi + cls) = sget 0 (s.core.port port).held (2 * p.wadi + cls) - n := by
  have came := Core.Moves.takeArrived s.core port p.wadi
  have room' : (s.core.takeArrived port p.wadi).1.parkRoom (port % 4) p = true := by
    rw [Core.parkRoom_iff] at room ⊢
    rw [came.coll, Core.fld, Core.reg, came.regs]
    exact room
  have held := s.core.takeArrived_held port p.wadi port
  have ports := s.core.takeArrived_ports port p.wadi
  dsimp only
  rw [collPacket_parks serves waits, State.came, State.on_core, collPark_room _ room']
  generalize (s.core.takeArrived port p.wadi).1 = c at came held ports ⊢
  have freed := Core.Moves.freeHeld { c with coll := { c.coll with parked := c.coll.parked ++ [(port % 4, dst, p)] } } port p.wadi (s.core.takeArrived port p.wadi).2
  refine ⟨?_, ⟨freed.mem.trans came.mem, freed.regs.trans came.regs, rfl⟩, fun cls n slot _ inside => ?_⟩
  · rw [freed.coll, ← came.coll]
  · rw [slot, Core.freeHeld_held _ _ _ _ (by rw [← ports] at inside; exact inside), ← held]
    rfl

theorem collPacket_full (full : ¬s.core.parkRoom (port % 4) p = true) :
    let u := collPacket s dst port p
    let slot := (s.core.takeArrived port p.wadi).2
    u.core.coll = { s.core.coll with stuck := s.core.coll.stuck ++ [{ port := port, dst := dst, pkt := p, cls := (slot.getD (0, 0)).1, flits := (slot.getD (0, 0)).2 }] }
      ∧ (u.core.mem = s.core.mem ∧ u.core.regs = s.core.regs ∧ u.ctl = s.ctl) ∧ (u.core.port port).held = (s.core.port port).held ∧ u.core.wire = s.core.wire := by
  have came := Core.Moves.takeArrived s.core port p.wadi
  have full' : ¬(s.core.takeArrived port p.wadi).1.parkRoom (port % 4) p = true := by
    rw [Core.parkRoom_iff] at full ⊢
    rw [came.coll, Core.fld, Core.reg, came.regs]
    exact full
  have held := s.core.takeArrived_held port p.wadi port
  have wire := s.core.takeArrived_wire port p.wadi
  dsimp only
  rw [collPacket_parks serves waits, State.came, State.on_core, collPark_full _ full']
  generalize (s.core.takeArrived port p.wadi).1 = c at came held wire ⊢
  exact ⟨by rw [← came.coll], ⟨came.mem, came.regs, rfl⟩, held, wire⟩

end

/-! ### Starting -/

theorem collRun_full {s : State} {k op : Nat} (full : 16 ≤ collOpenCount s.core (s.quarter k)) : collRun s op k = s := by
  rw [collRun, if_pos (by rw [decide_eq_true full, Bool.or_true])]

theorem collRun_eq {s : State} {k op : Nat} (ready : s.engineRun k op = true) (room : collOpenCount s.core (s.quarter k) < 16) : collRun s op k =
    if isReduction op && epochOlder ((s.strand k).f 46 0 16) (s.core.fld Reg.jobEpoch 0 16) then s.runNow k [] (fun x => (x.st 0x20).core (fun c => c.raise 7 8))
    else s.runDesc k (fun _ => []) (fun x => collStart x op (s.strand k).det) := by
  unfold collRun
  rw [if_neg (by rw [ready, decide_eq_false (Nat.not_le.2 room)]; decide)]

/-- A reduction of an older epoch (R599). -/
def Dx.tooOld (x : Dx) : Dx := (x.st 0x20).core (fun c => c.raise 7 8)

theorem Core.raise_coll (c : Core) (page i : Nat) : (c.raise page i).coll = c.coll := (rfl)

theorem Dx.tooOld_coll (x : Dx) : x.tooOld.c.coll = x.c.coll := Core.raise_coll ..

theorem Dx.tooOld_mem (x : Dx) : x.tooOld.c.mem = x.c.mem := Core.raise_mem ..

theorem Dx.tooOld_raised (x : Dx) : (x.tooOld.c.reg 0x7010).testBit 8 = true := by
  show ((x.c.raise 7 8).reg (7 * 4096 + 0x10)).testBit 8 = true
  rw [Core.testBit_raise _ 7 (by decide) (by decide)]
  rfl

theorem collRun_older {s : State} {k op : Nat} (ready : s.engineRun k op = true) (room : collOpenCount s.core (s.quarter k) < 16)
    (older : (isReduction op && epochOlder ((s.strand k).f 46 0 16) (s.core.fld Reg.jobEpoch 0 16)) = true) :
    let u := collRun s op k
    (u.strand k).phase = .done ∧ 0x20 ≤ (u.strand k).comp.status ∧ u.core.coll = s.core.coll ∧ u.core.mem = s.core.mem ∧ (u.core.reg 0x7010).testBit 8 = true
      ∧ ∀ j, j ≠ k → u.strand j = s.strand j := by
  have ran : Ran s (s.runNow k [] Dx.tooOld) k ((s.dx k).tooOld, true) := State.runNow_ran (State.engineRun_present ready) _ (State.admits_nil s k)
  obtain ⟨core, -, phase, record, -, others, -⟩ := ran.left (Dx.held_of_lfsr rfl)
  dsimp only
  rw [collRun_eq ready room, if_pos older]
  refine ⟨phase, ?_, (congrArg Core.coll core).trans (s.dx k).tooOld_coll, (congrArg Core.mem core).trans (s.dx k).tooOld_mem, ?_, others⟩
  · have status : 0x20 ≤ ((s.runNow k [] Dx.tooOld).strand k).comp.status := by rw [record]; exact Nat.le_max_right _ _
    exact status
  · exact (congrArg (fun c : Core => (c.reg 0x7010).testBit 8) core).trans (s.dx k).tooOld_raised

theorem collRun_ran {s : State} {k op : Nat} (ready : s.engineRun k op = true) (room : collOpenCount s.core (s.quarter k) < 16)
    (current : (isReduction op && epochOlder ((s.strand k).f 46 0 16) (s.core.fld Reg.jobEpoch 0 16)) = false) : Ran s (collRun s op k) k (collStart (s.dx k) op (s.strand k).det) := by
  rw [collRun_eq ready room, if_neg (Bool.eq_false_iff.1 current)]
  exact State.runDesc_ran (State.engineRun_present ready) (fun _ => []) (fun x => collStart x op (s.strand k).det) (State.admits_nil s k)

/-! ### Aborts and acknowledgements -/

theorem collAbort_worked {s : State} {dst group tag : Nat} {r : CollRun} (serves : s.serves = true) (found : collMatch s.core dst group tag = some r) (busy : (s.strand r.strand).phase = .busy) :
    Worked s (collAbort s dst group tag) r.strand (collAborted (s.dx r.strand) r, true) ∧ 0x50 ≤ ((collAbort s dst group tag).strand r.strand).comp.status := by
  have worked : Worked s (collAbort s dst group tag) r.strand (collAborted (s.dx r.strand) r, true) := by
    rw [collAbort, if_neg (by rw [serves]; decide), found]
    exact State.work_worked busy fun x => (collAborted x r, true)
  refine ⟨worked, ?_⟩
  rw [(worked.done rfl).2.1]
  exact Nat.le_max_right _ _

theorem permuteAcked_worked {s : State} {dst group tag : Nat} {r : CollRun} (serves : s.serves = true) (found : collMatch s.core dst group tag = some r) (busy : (s.strand r.strand).phase = .busy)
    (op : r.op = 0x64) (bytes : Nat) : Worked s (permuteAcked s dst group tag bytes) r.strand (permuteAck (s.dx r.strand) r bytes) := by
  have run : permuteAcked s dst group tag bytes = s.work r.strand (fun x => permuteAck x r bytes) := by
    rw [permuteAcked, if_neg (by rw [serves]; decide), found]
    exact if_pos op
  rw [run]
  exact State.work_worked busy fun x => permuteAck x r bytes

theorem collAbort_kept {s : State} {dst group tag : Nat} (serves : s.serves = true) (none : collMatch s.core dst group tag = .none) :
    collAbort s dst group tag = s.on (fun c => { c with coll := { c.coll with aborts := c.coll.aborts.filter (fun e => e != (dst, group, tag)) ++ [(dst, group, tag)] } }) := by
  rw [collAbort, if_neg (by rw [serves]; decide), none]

theorem permuteAcked_none {s : State} {dst group tag : Nat} (none : collMatch s.core dst group tag = .none) (bytes : Nat) : permuteAcked s dst group tag bytes = s := by
  unfold permuteAcked
  rw [none]
  split
  · rfl
  · rfl

/-- Settles O51: descriptors through `State.runDesc_ran`, packets through `collPacket_worked` and `collPacket_parks`. -/
theorem collectives : Obligations.Collectives := by
  unfold Obligations.Collectives
  refine ⟨fun s k c op row ready => ?_, fun s dst port p serves => ⟨fun r found calm busy flows => ⟨_, rfl, collPacket_worked serves found calm busy flows⟩, fun waits => ⟨fun room => ?_, fun full => ?_⟩⟩,
    fun s dst group tag r serves found busy => ⟨⟨_, rfl, collAbort_worked serves found busy⟩, fun op bytes => ⟨_, rfl, permuteAcked_worked serves found busy op bytes⟩⟩,
    fun s dst group tag serves none => ⟨congrArg (fun u => Host.Outcome.next (finish s u)) (collAbort_kept serves none),
      fun bytes => congrArg (fun u => Host.Outcome.next (finish s u)) (permuteAcked_none none bytes)⟩⟩
  · have run : exec (c k) s = .next (finish s (collRun s op k)) := by
      simp at row
      rcases row with ⟨rfl, rfl⟩ | ⟨rfl, rfl⟩ | ⟨rfl, rfl⟩ | ⟨rfl, rfl⟩ | ⟨rfl, rfl⟩ | ⟨rfl, rfl⟩ <;> rfl
    exact ⟨fun full => run.trans (congrArg (fun u => Host.Outcome.next (finish s u)) (collRun_full full)), fun room current => ⟨_, run, collRun_ran ready room current⟩,
      fun room older => ⟨_, run, collRun_older ready room older⟩⟩
  · obtain ⟨coll, keeps, held⟩ := collPacket_room serves waits ((Core.parkRoom_iff ..).2 room)
    exact ⟨_, rfl, coll, keeps, held⟩
  · obtain ⟨coll, keeps, held, wire⟩ := collPacket_full serves waits (mt (Core.parkRoom_iff ..).1 full)
    exact ⟨_, rfl, coll, keeps, held, wire⟩

end Sys2Proof.Machine
end

section
/-! SUPPORT. The interleave modes through the cache, the merge buffer and the decoder, and the commands that change layouts and modes (R456, R462, R468, R501). -/
namespace Sys2Proof.Machine
open Sys2Proof

-- Threads that wait for the kernel keep their stacks, and the check limits the memory of one text.
set_option Elab.async false

/-! ### The interleave modes stay -/

theorem foldl_ilv {α : Type} {f : Core → α → Core} (keep : ∀ c a, (f c a).ilv = c.ilv) (l : List α) (c : Core) : (l.foldl f c).ilv = c.ilv :=
  List.foldlRecOn (motive := fun d : Core => d.ilv = c.ilv) l f rfl fun d hd a _ => (keep d a).trans hd

theorem foldl_fst_ilv {α β : Type} {f : Core × β → α → Core × β} (keep : ∀ p a, (f p a).1.ilv = p.1.ilv) (l : List α) (p : Core × β) : (l.foldl f p).1.ilv = p.1.ilv :=
  List.foldlRecOn (motive := fun d : Core × β => d.1.ilv = p.1.ilv) l f rfl fun d hd a _ => (keep d a).trans hd

@[simp] theorem Core.setReg_ilv (c : Core) (key v : Nat) : (c.setReg key v).ilv = c.ilv := (rfl)
@[simp] theorem Core.setFld_ilv (c : Core) (key lo w v : Nat) : (c.setFld key lo w v).ilv = c.ilv := (rfl)
@[simp] theorem Core.incFld_ilv (c : Core) (key lo w n : Nat) : (c.incFld key lo w n).ilv = c.ilv := (rfl)
@[simp] theorem Core.inc_ilv (c : Core) (key n : Nat) : (c.inc key n).ilv = c.ilv := (rfl)
@[simp] theorem Core.inc64_ilv (c : Core) (lo n : Nat) : (c.inc64 lo n).ilv = c.ilv := by
  unfold Core.inc64
  simp

@[simp] theorem Core.raise_ilv (c : Core) (page i : Nat) : (c.raise page i).ilv = c.ilv := (rfl)
theorem Core.putErg_ilv (c : Core) (a : Nat) (bs : List Byte) : (c.putErg a bs).ilv = c.ilv := rfl

@[simp] theorem Core.log_ilv (c : Core) (q : Nat) (r : LogRec) : (c.log q r).ilv = c.ilv := by
  unfold Core.log
  exact (Core.putErg_ilv ..).trans (Core.setReg_ilv ..)

@[simp] theorem Core.setUnit_ilv (c : Core) (q u : Nat) (x : UnitSt) : (c.setUnit q u x).ilv = c.ilv := (rfl)

@[simp] theorem Core.schedRetrain_ilv (c : Core) (chan : Nat) : (c.schedRetrain chan).ilv = c.ilv := by
  unfold Core.schedRetrain; split <;> rfl

@[simp] theorem Core.failRow_ilv (c : Core) (chan bank row : Nat) : (c.failRow chan bank row).ilv = c.ilv := by
  unfold Core.failRow; split <;> rfl

@[simp] theorem Core.bucket_ilv (c : Core) (q u : Nat) (r : LogRec) : (c.bucket q u r).ilv = c.ilv := by
  unfold Core.bucket
  dsimp only
  split
  · split
    · simp
    · simp
  · simp

@[simp] theorem Core.noteHistory_ilv (c : Core) (q u w bank row : Nat) : (c.noteHistory q u w bank row).ilv = c.ilv := by
  unfold Core.noteHistory
  dsimp only
  rw [apply_ite Core.ilv, Core.failRow_ilv, ite_self, Core.setUnit_ilv]

theorem Core.corrected_ilv (c : Core) (acc : Acc) (a : Nat) (e : BitVec 80) (b0 b1 : Nat) : (c.corrected acc a e b0 b1).ilv = c.ilv := by
  unfold Core.corrected
  dsimp only
  simp only [apply_ite Core.ilv, Core.noteHistory_ilv, Core.bucket_ilv, Core.setUnit_ilv, Core.log_ilv, Core.inc_ilv, ite_self]

theorem Core.countUe_ilv (c : Core) (acc : Acc) (a : Nat) (e : BitVec 80) : (c.countUe acc a e).ilv = c.ilv := by
  unfold Core.countUe
  dsimp only
  simp only [apply_ite Core.ilv, Core.failRow_ilv, Core.log_ilv, Core.raise_ilv, Core.inc_ilv, ite_self]

theorem Core.flip_ilv (c : Core) (a x : Nat) (cached : Bool) : (c.flip a x cached).ilv = c.ilv := by
  unfold Core.flip
  dsimp only
  split
  · split
    · rfl
    · rfl
  · rfl

theorem Core.poisonBlock_ilv (c : Core) (a : Nat) : (c.poisonBlock a).ilv = c.ilv := by
  unfold Core.poisonBlock
  split
  · rfl
  · rfl

theorem Core.checkWord_ilv (c : Core) (acc : Acc) (a : Nat) : (c.checkWord acc a).1.ilv = c.ilv := by
  unfold Core.checkWord
  dsimp only
  split
  · rfl
  · split
    · exact c.flip_ilv ..
    · exact (Core.corrected_ilv ..).trans (c.flip_ilv ..)
    · exact (Core.countUe_ilv ..).trans (c.flip_ilv ..)

theorem Core.checkCells_ilv (c : Core) (acc : Acc) (a words : Nat) : (c.checkCells acc a words).1.ilv = c.ilv :=
  foldl_fst_ilv (fun p i => by
    dsimp only
    split
    · dsimp only; rw [Core.poisonBlock_ilv, foldl_ilv fun d j => d.checkWord_ilv .., Core.checkWord_ilv]
    · exact p.1.checkWord_ilv ..) (upto words) (c, false)

theorem Core.checkHeld_ilv (c : Core) (acc : Acc) (a : Nat) : (c.checkHeld acc a).1.ilv = c.ilv := by
  unfold Core.checkHeld
  split
  · rfl
  · split
    · exact c.checkCells_ilv ..
    · rfl

theorem Core.freshHeld_ilv (c : Core) (a words : Nat) : (c.freshHeld a words).ilv = c.ilv := by
  unfold Core.freshHeld
  split
  · rfl
  · split
    · rfl
    · rfl

theorem Core.spillPoison_ilv (c : Core) (b n : Nat) : (c.spillPoison b n).ilv = c.ilv := by
  unfold Core.spillPoison
  split
  · rfl
  · split
    · rfl
    · split
      · rfl
      · rfl

theorem Core.spillSector_ilv (c : Core) (tag i : Nat) : (c.spillSector tag i).ilv = c.ilv := rfl

theorem Core.spillLine_ilv (c : Core) (l : Line) : (c.spillLine l).ilv = c.ilv := by
  unfold Core.spillLine
  split
  · rfl
  · split
    · rfl
    · refine (Core.inc_ilv ..).trans ((foldl_ilv (fun d i => d.spillPoison_ilv ..) _ _).trans (foldl_ilv (fun d i => ?_) _ _))
      split
      · exact (Core.spillSector_ilv ..).trans (d.checkHeld_ilv ..)
      · rfl

theorem Core.writeBack_ilv (c : Core) (l : Line) : (c.writeBack l).ilv = c.ilv := by
  unfold Core.writeBack
  split
  · rfl
  · exact c.spillLine_ilv l

theorem Core.revert_ilv (c : Core) (l : Line) : (c.revert l).ilv = c.ilv := rfl

theorem Core.dropLine_ilv (c : Core) (tag : Nat) : (c.dropLine tag).ilv = c.ilv := rfl

theorem Core.evict_ilv (c : Core) (l : Line) : (c.evict l).ilv = c.ilv := (Core.dropLine_ilv ..).trans ((Core.revert_ilv ..).trans (c.writeBack_ilv l))

theorem Core.makeRoom_ilv (c : Core) (q tag : Nat) : (c.makeRoom q tag).ilv = c.ilv := by
  unfold Core.makeRoom
  dsimp only
  split
  · rfl
  · split
    · rfl
    · split
      · exact c.evict_ilv _
      · rfl

theorem Core.useLine_ilv (c : Core) (q a : Nat) (f : Line → Line) : (c.useLine q a f).ilv = c.ilv := by
  unfold Core.useLine
  dsimp only
  split
  · rfl
  · exact c.makeRoom_ilv ..

theorem Core.fetch_ilv (c : Core) (acc : Acc) (a : Nat) (narrow : Bool) : (c.fetch acc a narrow).1.ilv = c.ilv := by
  unfold Core.fetch
  split
  · rfl
  · dsimp only
    generalize hp : List.foldl _ (c, false) _ = p
    have same : p.1.ilv = c.ilv := by
      rw [← hp]
      refine foldl_fst_ilv (fun r j => ?_) _ _
      dsimp only
      rw [Core.checkCells_ilv]
    rw [Core.freshHeld_ilv, apply_ite Core.ilv, ite_self, Core.useLine_ilv, Core.inc64_ilv, same]

theorem Core.dirtySector_ilv (c : Core) (a : Nat) : (c.dirtySector a).ilv = c.ilv := Core.useLine_ilv ..

theorem Core.closeMerge_ilv (c : Core) (e : Merge) : (c.closeMerge e).ilv = c.ilv := by
  unfold Core.closeMerge
  dsimp only
  generalize hd : Core.incFld _ (Reg.eccMerge e.quarter) 16 16 1 = d
  have same : d.ilv = c.ilv := by rw [← hd]; rfl
  generalize place (e.word * 8) = p
  cases p with
  | dram =>
    dsimp only
    rw [Core.freshHeld_ilv, Core.dirtySector_ilv]
    dsimp only
    split
    · exact (d.checkHeld_ilv ..).trans same
    · exact (d.fetch_ilv ..).trans same
  | _ => exact (d.checkCells_ilv ..).trans same

theorem Core.settleMerges_ilv (c : Core) (p : Merge → Bool) : (c.settleMerges p).ilv = c.ilv := foldl_ilv Core.closeMerge_ilv _ c

theorem Core.flushLines_ilv (c : Core) (p : Line → Bool) : (c.flushLines p).ilv = c.ilv := foldl_ilv Core.evict_ilv _ c

theorem Core.settleMerges_nil {c : Core} (none : c.merge = []) (p : Merge → Bool) : c.settleMerges p = c := by rw [Core.settleMerges, none]; rfl

theorem Core.flushLines_nil {c : Core} (none : c.lines = []) (p : Line → Bool) : c.flushLines p = c := by rw [Core.flushLines, none]; rfl

/-! ### A cleared range -/

theorem sget_sclear_in {α : Type} (d : α) (m : SMap α) {lo n i : Nat} (h : lo ≤ i ∧ i < lo + n) : sget d (sclear m lo n) i = d := by
  induction m with
  | nil => rfl
  | cons e m ih =>
    unfold sclear at ih ⊢
    rw [List.filter_cons]
    split
    · next kept =>
      rw [sget, if_neg (by rintro rfl; simp [h.1, h.2] at kept), ih]
    · exact ih

theorem sget_sclear_out {α : Type} (d : α) (m : SMap α) {lo n i : Nat} (h : i < lo ∨ lo + n ≤ i) : sget d (sclear m lo n) i = sget d m i := by
  induction m with
  | nil => rfl
  | cons e m ih =>
    obtain ⟨k, v⟩ := e
    unfold sclear at ih ⊢
    rw [List.filter_cons]
    split
    · rw [sget, sget, ih]
    · next gone =>
      have ne : i ≠ k := by rintro rfl; simp only [Bool.not_eq_true, Bool.not_eq_false', Bool.and_eq_true, decide_eq_true_eq] at gone; omega
      rw [ih, sget, if_neg ne]

theorem mem_insN {l : List Nat} {x : Nat} : x ∈ insN l x := by
  induction l with
  | nil => exact List.mem_singleton_self x
  | cons y l ih =>
    unfold insN
    split
    · next own => rw [own]; exact List.mem_cons_self
    · split
      · exact List.mem_cons_self
      · exact List.mem_cons_of_mem _ ih

/-! ### INTERLEAVE_CHANGE -/

theorem interleaveChange_idle {c : Core} {g : Nat} (idle : 96 ≤ g ∨ c.wantedIlv.getLsbD g = c.ilv.getLsbD g) (running : Bool) : interleaveChange c g running = c :=
  if_pos (by rcases idle with far | same <;> simp [*])

/-- A group whose lines and open entries have left the cache and the merge buffer. -/
def Core.emptied (c : Core) (g : Nat) : Core := (c.settleMerges (fun _ => true)).flushLines (fun l => l.tag * 128 / 2 ^ 32 == g)

theorem interleaveChange_eq {c : Core} {g : Nat} (inside : g < 96) (wanted : c.wantedIlv.getLsbD g ≠ c.ilv.getLsbD g) :
    interleaveChange c g false = { (c.emptied g).zeroRange (g * 2 ^ 32) (2 ^ 32) with
      ilv := (c.emptied g).ilv ^^^ BitVec.ofNat 96 (2 ^ g), ilvFill := insN (c.emptied g).ilvFill g, corrections := (c.emptied g).corrections.filter (fun w => !(w * 8 / 2 ^ 32 == g)) } :=
  if_neg (by simp [Nat.not_le.2 inside, wanted])

theorem Core.emptied_ilv (c : Core) (g : Nat) : (c.emptied g).ilv = c.ilv := (Core.flushLines_ilv ..).trans (c.settleMerges_ilv _)

theorem Core.emptied_nil {c : Core} (lines : c.lines = []) (merge : c.merge = []) (g : Nat) : c.emptied g = c := by
  rw [Core.emptied, Core.settleMerges_nil merge, Core.flushLines_nil lines]

theorem getLsbD_flip (b : BitVec 96) (g j : Nat) (hj : j < 96) : (b ^^^ BitVec.ofNat 96 (2 ^ g)).getLsbD j = if j = g then !b.getLsbD j else b.getLsbD j := by
  rw [BitVec.getLsbD_xor, BitVec.getLsbD_ofNat, decide_eq_true hj, Bool.true_and, Nat.testBit_two_pow]
  by_cases own : j = g
  · subst own; simp
  · rw [decide_eq_false (Ne.symm own), if_neg own, Bool.xor_false]

theorem interleaveChange_clauses {c : Core} {g : Nat} (inside : g < 96) (wanted : c.wantedIlv.getLsbD g ≠ c.ilv.getLsbD g) :
    let d := interleaveChange c g false
    (∀ j, j < 96 → d.ilv.getLsbD j = if j = g then !c.ilv.getLsbD j else c.ilv.getLsbD j)
      ∧ (∀ a, g * 2 ^ 32 ≤ a → a < (g + 1) * 2 ^ 32 → sget 0 d.mem a = 0 ∧ sget 0 d.dram a = 0) ∧ g ∈ d.ilvFill
      ∧ (c.lines = [] → c.merge = [] → d.ilvFill = insN c.ilvFill g ∧ ∀ a, a < g * 2 ^ 32 ∨ (g + 1) * 2 ^ 32 ≤ a → sget 0 d.mem a = sget 0 c.mem a) := by
  dsimp only
  rw [interleaveChange_eq inside wanted]
  refine ⟨fun j hj => ?_, fun a lo hi => ⟨?_, ?_⟩, mem_insN, fun lines merge => ?_⟩
  · exact (getLsbD_flip _ g j hj).trans (by rw [c.emptied_ilv])
  · exact sget_sclear_in _ _ ⟨lo, by omega⟩
  · exact sget_sclear_in _ _ ⟨lo, by omega⟩
  · rw [Core.emptied_nil lines merge]
    exact ⟨rfl, fun a out => sget_sclear_out _ _ (by omega)⟩

/-! ### LAST_DROP -/

theorem lastDrop_drops {c : Core} {a : Nat} {l : Line} (held : c.line? a = some l) (hint : l.hint = 3#2) (uses : l.uses = 0) (users : l.users = []) :
    lastDrop c a = ((c.revert l).dropLine l.tag).inc (Reg.ergLastDrop l.quarter) 1 := by
  rw [lastDrop, held]
  exact if_pos ⟨hint, uses, users⟩

theorem lastDrop_keeps {c : Core} {a : Nat} (used : ∀ l, c.line? a = some l → l.hint ≠ 3#2 ∨ l.uses ≠ 0 ∨ l.users ≠ []) : lastDrop c a = c := by
  unfold lastDrop
  split
  · rfl
  · next l held =>
    exact if_neg fun ⟨hint, uses, users⟩ => (used l held).elim (fun h => h hint) fun h => h.elim (fun h => h uses) (fun h => h users)

theorem mergeExpire_closes {c : Core} {a : Nat} {e : Merge} (isOpen : c.merge.find? (fun e => e.word == a / 8) = some e) : mergeExpire c a = c.closeMerge e := by
  rw [mergeExpire, isOpen]

/-- What a live device's memory maintenance does. -/
theorem next_live {s : State} (live : s.live = true) {f : Core → Core} {c : Core} (h : f s.core = c) :
    (Host.Outcome.next (finish s (s.ifLive (fun t => t.on f))) : Host.Outcome State Fault Refusal) = .next (finish s { s with core := c }) :=
  congrArg (fun u => Host.Outcome.next (finish s u)) ((if_pos live).trans (h ▸ rfl))

/-- Settles O52: each command is its change of the machine; `interleaveChange_clauses` says what a change of mode leaves. -/
theorem memoryChanges : Obligations.MemoryChanges := by
  unfold Obligations.MemoryChanges
  intro s live
  refine ⟨fun running => ⟨?_, fun g => ?_⟩, fun idle => ?_, fun g idle inside wanted => ⟨s.on (fun c => interleaveChange c g s.running), ?_, ?_⟩, fun g idle => ?_, fun g => ?_, fun a l held hint uses users => ?_,
    fun a used => ?_, fun a e isOpen => ?_⟩
  · exact next_live live (if_pos running)
  · exact next_live live (if_pos (by rw [running]; rfl))
  · exact next_live live (if_neg (by rw [idle]; decide))
  · exact next_live live rfl
  · obtain ⟨ilv, zero, fills, alone⟩ := interleaveChange_clauses inside wanted
    rw [idle]
    exact ⟨ilv, zero, fills, rfl, alone⟩
  · exact next_live live (interleaveChange_idle idle _)
  · exact next_live live rfl
  · exact next_live live (lastDrop_drops held hint uses users)
  · exact next_live live (lastDrop_keeps used)
  · exact next_live live (mergeExpire_closes isOpen)

end Sys2Proof.Machine
end

section
/-! SUPPORT. Corrections, bucket leaks, scrubbing and row repair (R492, R493, R495, R504 to R514). -/
namespace Sys2Proof.Machine
open Sys2Proof

-- Threads that wait for the kernel keep their stacks, and the check limits the memory of one text.
set_option Elab.async false

/-! ### Corrections -/

theorem sfind_foldl_sdel {α : Type} (ws : List Nat) (m : SMap α) {w : Nat} (h : w ∈ ws ∨ sfind m w = none) : sfind (ws.foldl sdel m) w = none := by
  induction ws generalizing m with
  | nil => exact h.resolve_left List.not_mem_nil
  | cons x ws ih =>
    refine ih _ ?_
    by_cases own : w = x
    · subst own; exact Or.inr (sfind_sdel_eq m w)
    · rw [sfind_sdel_ne m x w own]
      exact h.imp_left fun mem => (List.mem_cons.1 mem).resolve_left own

theorem correctionWrite_eq {c : Core} {a : Nat} (dram : place a = .dram) (free : c.held a = false) (queued : ∃ w ∈ c.corrections, w / 8 = a / 64) :
    correctionWrite c a = { c with errs := (c.corrections.filter (fun w => w / 8 == a / 64)).foldl sdel c.errs, corrections := c.corrections.filter (fun w => w / 8 != a / 64) } := by
  rw [correctionWrite, dram]
  refine if_neg ?_
  obtain ⟨w, mem, burst⟩ := queued
  rw [free, show c.corrections.any (fun w => w / 8 == a / 64) = true from List.any_eq_true.2 ⟨w, mem, beq_iff_eq.2 burst⟩]
  decide

theorem correctionWrite_clauses {c : Core} {a : Nat} (dram : place a = .dram) (free : c.held a = false) (queued : ∃ w ∈ c.corrections, w / 8 = a / 64) :
    let d := correctionWrite c a
    (∀ w ∈ c.corrections, w / 8 = a / 64 → sfind d.errs w = none) ∧ d.corrections = c.corrections.filter (fun w => w / 8 != a / 64) ∧ d.mem = c.mem ∧ d.regs = c.regs := by
  rw [correctionWrite_eq dram free queued]
  exact ⟨fun w mem burst => sfind_foldl_sdel _ _ (Or.inl (List.mem_filter.2 ⟨mem, beq_iff_eq.2 burst⟩)), rfl, rfl, rfl⟩

theorem ergRewrite_clauses {c : Core} {a q o : Nat} (erg : place a = .erg q o) (queued : a / 8 ∈ c.corrections) :
    let d := ergRewrite c a
    sfind d.errs (a / 8) = none ∧ (∀ w, w ≠ a / 8 → sfind d.errs w = sfind c.errs w) ∧ d.corrections = c.corrections.filter (fun w => w != a / 8) ∧ d.mem = c.mem := by
  have run : ergRewrite c a = { c with errs := sdel c.errs (a / 8), corrections := c.corrections.filter (· != a / 8) } := by
    rw [ergRewrite, erg]
    exact if_neg (by rw [List.contains_iff_mem.2 queued]; decide)
  rw [run]
  exact ⟨sfind_sdel_eq _ _, fun w ne => sfind_sdel_ne _ _ _ ne, rfl, rfl⟩

/-! ### Leaks -/

theorem Core.fld_lt (c : Core) (key lo w : Nat) : c.fld key lo w < 2 ^ w := Nat.mod_lt _ (Nat.two_pow_pos _)

/-- A level after a leak instant. -/
def Core.leakLevel (c : Core) (q u : Nat) : Core := c.setFld (bankKey u (Reg.eccLevel q)) 0 16 (c.fld (bankKey u (Reg.eccLevel q)) 0 16 - 1)

theorem bankKey_inj {x y off : Nat} : bankKey x off = bankKey y off ↔ x = y := by
  unfold bankKey
  omega

/-- Each level of the units of a list loses 1, and no other does. -/
theorem fld_leakLevels (q x : Nat) : ∀ (us : List Nat) (c : Core), us.Nodup →
    (us.foldl (fun d u => d.leakLevel q u) c).fld (bankKey x (Reg.eccLevel q)) 0 16 = c.fld (bankKey x (Reg.eccLevel q)) 0 16 - if x ∈ us then 1 else 0
  | [], c, _ => by rw [if_neg List.not_mem_nil]; rfl
  | u :: us, c, nodup => by
    obtain ⟨fresh, nodup⟩ := List.nodup_cons.1 nodup
    rw [List.foldl_cons, fld_leakLevels q x us _ nodup]
    by_cases own : x = u
    · subst own
      rw [if_neg fresh, if_pos List.mem_cons_self, Core.leakLevel, Core.fld_setFld_eq _ _ _ (by decide), Nat.mod_eq_of_lt]
      · rfl
      · exact Nat.lt_of_le_of_lt (Nat.sub_le _ _) (c.fld_lt ..)
    · rw [Core.leakLevel, Core.fld_setFld_ne _ _ _ _ _ _ (mt bankKey_inj.1 own)]
      simp only [List.mem_cons, own, false_or]

theorem Core.leakLevel_leakBase (c : Core) (q u : Nat) : (c.leakLevel q u).leakBase = c.leakBase := by
  unfold Core.leakLevel
  rfl

theorem bucketLeak_clauses {c : Core} {q base n : Nat} (inside : q < c.leakBase.length) (counted : nth (0, 0) c.leakBase q = (base, n)) (due : base + (n + 1) * c.leakNs q ≤ c.up) :
    nth (0, 0) (bucketLeak c q).leakBase q = (base, n + 1)
      ∧ ∀ x, x < 65 → (bucketLeak c q).fld (bankKey x (Reg.eccLevel q)) 0 16 = c.fld (bankKey x (Reg.eccLevel q)) 0 16 - 1 := by
  have run : bucketLeak c q = (upto 65).foldl (fun d u => d.leakLevel q u) { c with leakBase := setNth c.leakBase q (base, n + 1) } := by
    unfold bucketLeak
    rw [counted]
    exact if_neg (Nat.not_lt.2 due)
  rw [run]
  refine ⟨?_, fun x hx => ?_⟩
  · have kept := List.foldlRecOn (motive := fun d : Core => d.leakBase = setNth c.leakBase q (base, n + 1)) (upto 65) (fun d u => d.leakLevel q u)
      (b := { c with leakBase := setNth c.leakBase q (base, n + 1) }) rfl fun d hd u _ => (d.leakLevel_leakBase q u).trans hd
    rw [kept]
    exact nth_setNth_eq _ _ _ _ inside
  · rw [fld_leakLevels q x (upto 65) _ List.nodup_range, if_pos (show x ∈ upto 65 from List.mem_range.2 hx)]
    rfl

/-! ### Scrubbing -/

theorem Core.unit_setUnit_eq (c : Core) (q u : Nat) (x : UnitSt) : (c.setUnit q u x).unit q u = x := sget_sset_eq _ _ _ _

theorem Core.unit_setUnit_ne (c : Core) {q u v : Nat} (x : UnitSt) (ne : v ≠ u) : (c.setUnit q u x).unit q v = c.unit q v := sget_sset_ne _ _ _ _ _ (by omega)

theorem Core.unit_setReg (c : Core) (key v q u : Nat) : (c.setReg key v).unit q u = c.unit q u := rfl

theorem Core.unit_setFld (c : Core) (key lo w v q u : Nat) : (c.setFld key lo w v).unit q u = c.unit q u := c.unit_setReg ..

theorem Core.unit_inc (c : Core) (key n q u : Nat) : (c.inc key n).unit q u = c.unit q u := c.unit_setFld ..

theorem Core.reg_setUnit (c : Core) (q u : Nat) (x : UnitSt) (key : Nat) : (c.setUnit q u x).reg key = c.reg key := rfl

/-- The machine in which a unit's lap has ended and its time is reported. -/
def Core.lapEnded (c : Core) (q u : Nat) : Core :=
  let ms := (c.up - (c.unit q u).lapStart) / 10 ^ 6
  let c1 := c.setUnit q u { c.unit q u with scrubAt := 0, lapStart := c.up, slow := false }
  let mx := c1.reg (bankKey u (Reg.eccLapMax q))
  let c2 := ((c1.setReg (bankKey u (Reg.eccLapLast q)) ms).setReg (bankKey u (Reg.eccLapMin q)) (min ms (c1.reg (bankKey u (Reg.eccLapMin q))))).setReg (bankKey u (Reg.eccLapMax q))
    (if mx = 2 ^ 32 - 1 then ms else max ms mx)
  c2.inc (bankKey u (Reg.eccLapCount q)) 1

theorem Core.lapEnded_unit (c : Core) (q u : Nat) : (c.lapEnded q u).unit q u = { c.unit q u with scrubAt := 0, lapStart := c.up, slow := false } := by
  unfold Core.lapEnded
  dsimp only
  rw [Core.unit_inc, Core.unit_setReg, Core.unit_setReg, Core.unit_setReg, Core.unit_setUnit_eq]

theorem Core.lapEnded_last (c : Core) (q u : Nat) : (c.lapEnded q u).reg (bankKey u (Reg.eccLapLast q)) = (c.up - (c.unit q u).lapStart) / 10 ^ 6 % 2 ^ 32 := by
  have count : bankKey u (Reg.eccLapLast q) ≠ bankKey u (Reg.eccLapCount q) := by unfold bankKey Reg.eccLapLast Reg.eccLapCount qreg; omega
  have most : bankKey u (Reg.eccLapLast q) ≠ bankKey u (Reg.eccLapMax q) := by unfold bankKey Reg.eccLapLast Reg.eccLapMax qreg; omega
  have least : bankKey u (Reg.eccLapLast q) ≠ bankKey u (Reg.eccLapMin q) := by unfold bankKey Reg.eccLapLast Reg.eccLapMin qreg; omega
  unfold Core.lapEnded
  dsimp only
  rw [Core.inc, Core.incFld, Core.reg_setFld_ne _ _ _ _ count, Core.reg_setReg_ne _ _ _ _ most, Core.reg_setReg_ne _ _ _ _ least, Core.reg_setReg_eq]

/-- The reports of a lap leave the registers that are none of them. -/
theorem Core.lapEnded_reg_ne (c : Core) (q u : Nat) {key : Nat} (h : ∀ o, o ∈ [0x60, 0x64, 0x68, 0x6C] → key ≠ bankKey u (qreg q 0x7 o)) : (c.lapEnded q u).reg key = c.reg key := by
  have last : key ≠ bankKey u (Reg.eccLapLast q) := h 0x60 (by decide)
  have least : key ≠ bankKey u (Reg.eccLapMin q) := h 0x64 (by decide)
  have most : key ≠ bankKey u (Reg.eccLapMax q) := h 0x68 (by decide)
  have count : key ≠ bankKey u (Reg.eccLapCount q) := h 0x6C (by decide)
  unfold Core.lapEnded
  dsimp only
  rw [Core.inc, Core.incFld, Core.reg_setFld_ne _ _ _ _ count, Core.reg_setReg_ne _ _ _ _ most, Core.reg_setReg_ne _ _ _ _ least, Core.reg_setReg_ne _ _ _ _ last, Core.reg_setUnit]

theorem Core.setUnit_mem (c : Core) (q u : Nat) (x : UnitSt) : (c.setUnit q u x).mem = c.mem := rfl

theorem Core.setReg_mem_eq (c : Core) (key v : Nat) : (c.setReg key v).mem = c.mem := rfl

theorem Core.lapEnded_mem (c : Core) (q u : Nat) : (c.lapEnded q u).mem = c.mem := by
  unfold Core.lapEnded
  dsimp only
  rw [Core.inc, Core.incFld, Core.setFld, Core.setReg_mem_eq, Core.setReg_mem_eq, Core.setReg_mem_eq, Core.setReg_mem_eq, Core.setUnit_mem]

/-- A lap's end with a new scrub rate for the units of its kind (R507). -/
def Core.newRate (c : Core) (q u rate : Nat) : Core := (c.setUnit q (u / 64 * 64) { c.unit q (u / 64 * 64) with rateAt := c.up }).setFld (Reg.eccScrub q) (u / 64 * 16) 16 rate

theorem ite_left_or_right {α : Type} (p : Prop) [Decidable p] (a b : α) : (if p then a else b) = a ∨ (if p then a else b) = b := by
  split
  · exact .inl rfl
  · exact .inr rfl

theorem scrubLapEnd_cases {c : Core} {q u : Nat} (hq : q < 4) (hu : u ≤ 64) (ended : unitWords u ≤ (c.unit q u).scrubAt) :
    scrubLapEnd c q u = c.lapEnded q u ∨ (c.lapEnded q u).fld (Reg.eccScrubTarget q) 31 1 ≠ 1 ∧ ∃ rate, scrubLapEnd c q u = (c.lapEnded q u).newRate q u rate := by
  have run : scrubLapEnd c q u = _ := if_neg (show ¬(4 ≤ q ∨ 64 < u ∨ (c.unit q u).scrubAt < unitWords u) by omega)
  by_cases hold : (c.lapEnded q u).fld (Reg.eccScrubTarget q) 31 1 = 1 ∨ (c.unit q u).lapStart < ((c.lapEnded q u).unit q (u / 64 * 64)).rateAt
  · exact Or.inl (run.trans (if_pos hold))
  · rw [run]
    refine (ite_left_or_right _ _ _).imp (fun h => (if_neg hold).trans h) fun h => ⟨fun on => hold (Or.inl on), _, (if_neg hold).trans h⟩

theorem scrubLapEnd_clauses {c : Core} {q u : Nat} (hq : q < 4) (hu : u ≤ 64) (ended : unitWords u ≤ (c.unit q u).scrubAt) :
    let d := scrubLapEnd c q u
    d.unit q u = { c.unit q u with scrubAt := 0, lapStart := c.up, slow := false, rateAt := (d.unit q u).rateAt }
      ∧ d.reg (bankKey u (Reg.eccLapLast q)) = (c.up - (c.unit q u).lapStart) / 10 ^ 6 % 2 ^ 32 ∧ d.mem = c.mem
      ∧ (c.fld (Reg.eccScrubTarget q) 31 1 = 1 → d.reg (Reg.eccScrub q) = c.reg (Reg.eccScrub q)) := by
  have apart : ∀ o, o ∈ [0x60, 0x64, 0x68, 0x6C] → ∀ key, key = Reg.eccScrub q ∨ key = Reg.eccScrubTarget q → key ≠ bankKey u (qreg q 0x7 o) := by
    intro o ho key hk
    simp only [List.mem_cons, List.not_mem_nil, or_false] at ho
    unfold bankKey qreg
    rcases hk with rfl | rfl
    · unfold Reg.eccScrub qreg; omega
    · unfold Reg.eccScrubTarget qreg; omega
  have scrub := c.lapEnded_reg_ne q u (key := Reg.eccScrub q) fun o ho => apart o ho _ (Or.inl rfl)
  have target : (c.lapEnded q u).fld (Reg.eccScrubTarget q) 31 1 = c.fld (Reg.eccScrubTarget q) 31 1 := by
    rw [Core.fld, Core.fld, c.lapEnded_reg_ne q u fun o ho => apart o ho _ (Or.inr rfl)]
  have last := c.lapEnded_last q u
  have unit := c.lapEnded_unit q u
  dsimp only
  rcases scrubLapEnd_cases hq hu ended with run | ⟨off, rate, run⟩
  · rw [run]
    refine ⟨?_, last, c.lapEnded_mem q u, fun _ => scrub⟩
    rw [unit]
  · have key : bankKey u (Reg.eccLapLast q) ≠ Reg.eccScrub q := by unfold bankKey Reg.eccLapLast Reg.eccScrub qreg; omega
    rw [run]
    refine ⟨?_, ?_, ?_, fun on => absurd (target.trans on) off⟩
    · rw [Core.newRate, Core.unit_setFld]
      by_cases own : u = u / 64 * 64
      · rw [← own, Core.unit_setUnit_eq, unit]
      · rw [Core.unit_setUnit_ne _ _ own, unit]
    · rw [Core.newRate, Core.reg_setFld_ne _ _ _ _ key, Core.reg_setUnit, last]
    · rw [Core.newRate, Core.setFld, Core.setReg_mem_eq, Core.setUnit_mem, c.lapEnded_mem]

theorem lapSlow_clauses {c : Core} {q u : Nat} (hq : q < 4) (hu : u ≤ 64) (fast : (c.unit q u).slow = false) (late : (c.unit q u).lapStart + 4 * c.lapTarget q * 10 ^ 6 < c.up) :
    (lapSlow c q u).unit q u = { c.unit q u with slow := true } ∧ ((lapSlow c q u).reg (qpage q 7 * 4096 + 0x10)).testBit 5 = true := by
  have run : lapSlow c q u = (c.setUnit q u { c.unit q u with slow := true }).raise (qpage q 7) 5 :=
    if_neg (show ¬(4 ≤ q ∨ 64 < u ∨ (c.unit q u).slow = true ∨ c.up ≤ (c.unit q u).lapStart + 4 * c.lapTarget q * 10 ^ 6) by
      rw [fast]; simp only [Bool.false_eq_true, false_or]; omega)
  rw [run]
  refine ⟨?_, ?_⟩
  · rw [Core.raise, Core.setBit, Core.unit_setFld, Core.unit_setUnit_eq]
  · rw [Core.testBit_raise _ _ (by decide) (by decide)]
    rfl

theorem historyExpire_clauses (c : Core) (q u : Nat) :
    (historyExpire c q u).unit q u = { c.unit q u with history := (c.unit q u).history.filter (fun h => decide (c.up < h.2.2 + 600 * 10 ^ 9)) } ∧ (historyExpire c q u).regs = c.regs :=
  ⟨c.unit_setUnit_eq .., rfl⟩

/-! ### Row repair -/

/-- From `c` to `d` only registers, bytes and their cells, the cache, the merge buffer, the retirement list and the units changed, and what is due for the repair record. -/
def Core.Notes (c d : Core) : Prop :=
  d = { c with regs := d.regs, mem := d.mem, errs := d.errs, corrections := d.corrections, poison := d.poison, lines := d.lines, merge := d.merge, retired := d.retired, units := d.units, repairDue := d.repairDue }

theorem Core.Notes.refl (c : Core) : c.Notes c := rfl

theorem Core.Notes.trans {c d e : Core} (h : c.Notes d) (k : d.Notes e) : c.Notes e := by
  unfold Core.Notes at *
  rw [k, h]

theorem Core.Notes.failing {c d : Core} (h : c.Notes d) : d.failing = c.failing :=
  (congrArg Core.failing (show d = { c with regs := d.regs, mem := d.mem, errs := d.errs, corrections := d.corrections, poison := d.poison, lines := d.lines, merge := d.merge, retired := d.retired, units := d.units, repairDue := d.repairDue } from h)).trans rfl

theorem Core.Notes.remaps {c d : Core} (h : c.Notes d) : d.remaps = c.remaps :=
  (congrArg Core.remaps (show d = { c with regs := d.regs, mem := d.mem, errs := d.errs, corrections := d.corrections, poison := d.poison, lines := d.lines, merge := d.merge, retired := d.retired, units := d.units, repairDue := d.repairDue } from h)).trans rfl

theorem Core.Notes.repair {c d : Core} (h : c.Notes d) : d.repair = c.repair :=
  (congrArg Core.repair (show d = { c with regs := d.regs, mem := d.mem, errs := d.errs, corrections := d.corrections, poison := d.poison, lines := d.lines, merge := d.merge, retired := d.retired, units := d.units, repairDue := d.repairDue } from h)).trans rfl

theorem Core.Notes.setReg (c : Core) (key v : Nat) : c.Notes (c.setReg key v) := rfl

theorem Core.Notes.raise (c : Core) (page i : Nat) : c.Notes (c.raise page i) := Core.Notes.setReg ..

theorem Core.Notes.setBit (c : Core) (key i : Nat) (b : Bool) : c.Notes (c.setBit key i b) := Core.Notes.setReg ..

theorem Core.Notes.setUnit (c : Core) (q u : Nat) (x : UnitSt) : c.Notes (c.setUnit q u x) := rfl

theorem Core.Notes.putErg (c : Core) (a : Nat) (bs : List Byte) : c.Notes (c.putErg a bs) := rfl

theorem Core.Notes.log (c : Core) (q : Nat) (r : LogRec) : c.Notes (c.log q r) := by
  unfold Core.log
  exact (Core.Notes.setReg c _ _).trans (Core.Notes.putErg _ _ _)

theorem Core.Notes.repairChanged (c : Core) : c.Notes c.repairChanged := (Core.Notes.setBit c _ _ _).trans rfl

theorem Core.Notes.foldl {α : Type} {f : Core → α → Core} (step : ∀ c a, Core.Notes c (f c a)) (l : List α) (c : Core) : c.Notes (l.foldl f c) :=
  List.foldlRecOn (motive := fun d => c.Notes d) l f (Core.Notes.refl c) fun d hd a _ => hd.trans (step d a)

theorem Core.Notes.dropped (c : Core) (l : Line) : c.Notes ((c.revert l).dropLine l.tag) := rfl

theorem Core.Notes.writeRetireList (c : Core) : c.Notes c.writeRetireList := Core.Notes.putErg ..

theorem Core.Notes.retirePage (c : Core) (chan bank row page : Nat) : c.Notes (c.retirePage chan bank row page) := by
  unfold Core.retirePage
  refine Core.Notes.trans (d := { (c.lines.filter (fun l => l.tag / 512 == page)).foldl (fun d l => (d.revert l).dropLine l.tag) c with
    retired := insN ((c.lines.filter (fun l => l.tag / 512 == page)).foldl (fun d l => (d.revert l).dropLine l.tag) c).retired page,
    merge := ((c.lines.filter (fun l => l.tag / 512 == page)).foldl (fun d l => (d.revert l).dropLine l.tag) c).merge.filter (fun e => e.word / 8192 != page) }) ?_ ?_
  · exact (Core.Notes.foldl (fun d l => Core.Notes.dropped d l) _ c).trans rfl
  · exact ((((Core.Notes.setReg _ _ _).trans (Core.Notes.log _ _ _)).trans (Core.Notes.raise _ _ _)).trans (Core.Notes.writeRetireList _)).trans (Core.Notes.repairChanged _)

theorem Core.Notes.retireRow (c : Core) (chan bank row : Nat) : c.Notes (c.retireRow chan bank row) := by
  unfold Core.retireRow
  dsimp only
  split
  · exact (Core.Notes.log c _ _).trans (Core.Notes.raise _ _ _)
  · exact Core.Notes.foldl (fun d p => Core.Notes.retirePage d chan bank row p) _ c

theorem rowRemap_waits {c : Core} {chan bank row : Nat} {running : Bool} (held : c.fld (Reg.eccCfg (chan / 64)) 8 1 = 1 ∨ c.chState chan = 3 ∨ running = true ∧ (chan, bank, row) ∉ c.failDue) :
    rowRemap c chan bank row running = c := by
  refine if_pos ?_
  rcases held with h | h | ⟨run, h⟩
  · simp [h]
  · simp [h]
  · simp [run, h]

/-- The spare that a failing row gets, with the mask of the bad spares that its entry is to carry; no spare where none of its bank is free. -/
def Core.spareFor (c : Core) (chan bank row : Nat) : Option Nat × Nat :=
  let old := c.remaps.find? (fun m => m.chan == chan && m.bank == bank && m.row == row)
  let bank' := (c.remaps ++ c.remapBusy).filter (fun m => m.chan == chan && m.bank == bank)
  let bad := bank'.foldl (fun b m => b ||| m.bad) 0
  let bad := match old with | some m => bad ||| 2 ^ m.spare | none => bad
  let used (s : Nat) : Bool := bank'.any (fun m => m.spare == s && m.row != row)
  (firstN 8 (fun s => !bad.testBit s && !used s), match old with | some m => m.bad ||| 2 ^ m.spare | none => 0)

theorem Core.spareFor_empty {c : Core} (table : c.remaps = []) (busy : c.remapBusy = []) (chan bank row : Nat) : c.spareFor chan bank row = (some 0, 0) := by
  unfold Core.spareFor
  rw [table, busy]
  simp only [List.find?_nil, List.append_nil, List.filter_nil, List.foldl_nil, List.any_nil]
  decide

/-- A row that is remapped or retired fails no more; one that has a spare is being copied to it. -/
theorem rowRemap_clauses {c : Core} {chan bank row : Nat} {running : Bool} (failing : (chan, bank, row) ∈ c.failing) (on : c.fld (Reg.eccCfg (chan / 64)) 8 1 = 0) (awake : c.chState chan ≠ 3)
    (free : running = false ∨ (chan, bank, row) ∈ c.failDue) :
    (chan, bank, row) ∉ (rowRemap c chan bank row running).failing
      ∧ ∀ s, (c.spareFor chan bank row).1 = some s → ({ chan := chan, bank := bank, row := row, spare := s, bad := (c.spareFor chan bank row).2 } : Remap) ∈ (rowRemap c chan bank row running).remapBusy := by
  have gone (l : List (Nat × Nat × Nat)) : (chan, bank, row) ∉ l.filter (· != (chan, bank, row)) := fun h => by simpa using (List.mem_filter.1 h).2
  have guard : ¬(!c.failing.contains (chan, bank, row) || c.fld (Reg.eccCfg (chan / 64)) 8 1 == 1 || c.chState chan == 3 || (running && !c.failDue.contains (chan, bank, row))) = true := by
    rw [List.contains_iff_mem.2 failing, on, beq_false_of_ne awake]
    rcases free with run | due
    · rw [run, Bool.false_and]; decide
    · rw [List.contains_iff_mem.2 due, Bool.not_true, Bool.and_false]; decide
  unfold rowRemap
  dsimp only
  rw [if_neg guard]
  split
  · next none =>
    refine ⟨?_, fun s some => ?_⟩
    · rw [(Core.Notes.retireRow _ chan bank row).failing]
      exact gone _
    · have same : (c.spareFor chan bank row).1 = .none := none
      rw [same] at some
      cases some
  · next s some =>
    refine ⟨?_, fun s' some' => ?_⟩
    · dsimp only; exact gone _
    have same : (c.spareFor chan bank row).1 = .some s := some
    rw [same] at some'
    cases some'
    exact List.mem_append_right _ List.mem_cons_self

theorem remapCopyEnd_clauses {c : Core} {chan bank row : Nat} {m : Remap} (busy : c.remapBusy.find? (fun m => m.chan == chan && m.bank == bank && m.row == row) = some m) :
    let d := remapCopyEnd c chan bank row
    m ∈ d.remaps ∧ (∀ x ∈ d.remaps, x.chan = chan → x.bank = bank → x.row = row → x = m) ∧ d.repairDue = true := by
  unfold remapCopyEnd
  rw [busy]
  dsimp only
  rw [(Core.Notes.repairChanged _).remaps, (Core.Notes.raise _ _ _).remaps, (Core.Notes.log _ _ _).remaps, (Core.Notes.setUnit _ _ _ _).remaps]
  refine ⟨List.mem_append_right _ List.mem_cons_self, fun x hx hc hb hr => ?_, rfl⟩
  rcases List.mem_append.1 hx with old | new
  · have other := (List.mem_filter.1 old).2
    simp [hc, hb, hr] at other
  · exact List.mem_singleton.1 new

/-! ### The repair record -/

theorem Core.setReg_repairDue (c : Core) (key v : Nat) : (c.setReg key v).repairDue = c.repairDue := rfl

theorem Core.raise_repairDue (c : Core) (page i : Nat) : (c.raise page i).repairDue = c.repairDue := Core.setReg_repairDue ..

theorem Core.setBit_repairDue (c : Core) (key i : Nat) (b : Bool) : (c.setBit key i b).repairDue = c.repairDue := Core.setReg_repairDue ..

theorem Core.putErg_repairDue (c : Core) (a : Nat) (bs : List Byte) : (c.putErg a bs).repairDue = c.repairDue := rfl

theorem Core.log_repairDue (c : Core) (q : Nat) (r : LogRec) : (c.log q r).repairDue = c.repairDue := by
  unfold Core.log
  exact (Core.putErg_repairDue ..).trans (Core.setReg_repairDue ..)

/-- Of two copies one is written over and the other stays. -/
theorem setNth_pair {α : Type} {l : List α} (two : l.length = 2) {i : Nat} (hi : i < 2) (v : α) : v ∈ setNth l i v ∧ ∃ old ∈ l, old ∈ setNth l i v := by
  match l, two with
  | [x, y], _ =>
    match i, hi with
    | 0, _ => exact ⟨by simp [setNth], y, by simp, by simp [setNth]⟩
    | 1, _ => exact ⟨by simp [setNth], x, by simp, by simp [setNth]⟩

/-- One more than the SEQUENCE of a copy of the repair record; 0 for one that is not valid. -/
def Core.copySeq (c : Core) (i : Nat) : Nat := match readRepair (nth [] c.repair i) with | some r => r.seq + 1 | none => 0

/-- The bytes of the next copy of the repair record. -/
def Core.nextCopy (c : Core) : List Byte := repairBytes { seq := max (c.copySeq 0) (max (c.copySeq 1) 1) % 2 ^ 32, remaps := c.remaps, retired := c.retired }

theorem repairWrite_taken {c : Core} (due : c.repairDue = true) : ∃ v, repairWrite c true =
    ({ c with repair := setNth c.repair (if c.copySeq 0 ≤ c.copySeq 1 then 0 else 1) c.nextCopy, repairDue := false } : Core).setReg (Reg.eccRepair 0) v := by
  unfold repairWrite
  exact ⟨_, if_neg (by rw [due]; decide)⟩

theorem repairWrite_ok {c : Core} (due : c.repairDue = true) (two : c.repair.length = 2) :
    let d := repairWrite c true
    d.repairDue = false ∧ (∃ n, repairBytes { seq := n, remaps := c.remaps, retired := c.retired } ∈ d.repair) ∧ (∃ old ∈ c.repair, old ∈ d.repair) ∧ d.mem = c.mem := by
  obtain ⟨v, run⟩ := repairWrite_taken due
  obtain ⟨new, old⟩ := setNth_pair two (i := if c.copySeq 0 ≤ c.copySeq 1 then 0 else 1) (by split <;> decide) c.nextCopy
  rw [run]
  exact ⟨rfl, ⟨_, new⟩, old, rfl⟩

theorem repairWrite_failed {c : Core} (due : c.repairDue = true) : (repairWrite c false).repairDue = false ∧ (repairWrite c false).repair = c.repair := by
  unfold repairWrite
  rw [if_neg (by rw [due]; decide)]
  dsimp only
  rw [if_neg (by decide)]
  refine ⟨?_, ?_⟩
  · rw [Core.log_repairDue, Core.raise_repairDue, Core.setBit_repairDue]
  · rw [(Core.Notes.log _ _ _).repair, (Core.Notes.raise _ _ _).repair, (Core.Notes.setBit _ _ _ _).repair]

theorem next_on {s : State} (live : s.live = true) (f : Core → Core) :
    (Host.Outcome.next (finish s (s.ifLive (fun t => t.on f))) : Host.Outcome State Fault Refusal) = .next (finish s (s.on f)) :=
  congrArg (fun u => Host.Outcome.next (finish s u)) (if_pos live)

/-- Settles O54: each command is its change of the machine, whose clauses the lemmas above give. -/
theorem errorHandling : Obligations.ErrorHandling := by
  unfold Obligations.ErrorHandling
  intro s live
  refine ⟨fun a dram free queued => ⟨_, next_on live _, correctionWrite_clauses dram free queued⟩, fun a q o erg queued => ⟨_, next_on live _, ergRewrite_clauses erg queued⟩,
    fun q base n inside counted due => ⟨_, next_on live _, bucketLeak_clauses inside counted due⟩, fun q n upset => next_on live _,
    fun q n hq hn ended => ⟨_, next_on live _, scrubLapEnd_clauses hq hn ended⟩, fun q n hq hn fast late => ⟨_, next_on live _, lapSlow_clauses hq hn fast late⟩,
    fun q n => ⟨_, next_on live _, historyExpire_clauses _ q n⟩, fun ch bank row failing => ⟨fun held => next_live live (rowRemap_waits held), fun on awake free => ?_⟩,
    fun ch bank row m busy => ⟨_, next_on live _, remapCopyEnd_clauses busy⟩, fun due two => ⟨?_, ?_⟩⟩
  · obtain ⟨gone, copied⟩ := rowRemap_clauses failing on awake free
    refine ⟨_, next_on live _, gone, rfl, fun table busy => ?_⟩
    have empty := Core.spareFor_empty table busy ch bank row
    exact ⟨_, copied 0 (by rw [empty]), rfl, rfl, rfl, rfl, by rw [empty]⟩
  · obtain ⟨done, ⟨n, new⟩, old, mem⟩ := repairWrite_ok due two
    exact ⟨_, n, next_on live _, done, new, old, mem⟩
  · exact ⟨_, next_on live _, repairWrite_failed due⟩

end Sys2Proof.Machine
end

section
/-! SUPPORT. Temperature, droop, the throttle input and pins (R654, R664 to R666, R747). -/
namespace Sys2Proof.Machine
open Sys2Proof

-- Threads that wait for the kernel keep their stacks, and the check limits the memory of one text.
set_option Elab.async false

/-! ### Fields and throttle reasons -/

/-- A field inside a written field reads its bits of what was written. -/
theorem Core.fld_setFld_inside (c : Core) (key v : Nat) {lo w lo' w' : Nat} (h : lo + w ≤ 32) (low : lo ≤ lo') (high : lo' + w' ≤ lo + w) :
    (c.setFld key lo w v).fld key lo' w' = field v (lo' - lo) w' := by
  refine Nat.eq_of_testBit_eq fun i => ?_
  rw [Core.fld, testBit_field, testBit_field, Core.testBit_setFld]
  by_cases hi : i < w'
  · rw [if_pos (by omega), decide_eq_true (show lo' + i < 32 by omega), Bool.true_and, show lo' + i - lo = lo' - lo + i by omega]
  · rw [decide_eq_false hi, Bool.false_and, Bool.false_and]

theorem Core.fld_setBit_eq (c : Core) (key : Nat) {i : Nat} (b : Bool) (hi : i < 32) : (c.setBit key i b).fld key i 1 = b2n b := by
  rw [Core.setBit, Core.fld_setFld_eq _ _ _ (by omega)]
  cases b <;> rfl

theorem Core.fld_setBit_ne (c : Core) {key j : Nat} (i : Nat) (b : Bool) (lo w : Nat) (h : j ≠ key) : (c.setBit key i b).fld j lo w = c.fld j lo w :=
  c.fld_setFld_ne _ _ _ _ _ h

theorem Core.fld_setBit_other (c : Core) (key : Nat) {i lo w : Nat} (b : Bool) (h : lo + w ≤ 32) (apart : lo + w ≤ i ∨ i < lo) : (c.setBit key i b).fld key lo w = c.fld key lo w :=
  c.fld_setFld_other _ _ h apart

/-- Whether or not an interrupt is raised, a field of another register keeps its value. -/
theorem Core.fld_raise_if (c : Core) (p : Prop) [Decidable p] (page i : Nat) {j : Nat} (lo w : Nat) (h : j ≠ page * 4096 + 0x10) :
    (if p then c.raise page i else c).fld j lo w = c.fld j lo w := by
  split
  · exact c.fld_raise_ne lo w h
  · rfl

theorem Core.mem_raise_if (c : Core) (p : Prop) [Decidable p] (page i : Nat) : (if p then c.raise page i else c).mem = c.mem := by split <;> rfl

theorem b2n_le (b : Bool) : b2n b ≤ 1 := by cases b <;> decide

/-- CAP is active while COMPUTE or another domain is paced, DROOP while a quarter's clock stretches. -/
theorem Power.active_bits (p : Power) : field p.active 0 1 = b2n (p.pacing || p.short) ∧ field p.active 2 1 = b2n (!p.stretch.isEmpty) := by
  have h0 := b2n_le (p.pacing || p.short)
  have h1 := b2n_le (p.thermal || p.emergency || p.memHot)
  have h2 := b2n_le (!p.stretch.isEmpty)
  rw [field_eq_div_mod, field_eq_div_mod, Power.active]
  omega

/-- PWR_THR_NOW after a change of the power state. -/
theorem State.thrNow_powered (s : State) (f : Power → Power) :
    (s.powered f).core.fld Reg.pwrThrNow 0 1 = b2n ((f s.pwr).pacing || (f s.pwr).short) ∧ (s.powered f).core.fld Reg.pwrThrNow 2 1 = b2n (!(f s.pwr).stretch.isEmpty) :=
  ⟨(Core.fld_setFld_inside _ _ _ (by decide) (by decide) (by decide)).trans (Power.active_bits { f s.pwr with reasonNs := s.reasonNs, reasonAt := s.core.up }).1,
    (Core.fld_setFld_inside _ _ _ (by decide) (by decide) (by decide)).trans (Power.active_bits { f s.pwr with reasonNs := s.reasonNs, reasonAt := s.core.up }).2⟩

theorem State.reg_powered (s : State) (f : Power → Power) {j : Nat} (h : j ≠ Reg.pwrThrNow) : (s.powered f).core.reg j = s.core.reg j := Core.reg_setFld_ne _ _ _ _ h

theorem State.fld_powered (s : State) (f : Power → Power) {j : Nat} (lo w : Nat) (h : j ≠ Reg.pwrThrNow) : (s.powered f).core.fld j lo w = s.core.fld j lo w :=
  Core.fld_setFld_ne _ _ _ _ _ _ h

theorem State.mem_powered (s : State) (f : Power → Power) : (s.powered f).core.mem = s.core.mem := Core.setFld_mem ..

/-! ### The thermal loop -/

/-- The temperatures in PWR_THERM, and the interrupts of a crossing. -/
def Core.showTemps (c : Core) (thr tj : Nat) (temps : List Nat) : Core :=
  let was := c.fld Reg.pwrTherm 8 8
  let c1 := (c.setFld Reg.pwrTherm 8 8 tj).setFld Reg.pwrTherm 16 8 (max tj (c.fld Reg.pwrTherm 16 8))
  let c2 := c1.setFld Reg.pwrTherm 24 8 (temps.foldl max 0)
  let c3 := if decide (tj ≥ thr) && decide (was < thr) then c2.raise 6 1 else c2
  if tj ≥ 110 ∧ was < 110 then c3.raise 6 2 else c3

/-- The frequency request a step lower, for the cause THERMAL. -/
def Core.coolDown (c : Core) : Core := (c.setFld Reg.pwrFreq 16 6 (c.fld Reg.pwrFreq 16 6 - 1)).setFld Reg.pwrFreq 24 3 3

/-- The power state that the thermal loop leaves. -/
def Power.heated (p : Power) (thr tj up : Nat) (temps : List Nat) : Power :=
  { p with
    thermal := decide (tj ≥ thr) || (p.thermal && decide (tj + 3 ≥ thr)), emergency := decide (tj ≥ 110) || (p.emergency && decide (tj ≥ 105)),
    memHot := temps.any (fun t => decide (t ≥ 95)) || (p.memHot && temps.any (fun t => decide (t ≥ 92))), thermalAt := some up,
    refresh := (upto temps.length).filter (fun i => decide (nth 0 temps i ≥ 85)) }

/-- The registers that the thermal loop leaves: the temperatures, and a lower request while hot. -/
def Core.warmed (c : Core) (thr tj : Nat) (temps : List Nat) : Core :=
  let d := c.showTemps thr tj temps
  if decide (tj ≥ thr) && d.fld Reg.pwrFreq 8 1 == 0 then d.coolDown else d

/-- Memory issue stopped, or let go on. -/
def Core.stopMem (c : Core) (b : Bool) : Core := { c with memStop := b }

theorem Core.fld_stopMem (c : Core) (b : Bool) (key lo w : Nat) : (c.stopMem b).fld key lo w = c.fld key lo w := rfl

theorem Core.stopMem_mem (c : Core) (b : Bool) : (c.stopMem b).mem = c.mem := rfl

theorem thermalLoop_eq {s : State} {tj : Nat} {temps : List Nat} (due : s.thermalDue = true) :
    ∃ f, thermalLoop s tj temps = ((s.on (fun c => c.warmed s.core.throttleC tj temps)).on
        (fun c => c.stopMem (s.pwr.heated s.core.throttleC tj s.core.up temps).emergency)).powered f
      ∧ f s.pwr = s.pwr.heated s.core.throttleC tj s.core.up temps := by
  rw [thermalLoop, if_neg (by simp [due])]
  exact ⟨_, rfl, rfl⟩

theorem Core.showTemps_mem (c : Core) (thr tj : Nat) (temps : List Nat) : (c.showTemps thr tj temps).mem = c.mem := by
  rw [Core.showTemps, Core.mem_raise_if, Core.mem_raise_if, Core.setFld_mem, Core.setFld_mem, Core.setFld_mem]

theorem Core.showTemps_freq (c : Core) (thr tj : Nat) (temps : List Nat) (lo w : Nat) : (c.showTemps thr tj temps).fld Reg.pwrFreq lo w = c.fld Reg.pwrFreq lo w := by
  rw [Core.showTemps, Core.fld_raise_if _ _ _ _ _ _ (by decide), Core.fld_raise_if _ _ _ _ _ _ (by decide), Core.fld_setFld_ne _ _ _ _ _ _ (by decide),
    Core.fld_setFld_ne _ _ _ _ _ _ (by decide), Core.fld_setFld_ne _ _ _ _ _ _ (by decide)]

theorem Core.showTemps_tj (c : Core) (thr : Nat) {tj : Nat} (temps : List Nat) (small : tj < 256) : (c.showTemps thr tj temps).fld Reg.pwrTherm 8 8 = tj := by
  rw [Core.showTemps, Core.fld_raise_if _ _ _ _ _ _ (by decide), Core.fld_raise_if _ _ _ _ _ _ (by decide), Core.fld_setFld_other _ _ _ (by decide) (by decide),
    Core.fld_setFld_other _ _ _ (by decide) (by decide), Core.fld_setFld_eq _ _ _ (by decide)]
  exact Nat.mod_eq_of_lt small

theorem Core.coolDown_freq (c : Core) : c.coolDown.fld Reg.pwrFreq 16 6 = c.fld Reg.pwrFreq 16 6 - 1 := by
  rw [Core.coolDown, Core.fld_setFld_other _ _ _ (by decide) (by decide), Core.fld_setFld_eq _ _ _ (by decide)]
  exact Nat.mod_eq_of_lt (Nat.lt_of_le_of_lt (Nat.sub_le _ _) (c.fld_lt _ _ _))

theorem Core.warmed_mem (c : Core) (thr tj : Nat) (temps : List Nat) : (c.warmed thr tj temps).mem = c.mem := by
  refine Eq.trans ?_ (c.showTemps_mem thr tj temps)
  unfold Core.warmed
  dsimp only
  rw [apply_ite Core.mem, Core.coolDown, Core.setFld_mem, Core.setFld_mem, ite_self]

theorem Core.coolDown_therm (c : Core) (lo w : Nat) : c.coolDown.fld Reg.pwrTherm lo w = c.fld Reg.pwrTherm lo w := by
  rw [Core.coolDown, Core.fld_setFld_ne _ _ _ _ _ _ (by decide), Core.fld_setFld_ne _ _ _ _ _ _ (by decide)]

theorem Core.warmed_tj (c : Core) (thr : Nat) {tj : Nat} (temps : List Nat) (small : tj < 256) : (c.warmed thr tj temps).fld Reg.pwrTherm 8 8 = tj := by
  refine Eq.trans ?_ (c.showTemps_tj thr temps small)
  unfold Core.warmed
  dsimp only
  rw [apply_ite (fun d : Core => d.fld Reg.pwrTherm 8 8), Core.coolDown_therm, ite_self]

theorem Core.warmed_freq {c : Core} {thr tj : Nat} (temps : List Nat) (hot : thr ≤ tj) (free : c.fld Reg.pwrFreq 8 1 = 0) :
    (c.warmed thr tj temps).fld Reg.pwrFreq 16 6 = c.fld Reg.pwrFreq 16 6 - 1 := by
  rw [Core.warmed, if_pos (by rw [Core.showTemps_freq, free, decide_eq_true hot]; decide), Core.coolDown_freq, Core.showTemps_freq]

/-- The flags of the thermal loop: hot from THROTTLE_C, an emergency from 110 °C until below 105 °C. -/
theorem Power.heated_flags (p : Power) (thr tj up : Nat) (temps : List Nat) :
    (thr ≤ tj → (p.heated thr tj up temps).thermal = true) ∧ (110 ≤ tj → (p.heated thr tj up temps).emergency = true) ∧ (tj < 105 → (p.heated thr tj up temps).emergency = false)
    ∧ (105 ≤ tj → tj < 110 → (p.heated thr tj up temps).emergency = p.emergency) := by
  refine ⟨fun hot => ?_, fun high => ?_, fun low => ?_, fun high low => ?_⟩
  · show (decide (tj ≥ thr) || _) = true
    rw [decide_eq_true hot, Bool.true_or]
  · show (decide (tj ≥ 110) || _) = true
    rw [decide_eq_true high, Bool.true_or]
  · show (decide (tj ≥ 110) || (p.emergency && decide (tj ≥ 105))) = false
    rw [decide_eq_false (show ¬tj ≥ 110 by omega), decide_eq_false (show ¬tj ≥ 105 by omega), Bool.and_false, Bool.or_false]
  · show (decide (tj ≥ 110) || (p.emergency && decide (tj ≥ 105))) = p.emergency
    rw [decide_eq_false (show ¬tj ≥ 110 by omega), decide_eq_true (show tj ≥ 105 by omega), Bool.and_true, Bool.false_or]

theorem thermalLoop_clauses {s : State} {tj : Nat} {temps : List Nat} (due : s.thermalDue = true) (small : tj < 256) :
    let u := thermalLoop s tj temps
    u.core.fld Reg.pwrTherm 8 8 = tj ∧ u.pwr.thermalAt = some s.core.up
    ∧ (s.core.throttleC ≤ tj → u.pwr.thermal = true ∧ (s.core.fld Reg.pwrFreq 8 1 = 0 → u.core.fld Reg.pwrFreq 16 6 = s.core.fld Reg.pwrFreq 16 6 - 1))
    ∧ (110 ≤ tj → u.pwr.emergency = true) ∧ (tj < 105 → u.pwr.emergency = false) ∧ (105 ≤ tj → tj < 110 → u.pwr.emergency = s.pwr.emergency) ∧ u.core.memStop = u.pwr.emergency
    ∧ (∀ i, i ∈ u.pwr.refresh ↔ i < temps.length ∧ 85 ≤ nth 0 temps i) ∧ u.core.mem = s.core.mem := by
  obtain ⟨f, run, pwr⟩ := thermalLoop_eq (temps := temps) (tj := tj) due
  obtain ⟨thermal, high, low, between⟩ := s.pwr.heated_flags s.core.throttleC tj s.core.up temps
  have field_ {β : Type} (g : Power → β) (keep : ∀ p ns t, g { p with reasonNs := ns, reasonAt := t } = g p) :
      g (thermalLoop s tj temps).pwr = g (s.pwr.heated s.core.throttleC tj s.core.up temps) := by
    rw [run, ← pwr]
    exact keep (f s.pwr) _ _
  have emergency := field_ (·.emergency) fun _ _ _ => rfl
  intro u
  rw [show u.pwr.emergency = _ from emergency]
  unfold u
  refine ⟨?_, ?_, fun hot => ⟨(field_ (·.thermal) fun _ _ _ => rfl).trans (thermal hot), fun free => ?_⟩, high, low, between, ?_, fun i => ?_, ?_⟩
  · rw [run, State.fld_powered _ _ _ _ (by decide), State.on_core, State.on_core, Core.fld_stopMem]
    exact s.core.warmed_tj _ temps small
  · exact field_ (·.thermalAt) fun _ _ _ => rfl
  · rw [run, State.fld_powered _ _ _ _ (by decide), State.on_core, State.on_core, Core.fld_stopMem]
    exact Core.warmed_freq temps hot free
  · rw [run]
    rfl
  · have refresh : (thermalLoop s tj temps).pwr.refresh = (upto temps.length).filter (fun i => decide (nth 0 temps i ≥ 85)) := field_ (·.refresh) fun _ _ _ => rfl
    rw [refresh, List.mem_filter, upto, List.mem_range, decide_eq_true_iff]
  · rw [run, State.mem_powered]
    rw [State.on_core, State.on_core, Core.stopMem_mem]
    exact s.core.warmed_mem _ tj temps

/-! ### Droop -/

theorem sput_isEmpty {α : Type} (m : SMap α) (i : Nat) (v : α) : (sput m i v).isEmpty = false := by
  cases m with
  | nil => rfl
  | cons e m =>
    rw [sput]
    split
    · rfl
    · split <;> rfl

/-- A saturating count after one more event. -/
theorem Core.reg_inc_one (c : Core) (key : Nat) : (c.inc key 1).reg key = min (2 ^ 32 - 1) (c.reg key % 2 ^ 32 + 1) := by
  have word (x : Nat) : field x 0 32 = x % 2 ^ 32 := by rw [field_eq_div_mod, Nat.pow_zero, Nat.div_one]
  have written := c.fld_setFld_eq key (satAdd 32 (c.fld key 0 32) 1) (lo := 0) (w := 32) (by decide)
  rw [Core.fld, Core.fld, word, word, Core.setFld, Core.reg_setReg_eq, Nat.mod_mod, satAdd] at written
  rw [Core.inc, Core.incFld, Core.setFld, Core.reg_setReg_eq, Core.fld, word, satAdd, written]
  have := Nat.mod_lt (c.reg key) (show 0 < 2 ^ 32 by decide)
  omega

theorem droopDetect_clauses {s : State} {q mv : Nat} (droop : mv + s.core.droopMv < nth 0 s.pwr.volts q) :
    let u := droopDetect s q mv
    u.pwr.stretch = sput s.pwr.stretch q s.core.up ∧ u.core.fld Reg.pwrThrNow 2 1 = 1
    ∧ (sfind s.pwr.stretch q = none → u.core.reg Reg.pwrDroopEvents = min (2 ^ 32 - 1) (s.core.reg Reg.pwrDroopEvents % 2 ^ 32 + 1))
    ∧ ((sfind s.pwr.stretch q).isSome = true → u.core.reg Reg.pwrDroopEvents = s.core.reg Reg.pwrDroopEvents) := by
  rw [droopDetect, if_neg (Nat.not_le.2 droop)]
  dsimp only
  refine ⟨?_, ?_, fun fresh => ?_, fun old => ?_⟩
  · cases (sfind s.pwr.stretch q).isSome <;> rfl
  · rw [(State.thrNow_powered _ _).2, sput_isEmpty]
    rfl
  · rw [State.reg_powered _ _ (by decide), fresh]
    exact s.core.reg_inc_one _
  · rw [State.reg_powered _ _ (by decide), if_pos old]

theorem droopEnd_eq {s : State} {q t : Nat} (stretched : sfind s.pwr.stretch q = some t) :
    droopEnd s q = if s.core.up < t + s.core.periods32 then s else s.powered (fun p => { p with stretch := sdel p.stretch q }) := by
  rw [droopEnd, stretched]

/-! ### The throttle input, the thermal trip -/

/-- PWR_EXT.ASSERTED, the pin's state and the interrupt of an asserted throttle input. -/
def Core.throttled (c : Core) : Core := ((c.setBit Reg.pwrExt 16 true).setBit Reg.pinState 1 true).raise 6 3

/-- The state in which an asserted throttle input is shown and the cap has fallen. -/
def State.capped (s : State) : State := (s.on Core.throttled).onPwr (fun p => { p with throttle := true, extCap := true })

/-- The power state once COMPUTE is paced to a cap that the estimate lies above. -/
def Power.overCap (p : Power) (above : Bool) : Power := { p with pacing := p.pacing || above, capNow := p.capNow || above }

theorem throttleAssert_eq {s : State} (free : s.pwr.throttle = false) :
    throttleAssert s = (if decide (s.capped.pwr.estimate > s.capped.cap) && !s.capped.pwr.capNow && !s.capped.pwr.capBefore then s.capped.on (fun c => c.raise 6 0) else s.capped).powered
      (fun p => p.overCap (decide (s.capped.pwr.estimate > s.capped.cap))) := by
  rw [throttleAssert, if_neg (by simp [free])]
  rfl

theorem Core.throttled_fields (c : Core) : c.throttled.fld Reg.pwrExt 0 11 = c.fld Reg.pwrExt 0 11 ∧ c.throttled.capW = c.capW ∧ c.throttled.fld Reg.pinState 1 1 = 1 := by
  refine ⟨?_, ?_, ?_⟩
  · rw [Core.throttled, Core.fld_raise_ne _ _ _ (by decide), Core.fld_setBit_ne _ _ _ _ _ (by decide), Core.fld_setBit_other _ _ _ (by decide) (by decide)]
  · rw [Core.capW, Core.throttled, Core.fld_raise_ne _ _ _ (by decide), Core.fld_setBit_ne _ _ _ _ _ (by decide), Core.fld_setBit_ne _ _ _ _ _ (by decide), Core.capW]
  · rw [Core.throttled, Core.fld_raise_ne _ _ _ (by decide)]
    exact Core.fld_setBit_eq _ _ _ (by decide)

theorem State.cap_ext {s : State} (ext : s.pwr.extCap = true) : s.cap = min s.core.capW (max 500 (s.core.fld Reg.pwrExt 0 11)) := if_pos ext

theorem State.cap_powered (s : State) (f : Power → Power) (keep : (f s.pwr).extCap = s.pwr.extCap) : (s.powered f).cap = s.cap := by
  rw [State.cap, show (s.powered f).pwr.extCap = s.pwr.extCap from keep, Core.capW, State.fld_powered _ _ _ _ (by decide), State.fld_powered _ _ _ _ (by decide)]
  rfl

theorem State.capped_core (s : State) : s.capped.core = s.core.throttled := rfl

theorem State.capped_throttle (s : State) : s.capped.pwr.throttle = true := rfl

theorem State.capped_pwr (s : State) : s.capped.pwr = { s.pwr with throttle := true, extCap := true } := by
  rw [← State.on_pwr s Core.throttled]
  rfl

theorem State.capped_estimate (s : State) : s.capped.pwr.estimate = s.pwr.estimate := by rw [State.capped_pwr]

theorem State.capped_cap (s : State) : s.capped.cap = min s.core.capW (max 500 (s.core.fld Reg.pwrExt 0 11)) := by
  obtain ⟨ext, most, -⟩ := s.core.throttled_fields
  rw [State.cap_ext rfl, State.capped_core, ext, most]

theorem State.throttle_powered (s : State) (f : Power → Power) : (s.powered f).pwr.throttle = (f s.pwr).throttle := rfl

theorem State.extCap_powered (s : State) (f : Power → Power) : (s.powered f).pwr.extCap = (f s.pwr).extCap := rfl

theorem State.pacing_powered (s : State) (f : Power → Power) : (s.powered f).pwr.pacing = (f s.pwr).pacing := rfl

/-- The input asserted, with the interrupt of COMPUTE's pacing or without it: the pin is shown and the cap has fallen. -/
theorem State.capped_raised {s w : State} (h : w = s.capped.on (fun c => c.raise 6 0) ∨ w = s.capped) :
    w.pwr = s.capped.pwr ∧ w.core.fld Reg.pinState 1 1 = 1 ∧ w.cap = s.capped.cap := by
  obtain ⟨-, -, shown⟩ := s.core.throttled_fields
  rcases h with rfl | rfl
  · refine ⟨rfl, (Core.fld_raise_ne _ _ _ (by decide)).trans shown, ?_⟩
    rw [State.cap_ext rfl, State.cap_ext rfl, State.on_core, Core.capW, Core.fld_raise_ne _ _ _ (by decide), Core.fld_raise_ne _ _ _ (by decide), Core.capW]
  · exact ⟨rfl, shown, rfl⟩

theorem State.capped_clauses {s w : State} (h : w = s.capped.on (fun c => c.raise 6 0) ∨ w = s.capped) {above : Bool} (lies : above = decide (s.capped.pwr.estimate > s.capped.cap)) :
    let u := w.powered (fun p => p.overCap above)
    u.pwr.throttle = true ∧ u.core.fld Reg.pinState 1 1 = 1 ∧ u.cap = min s.core.capW (max 500 (s.core.fld Reg.pwrExt 0 11)) ∧ (u.cap < s.pwr.estimate → u.pwr.pacing = true) := by
  obtain ⟨pwr, shown, cap⟩ := State.capped_raised h
  dsimp only
  rw [State.throttle_powered, State.pacing_powered, State.cap_powered _ _ rfl, State.fld_powered _ _ _ _ (by decide), cap, pwr]
  refine ⟨State.capped_throttle s, shown, s.capped_cap, fun higher => ?_⟩
  rw [Power.overCap, lies, State.capped_estimate, decide_eq_true higher, Bool.or_true]

theorem throttleAssert_clauses {s : State} (free : s.pwr.throttle = false) :
    let u := throttleAssert s
    u.pwr.throttle = true ∧ u.core.fld Reg.pinState 1 1 = 1 ∧ u.cap = min s.core.capW (max 500 (s.core.fld Reg.pwrExt 0 11)) ∧ (u.cap < s.pwr.estimate → u.pwr.pacing = true) := by
  rw [throttleAssert_eq free]
  exact State.capped_clauses (ite_left_or_right _ _ _) rfl

theorem throttleRelease_eq {s : State} (held : s.pwr.throttle = true) :
    throttleRelease s = (s.on (fun c => (c.setBit Reg.pwrExt 16 false).setBit Reg.pinState 1 false)).powered (fun p => { p with throttle := false }) :=
  if_neg (by simp [held])

theorem throttleRelease_clauses {s : State} (held : s.pwr.throttle = true) :
    let u := throttleRelease s
    u.pwr.throttle = false ∧ u.core.fld Reg.pinState 1 1 = 0 ∧ u.pwr.extCap = s.pwr.extCap ∧ u.cap = s.cap := by
  have most : ((s.core.setBit Reg.pwrExt 16 false).setBit Reg.pinState 1 false).capW = s.core.capW := by
    rw [Core.capW, Core.fld_setBit_ne _ _ _ _ _ (by decide), Core.fld_setBit_ne _ _ _ _ _ (by decide), Core.capW]
  have ext : ((s.core.setBit Reg.pwrExt 16 false).setBit Reg.pinState 1 false).fld Reg.pwrExt 0 11 = s.core.fld Reg.pwrExt 0 11 := by
    rw [Core.fld_setBit_ne _ _ _ _ _ (by decide), Core.fld_setBit_other _ _ _ (by decide) (by decide)]
  rw [throttleRelease_eq held]
  dsimp only
  rw [State.throttle_powered, State.extCap_powered, State.cap_powered _ _ rfl, State.fld_powered _ _ _ _ (by decide), State.cap, State.on_core, most, ext, State.on_pwr]
  exact ⟨rfl, Core.fld_setBit_eq _ _ false (by decide), rfl, rfl⟩

theorem thermalTrip_clauses {s : State} (sensor : Nat) {temp : Nat} (hot : 115 ≤ temp) :
    let u := thermalTrip s sensor temp
    u.mgmt.held = true ∧ u.core.fld Reg.bootStatus 0 4 = 15 ∧ u.core.fld Reg.bootStatus 8 8 = 0x50 ∧ u.core.fld Reg.pwrTrip 0 1 = 1 ∧ u.core.fld Reg.pwrTrip 1 7 = sensor % 128
    ∧ u.core.fld Reg.pwrTrip 8 8 = temp % 256 ∧ u.core.mem = s.core.mem := by
  rw [thermalTrip, if_neg (by omega)]
  dsimp only [State.on]
  refine ⟨rfl, ?_, ?_, ?_, ?_, ?_, ?_⟩
  · rw [Core.fld_setFld_other _ _ _ (by decide) (by decide)]
    exact Core.fld_setFld_eq _ _ _ (by decide)
  · exact Core.fld_setFld_eq _ _ _ (by decide)
  · rw [Core.fld_setFld_ne _ _ _ _ _ _ (by decide), Core.fld_setFld_ne _ _ _ _ _ _ (by decide), Core.fld_setReg_ne _ _ _ _ (by decide), Core.fld_setBit_ne _ _ _ _ _ (by decide),
      Core.fld_setFld_other _ _ _ (by decide) (by decide), Core.fld_setFld_other _ _ _ (by decide) (by decide)]
    exact Core.fld_setBit_eq _ _ _ (by decide)
  · rw [Core.fld_setFld_ne _ _ _ _ _ _ (by decide), Core.fld_setFld_ne _ _ _ _ _ _ (by decide), Core.fld_setReg_ne _ _ _ _ (by decide), Core.fld_setBit_ne _ _ _ _ _ (by decide),
      Core.fld_setFld_other _ _ _ (by decide) (by decide)]
    exact Core.fld_setFld_eq _ _ _ (by decide)
  · rw [Core.fld_setFld_ne _ _ _ _ _ _ (by decide), Core.fld_setFld_ne _ _ _ _ _ _ (by decide), Core.fld_setReg_ne _ _ _ _ (by decide), Core.fld_setBit_ne _ _ _ _ _ (by decide)]
    exact Core.fld_setFld_eq _ _ _ (by decide)
  · simp only [Core.setFld_mem, Core.setBit_mem, Core.setReg_mem]

/-! ### The statement -/

theorem Core.droopMv_range (c : Core) : 20 ≤ c.droopMv ∧ c.droopMv ≤ 120 := by
  unfold Core.droopMv
  omega

theorem Core.periods32_long (c : Core) : 32000 ≤ c.periods32 * (600 + 25 * c.fld Reg.pwrFreqNow 0 6) := by
  generalize h : 600 + 25 * c.fld Reg.pwrFreqNow 0 6 = d
  rw [Core.periods32, h, ceilDiv, Nat.mul_comm]
  have := Nat.lt_mul_div_succ (32000 + d - 1) (show 0 < d by omega)
  rw [Nat.mul_add] at this
  omega

theorem next_ifLive {s : State} (live : s.live = true) (f : State → State) :
    (Host.Outcome.next (finish s (s.ifLive f)) : Host.Outcome State Fault Refusal) = .next (finish s (f s)) := congrArg (fun u => Host.Outcome.next (finish s u)) (if_pos live)

theorem next_ifAwake {s : State} (awake : s.awake = true) (f : State → State) :
    (Host.Outcome.next (finish s (s.ifAwake f)) : Host.Outcome State Fault Refusal) = .next (finish s (f s)) := congrArg (fun u => Host.Outcome.next (finish s u)) (if_pos awake)

theorem next_congr {s t u : State} (h : t = u) : (Host.Outcome.next (finish s t) : Host.Outcome State Fault Refusal) = .next (finish s u) := h ▸ rfl

/-- Settles O60: each command is its function of the power state, whose clauses the lemmas above give. -/
theorem thermalAndPins : Obligations.ThermalAndPins := by
  unfold Obligations.ThermalAndPins
  intro s
  refine ⟨fun tj temps live early => (next_ifLive live _).trans (next_congr ?_), fun tj temps live due small => ⟨_, next_ifLive live _, thermalLoop_clauses due small⟩,
    fun q mv awake => ⟨fun enough => (next_ifAwake awake _).trans (next_congr (if_pos enough)), fun droop => ⟨_, next_ifAwake awake _, droopDetect_clauses droop⟩⟩,
    fun q awake => ⟨fun none => (next_ifAwake awake _).trans (next_congr ?_), fun t stretched => ⟨fun early => (next_ifAwake awake _).trans (next_congr ?_), fun late =>
      ⟨s.powered (fun p => { p with stretch := sdel p.stretch q }), (next_ifAwake awake _).trans (next_congr ?_), rfl, fun only => ?_⟩⟩⟩,
    s.core.droopMv_range.1, s.core.droopMv_range.2, s.core.periods32_long, fun awake free => ⟨_, next_ifAwake awake _, throttleAssert_clauses free⟩,
    fun awake held => ⟨_, next_ifAwake awake _, throttleRelease_clauses held⟩,
    fun sensor temp free hot => ⟨_, next_congr (if_neg (by simp [free])), thermalTrip_clauses sensor hot⟩, fun sensor temp cool => next_congr ?_, fun t ends past => ⟨_, next_congr ?_, rfl⟩⟩
  · rw [thermalLoop, early]
    rfl
  · rw [droopEnd, none]
  · rw [droopEnd_eq stretched, if_pos early]
  · rw [droopEnd_eq stretched, if_neg (Nat.not_lt.2 late)]
  · rw [(State.thrNow_powered _ _).2, only]
    simp [sdel, b2n]
  · rw [thermalTrip, if_pos cool, ite_self]
  · rw [pulseEnds, ends]
    exact if_pos past
end Sys2Proof.Machine
end

section
/-! SUPPORT. Power control (R639, R642, R646 to R648, R651, R656, R659, R740): the sharing of the cap, the frequency request, and what each command of it leaves. -/
namespace Sys2Proof.Machine
open Sys2Proof

-- Threads that wait for the kernel keep their stacks, and the check limits the memory of one text.
set_option Elab.async false

/-! ### The sharing of the cap (R642) -/

/-- LINK, MEM and COMPUTE have got no more than they ask for, and together no more than the cap leaves beside BASE, or LINK its floor alone. -/
def Shared (m : PeriodMeasure) (floor cap : Nat) (p : List Nat × Int) : Prop :=
  ∃ x y z, p.1 = [x, y, z] ∧ x ≤ m.link ∧ y ≤ m.mem ∧ z ≤ m.compute ∧ p.2 = (cap : Int) - m.base - (x + y + z : Nat) ∧ (0 ≤ p.2 ∨ x = floor ∧ y = 0 ∧ z = 0)

/-- One domain's turn in the sharing. -/
def shareTurn (m : PeriodMeasure) (p : List Nat × Int) (d : Nat) : List Nat × Int :=
  let extra := min (nth 0 [m.link, m.mem, m.compute] d - nth 0 p.1 d) p.2.toNat
  (setNth p.1 d (nth 0 p.1 d + extra), p.2 - extra)

theorem Shared.turn {m : PeriodMeasure} {floor cap : Nat} {p : List Nat × Int} (h : Shared m floor cap p) {d : Nat} (hd : d < 3) : Shared m floor cap (shareTurn m p d) := by
  obtain ⟨x, y, z, list, hx, hy, hz, left, good⟩ := h
  rw [shareTurn, list]
  generalize hl : p.2 = l at left good ⊢
  obtain rfl | rfl | rfl : d = 0 ∨ d = 1 ∨ d = 2 := by omega
  · exact ⟨x + min (m.link - x) l.toNat, y, z, rfl, by omega, hy, hz, show l - ((min (m.link - x) l.toNat : Nat) : Int) = _ by omega,
      show 0 ≤ l - ((min (m.link - x) l.toNat : Nat) : Int) ∨ _ by omega⟩
  · exact ⟨x, y + min (m.mem - y) l.toNat, z, rfl, hx, by omega, hz, show l - ((min (m.mem - y) l.toNat : Nat) : Int) = _ by omega,
      show 0 ≤ l - ((min (m.mem - y) l.toNat : Nat) : Int) ∨ _ by omega⟩
  · exact ⟨x, y, z + min (m.compute - z) l.toNat, rfl, hx, hy, by omega, show l - ((min (m.compute - z) l.toNat : Nat) : Int) = _ by omega,
      show 0 ≤ l - ((min (m.compute - z) l.toNat : Nat) : Int) ∨ _ by omega⟩

theorem Shared.foldl {m : PeriodMeasure} {floor cap : Nat} (ds : List Nat) (small : ∀ d ∈ ds, d < 3) {p : List Nat × Int} (h : Shared m floor cap p) :
    Shared m floor cap (ds.foldl (shareTurn m) p) :=
  List.foldlRecOn ds (shareTurn m) h fun _ hp d hd => hp.turn (small d hd)

theorem Core.order_lt (c : Core) : ∀ d ∈ c.order, d < 3 := by
  unfold Core.order
  dsimp only
  split
  · decide
  · next legal =>
    intro d hd
    have small : d < 4 := by
      simp only [List.mem_cons, List.not_mem_nil, or_false] at hd
      rcases hd with rfl | rfl | rfl <;> exact c.fld_lt _ _ 2
    have not3 : d ≠ 3 := fun three => legal (Bool.or_eq_true_iff.2 (Or.inl (List.any_eq_true.2 ⟨d, hd, beq_iff_eq.2 three⟩)))
    omega

theorem Core.allocate_shared (c : Core) (cap : Nat) (m : PeriodMeasure) :
    let a := c.allocate cap m
    nth 0 a 0 ≤ m.link ∧ nth 0 a 1 ≤ m.mem ∧ nth 0 a 2 ≤ m.compute
    ∧ m.base + nth 0 a 0 + nth 0 a 1 + nth 0 a 2 ≤ max cap (m.base + min (min 150 (c.fld Reg.pwrOrder 16 8)) m.link) := by
  have start : Shared m (min (min 150 (c.fld Reg.pwrOrder 16 8)) m.link) cap
      ([min (min 150 (c.fld Reg.pwrOrder 16 8)) m.link, 0, 0], (cap : Int) - m.base - (min (min 150 (c.fld Reg.pwrOrder 16 8)) m.link : Nat)) :=
    ⟨_, 0, 0, rfl, Nat.min_le_right _ _, Nat.zero_le _, Nat.zero_le _, rfl, Or.inr ⟨rfl, rfl, rfl⟩⟩
  obtain ⟨x, y, z, list, hx, hy, hz, left, good⟩ := start.foldl c.order c.order_lt
  rw [show c.allocate cap m = [x, y, z] from list]
  exact ⟨hx, hy, hz, show m.base + x + y + z ≤ _ by omega⟩

/-! ### The frequency request and its change -/

theorem State.request_hold {s : State} (draw alloc : Nat) (paced : Bool) (hold : s.core.fld Reg.pwrFreq 8 1 = 1) : (s.request draw alloc paced).1 = s.freqLimit := by
  rw [State.request, if_pos hold]

theorem State.request_cold {s : State} (draw alloc : Nat) (paced : Bool) (free : s.core.fld Reg.pwrFreq 8 1 = 0) (cold : s.core.fld Reg.pwrFreqNow 17 1 = 1) :
    (s.request draw alloc paced).1 = if s.pwr.thermal then min 16 (s.core.fld Reg.pwrFreq 16 6) else 16 := by
  rw [State.request, if_neg (by rw [free]; decide), if_pos cold]
  exact apply_ite Prod.fst ..

/-- What a change of the frequency leaves of the state: memory, the power control's period, and every register but PWR_FREQ_NOW and the power page's interrupts. -/
structure State.Tuned (s t : State) : Prop where
  mem : t.core.mem = s.core.mem
  periodAt : t.pwr.periodAt = s.pwr.periodAt
  extCap : t.pwr.extCap = s.pwr.extCap
  reg (key : Nat) (freq : key ≠ Reg.pwrFreqNow) (irq : key ≠ 6 * 4096 + 0x10) : t.core.reg key = s.core.reg key

theorem State.Tuned.refl (s : State) : s.Tuned s := ⟨rfl, rfl, rfl, fun _ _ _ => rfl⟩

theorem State.Tuned.trans {s t u : State} (h : s.Tuned t) (k : t.Tuned u) : s.Tuned u :=
  ⟨k.mem.trans h.mem, k.periodAt.trans h.periodAt, k.extCap.trans h.extCap, fun key freq irq => (k.reg key freq irq).trans (h.reg key freq irq)⟩

theorem State.Tuned.setVolts (s : State) (mv : Nat) : s.Tuned (s.setVolts mv) := ⟨rfl, rfl, rfl, fun _ _ _ => rfl⟩

/-- Registers other than PWR_FREQ_NOW and the power page's interrupts, and memory, are as they were. -/
def Core.Retuned (c d : Core) : Prop := d.mem = c.mem ∧ ∀ key, key ≠ Reg.pwrFreqNow → key ≠ 6 * 4096 + 0x10 → d.reg key = c.reg key

theorem Core.Retuned.trans {c d e : Core} (h : c.Retuned d) (k : d.Retuned e) : c.Retuned e :=
  ⟨k.1.trans h.1, fun key freq irq => (k.2 key freq irq).trans (h.2 key freq irq)⟩

theorem Core.Retuned.setFld (c : Core) (lo w v : Nat) : c.Retuned (c.setFld Reg.pwrFreqNow lo w v) := ⟨Core.setFld_mem .., fun _ freq _ => Core.reg_setFld_ne _ _ _ _ freq⟩

theorem Core.Retuned.setBit (c : Core) (i : Nat) (b : Bool) : c.Retuned (c.setBit Reg.pwrFreqNow i b) := Core.Retuned.setFld ..

theorem State.Tuned.on {s : State} {f : Core → Core} (h : s.core.Retuned (f s.core)) : s.Tuned (s.on f) := ⟨h.1, rfl, rfl, h.2⟩

theorem State.Tuned.setFreq (s : State) (lo w v : Nat) : s.Tuned (s.on (fun c => c.setFld Reg.pwrFreqNow lo w v)) := State.Tuned.on (Core.Retuned.setFld ..)

theorem State.Tuned.setTwice (s : State) (lo w v i : Nat) (b : Bool) : s.Tuned (s.on (fun c => (c.setFld Reg.pwrFreqNow lo w v).setBit Reg.pwrFreqNow i b)) :=
  State.Tuned.on ((Core.Retuned.setFld ..).trans (Core.Retuned.setBit ..))

theorem State.Tuned.raise (s : State) (i : Nat) : s.Tuned (s.on (fun c => c.raise 6 i)) := State.Tuned.on ⟨Core.raise_mem .., fun _ _ irq => Core.reg_raise_ne _ irq⟩

theorem State.Tuned.onPwr (s : State) (r : Option (Nat × Nat)) : s.Tuned (s.onPwr (fun p => { p with raise := r })) := ⟨rfl, rfl, rfl, fun _ _ _ => rfl⟩

theorem State.Tuned.ite {s t u : State} {p : Prop} [Decidable p] (h : s.Tuned t) (k : s.Tuned u) : s.Tuned (if p then t else u) := by
  split
  · exact h
  · exact k

theorem State.Tuned.raiseVolts (s : State) (req : Nat) : s.Tuned (s.raiseVolts req) := (State.Tuned.setVolts s _).ite (State.Tuned.refl s)

theorem State.Tuned.lowerVolts (s : State) : s.Tuned s.lowerVolts := (State.Tuned.setVolts s _).ite (State.Tuned.refl s)

/-- A step of a raise: the frequency, whether more steps follow, and when the next does. -/
def State.stepFreq (s : State) (f job t : Nat) : State :=
  let more := decide (job < f)
  let s1 := (s.on (fun c => (c.setFld Reg.pwrFreqNow 0 6 job).setBit Reg.pwrFreqNow 16 more)).onPwr (fun p => { p with raise := if more then some (f, t + 1000) else none })
  if more then s1 else s1.lowerVolts

theorem State.Tuned.stepFreq (s : State) (f job t : Nat) : s.Tuned (s.stepFreq f job t) := by
  have moved := (State.Tuned.setTwice s 0 6 job 16 (decide (job < f))).trans (State.Tuned.onPwr _ (if decide (job < f) then some (f, t + 1000) else none))
  exact moved.ite (moved.trans (State.Tuned.lowerVolts _))

theorem State.Tuned.applyFreq (s : State) (f t : Nat) : s.Tuned (s.applyFreq f t) := by
  have decided := State.Tuned.setTwice s 8 6 f 16 false
  have told : s.Tuned _ := decided.ite (p := f = s.core.fld Reg.pwrFreqNow 0 6) (decided.trans (State.Tuned.raise _ 4))
  exact (((told.trans (State.Tuned.setFreq _ 0 6 f)).trans (State.Tuned.onPwr _ none)).trans (State.Tuned.lowerVolts _)).ite (told.trans (State.Tuned.stepFreq _ f _ t))

/-! ### A control period -/

/-- The registers that a control period reports: the measures, the allocations, the request and its cause; the cold start ends after 100 thermal periods, and `alarm` raises the interrupt. -/
def Core.report (c : Core) (m : PeriodMeasure) (a : List Nat) (r : Nat × Nat) (ms : Nat) (alarm : Bool) : Core :=
  let c := (c.setFld Reg.pwrPower 0 11 m.pkg).setFld Reg.pwrPower 16 11 m.base
  let c := ((c.setFld Reg.pwrAlloc 0 10 (nth 0 a 0)).setFld Reg.pwrAlloc 10 10 (nth 0 a 1)).setFld Reg.pwrAlloc 20 10 (nth 0 a 2)
  let c := (c.setFld Reg.pwrFreq 16 6 r.1).setFld Reg.pwrFreq 24 3 r.2
  let c := if ms + 1 ≥ 100 then c.setBit Reg.pwrFreqNow 17 false else c
  if alarm then c.raise 6 0 else c

theorem Core.fld_setBit_if (c : Core) (p : Prop) [Decidable p] (key i : Nat) (b : Bool) {j : Nat} (lo w : Nat) (h : j ≠ key) :
    (if p then c.setBit key i b else c).fld j lo w = c.fld j lo w := by
  split
  · exact c.fld_setBit_ne _ _ _ _ h
  · rfl

theorem Core.report_fields (c : Core) (m : PeriodMeasure) (a : List Nat) (r : Nat × Nat) (ms : Nat) (alarm : Bool) :
    let d := c.report m a r ms alarm
    d.fld Reg.pwrPower 0 11 = m.pkg % 2048 ∧ d.fld Reg.pwrAlloc 0 10 = nth 0 a 0 % 1024 ∧ d.fld Reg.pwrAlloc 10 10 = nth 0 a 1 % 1024 ∧ d.fld Reg.pwrAlloc 20 10 = nth 0 a 2 % 1024
    ∧ d.fld Reg.pwrFreq 16 6 = r.1 % 64 ∧ d.mem = c.mem := by
  have other {key : Nat} (lo w : Nat) (h : key ≠ 6 * 4096 + 0x10) (h' : key ≠ Reg.pwrFreqNow) : (c.report m a r ms alarm).fld key lo w = _ :=
    (Core.fld_raise_if _ _ _ _ _ _ h).trans (Core.fld_setBit_if _ _ _ _ _ _ _ h')
  refine ⟨?_, ?_, ?_, ?_, ?_, ?_⟩
  · rw [other _ _ (by decide) (by decide)]
    iterate 5 rw [Core.fld_setFld_ne _ _ _ _ _ _ (by decide)]
    rw [Core.fld_setFld_other _ _ _ (by decide) (by decide)]
    exact Core.fld_setFld_eq _ _ _ (by decide)
  · rw [other _ _ (by decide) (by decide), Core.fld_setFld_ne _ _ _ _ _ _ (by decide), Core.fld_setFld_ne _ _ _ _ _ _ (by decide), Core.fld_setFld_other _ _ _ (by decide) (by decide),
      Core.fld_setFld_other _ _ _ (by decide) (by decide)]
    exact Core.fld_setFld_eq _ _ _ (by decide)
  · rw [other _ _ (by decide) (by decide), Core.fld_setFld_ne _ _ _ _ _ _ (by decide), Core.fld_setFld_ne _ _ _ _ _ _ (by decide), Core.fld_setFld_other _ _ _ (by decide) (by decide)]
    exact Core.fld_setFld_eq _ _ _ (by decide)
  · rw [other _ _ (by decide) (by decide), Core.fld_setFld_ne _ _ _ _ _ _ (by decide), Core.fld_setFld_ne _ _ _ _ _ _ (by decide)]
    exact Core.fld_setFld_eq _ _ _ (by decide)
  · rw [other _ _ (by decide) (by decide), Core.fld_setFld_other _ _ _ (by decide) (by decide)]
    exact Core.fld_setFld_eq _ _ _ (by decide)
  · rw [Core.report, Core.mem_raise_if, apply_ite Core.mem, Core.setBit_mem, ite_self]
    simp only [Core.setFld_mem]
end Sys2Proof.Machine
end

section
/-! SUPPORT. What a control period, a sample, an estimate, a step of a raise, a waiting start and an array's columns leave (R639 to R659, R740). -/
namespace Sys2Proof.Machine
open Sys2Proof

-- Threads that wait for the kernel keep their stacks, and the check limits the memory of one text.
set_option Elab.async false

/-! ### A control period -/

/-- A control period begins: the throttle input acts on the cap. -/
def State.periodStart (s : State) : State :=
  let s0 := s.onPwr (fun p => { p with extCap := p.throttle, periodAt := s.core.ct })
  { s0 with core := s0.core.fresh.1 }

theorem State.periodStart_core (s : State) : s.periodStart.core = { s.core with free := s.core.free + 1 } := rfl

theorem State.periodStart_pwr (s : State) : s.periodStart.pwr = { s.pwr with extCap := s.pwr.throttle, periodAt := s.core.ct } := rfl

theorem State.periodStart_fld (s : State) (key lo w : Nat) : s.periodStart.core.fld key lo w = s.core.fld key lo w := by rw [State.periodStart_core]; rfl

theorem State.periodStart_limit (s : State) : s.periodStart.freqLimit = s.freqLimit := by
  rw [State.freqLimit, State.periodStart_fld, State.freqLimit]
  rfl

theorem State.periodStart_cap (s : State) : s.periodStart.cap = if s.pwr.throttle then min s.core.capW (max 500 (s.core.fld Reg.pwrExt 0 11)) else s.core.capW := by
  rw [State.cap, Core.capW, State.periodStart_fld, State.periodStart_fld, State.periodStart_pwr, Core.capW]

theorem State.periodStart_allocate (s : State) (cap : Nat) (m : PeriodMeasure) : s.periodStart.core.allocate cap m = s.core.allocate cap m := by
  simp only [Core.allocate, Core.order, State.periodStart_fld]

theorem State.Tuned.fld {s t : State} (h : s.Tuned t) {key : Nat} (lo w : Nat) (freq : key ≠ Reg.pwrFreqNow) (irq : key ≠ 6 * 4096 + 0x10) :
    t.core.fld key lo w = s.core.fld key lo w := by rw [Core.fld, Core.fld, h.reg key freq irq]

/-- The power state of a control period. -/
def Power.planned (p : Power) (pacing : Bool) (a : List Nat) (paced : Bool) (fits : List Nat) : Power :=
  { p with pacing := pacing, alloc := a, paced := paced, thermalMs := p.thermalMs + 1, fits := fits, capBefore := p.capNow, capNow := pacing || p.short }

/-- Whether a domain asks for more than an allocation gives it. -/
def asksMore (m : PeriodMeasure) (a : List Nat) : Bool := decide (m.link > nth 0 a 0) || decide (m.mem > nth 0 a 1) || decide (m.compute > nth 0 a 2)

/-- A control period with its allocation `a` and its request `r` reported. -/
def State.planPeriod (s : State) (m : PeriodMeasure) (a : List Nat) (r : Nat × Nat) : State :=
  (s.periodStart.on (fun c => c.report m a r s.pwr.thermalMs ((asksMore m a || s.pwr.short) && !s.pwr.capNow))).powered
    (fun p => p.planned (asksMore m a) a m.paced (s.periodStart.fits s.core.free (nth 0 s.pwr.alloc 2)))

/-- The frequency that a device without a job decides on. -/
def State.decideFreq (s : State) (req : Nat) : State :=
  let own := if s.core.fld Reg.pwrFreqNow 17 1 = 1 then 16 else req
  if !s.core.inJob && !s.running && own != s.core.fld Reg.pwrFreqNow 8 6 then (s.raiseVolts own).applyFreq own s.core.ct else s

theorem controlPeriod_eq {s : State} {m : PeriodMeasure} (due : s.pwr.periodAt / 1000000 < s.core.ct / 1000000) :
    let r := s.periodStart.request s.core.free (nth 0 s.pwr.alloc 2) m.paced
    controlPeriod s m = (s.planPeriod m (s.periodStart.core.allocate s.periodStart.cap m) r).decideFreq r.1 := by
  rw [controlPeriod, if_neg (Nat.not_le.2 due)]
  rfl

theorem State.Tuned.decideFreq (s : State) (req : Nat) : s.Tuned (s.decideFreq req) :=
  ((State.Tuned.raiseVolts _ _).trans (State.Tuned.applyFreq _ _ _)).ite (State.Tuned.refl _)

theorem State.powered_pwr (s : State) (f : Power → Power) : (s.powered f).pwr = { f s.pwr with reasonNs := s.reasonNs, reasonAt := s.core.up } := rfl

theorem State.periodAt_powered (s : State) (f : Power → Power) : (s.powered f).pwr.periodAt = (f s.pwr).periodAt := rfl

theorem controlPeriod_clauses {s : State} {m : PeriodMeasure} (due : s.pwr.periodAt / 1000000 < s.core.ct / 1000000) :
    let cap := if s.pwr.throttle then min s.core.capW (max 500 (s.core.fld Reg.pwrExt 0 11)) else s.core.capW
    let a := s.core.allocate cap m
    let u := controlPeriod s m
    u.pwr.periodAt = s.core.ct ∧ u.pwr.extCap = s.pwr.throttle ∧ u.core.fld Reg.pwrPower 0 11 = m.pkg % 2048
    ∧ u.core.fld Reg.pwrAlloc 0 10 = nth 0 a 0 % 1024 ∧ u.core.fld Reg.pwrAlloc 10 10 = nth 0 a 1 % 1024 ∧ u.core.fld Reg.pwrAlloc 20 10 = nth 0 a 2 % 1024
    ∧ (s.core.fld Reg.pwrFreq 8 1 = 1 → u.core.fld Reg.pwrFreq 16 6 = s.freqLimit)
    ∧ (s.core.fld Reg.pwrFreq 8 1 = 0 → s.core.fld Reg.pwrFreqNow 17 1 = 1 →
        u.core.fld Reg.pwrFreq 16 6 = if s.pwr.thermal then min 16 (s.core.fld Reg.pwrFreq 16 6) else 16) ∧ u.core.mem = s.core.mem := by
  dsimp only
  rw [controlPeriod_eq due, State.periodStart_allocate, State.periodStart_cap]
  generalize hr : s.periodStart.request s.core.free (nth 0 s.pwr.alloc 2) m.paced = r
  generalize s.core.allocate _ m = a
  have tuned := State.Tuned.decideFreq (s.planPeriod m a r) r.1
  obtain ⟨pkg, link, mem_, compute, freq, mem⟩ := s.periodStart.core.report_fields m a r s.pwr.thermalMs ((asksMore m a || s.pwr.short) && !s.pwr.capNow)
  have shown {key : Nat} (lo w : Nat) (free : key ≠ Reg.pwrFreqNow) (irq : key ≠ 6 * 4096 + 0x10) (now : key ≠ Reg.pwrThrNow) :
      ((s.planPeriod m a r).decideFreq r.1).core.fld key lo w = _ := (tuned.fld lo w free irq).trans (State.fld_powered _ _ lo w now)
  have request : ((s.planPeriod m a r).decideFreq r.1).core.fld Reg.pwrFreq 16 6 = r.1 % 64 := (shown _ _ (by decide) (by decide) (by decide)).trans freq
  refine ⟨?_, ?_, (shown _ _ (by decide) (by decide) (by decide)).trans pkg, (shown _ _ (by decide) (by decide) (by decide)).trans link,
    (shown _ _ (by decide) (by decide) (by decide)).trans mem_, (shown _ _ (by decide) (by decide) (by decide)).trans compute, fun hold => ?_, fun free cold => ?_,
    tuned.mem.trans ((State.mem_powered _ _).trans mem)⟩
  · rw [tuned.periodAt, State.planPeriod, State.periodAt_powered, State.on_pwr, State.periodStart_pwr]
    rfl
  · rw [tuned.extCap, State.planPeriod, State.extCap_powered, State.on_pwr, State.periodStart_pwr]
    rfl
  · rw [request, ← hr, State.request_hold _ _ _ ((s.periodStart_fld _ _ _).trans hold), State.periodStart_limit]
    have limit : s.freqLimit ≤ 32 := Nat.le_trans (Nat.min_le_left _ _) (Nat.min_le_left _ _)
    omega
  · rw [request, ← hr, State.request_cold _ _ _ ((s.periodStart_fld _ _ _).trans free) ((s.periodStart_fld _ _ _).trans cold), State.periodStart_fld, State.periodStart_pwr]
    dsimp only
    split <;> omega

/-! ### Samples and estimates -/

theorem nth_map_upto {α : Type} (d : α) (f : Nat → α) {n r : Nat} (h : r < n) : nth d ((upto n).map f) r = f r := by
  simp [nth, upto, h]

/-- The power of a rail after AVSBus answers, `lost` the rails whose regulator is lost. -/
def State.railWatts (s : State) (watts : List (Nat × Nat)) (lost : List Nat) (r : Nat) : Nat :=
  if lost.contains r then (s.core.fresh.2 + r) % 2048 * 11 / 10 else match watts.find? (fun w => w.1 == r) with | some w => w.2 | none => nth 0 s.pwr.rails r

theorem avsSample_rails (s : State) (watts : List (Nat × Nat)) :
    (avsSample s watts).pwr.rails = (upto 11).map (s.railWatts watts (s.pwr.avsLost.filter (fun r => !watts.any (fun w => w.1 == r)))) := rfl

theorem avsSample_clauses (s : State) (watts : List (Nat × Nat)) :
    let u := avsSample s watts
    u.pwr.estimate = u.pwr.rails.foldl (· + ·) 15
    ∧ (∀ r w, r < 11 → watts.find? (fun x => x.1 == r) = some w → nth 0 u.pwr.rails r = w.2 ∧ r ∉ u.pwr.avsLost) ∧ u.core.regs = s.core.regs := by
  refine ⟨rfl, fun r w small answered => ?_, rfl⟩
  have named : watts.any (fun x => x.1 == r) = true := List.any_eq_true.2 ⟨w, List.mem_of_find?_eq_some answered, List.find?_some (p := fun x : Nat × Nat => x.1 == r) answered⟩
  have back : r ∉ s.pwr.avsLost.filter (fun r => !watts.any (fun w => w.1 == r)) := fun mem => by
    rw [List.mem_filter, named] at mem
    exact Bool.false_ne_true mem.2
  refine ⟨?_, back⟩
  rw [avsSample_rails, nth_map_upto 0 _ small, State.railWatts, if_neg (mt List.contains_iff_mem.1 back), answered]

theorem avsTimeout_clauses (s : State) (rail : Nat) :
    let u := avsTimeout s rail
    rail ∈ u.pwr.avsLost ∧ (u.core.reg 0x3010).testBit 1 = true ∧ u.core.mem = s.core.mem :=
  ⟨mem_insN, by rw [show (avsTimeout s rail).core = s.core.raise 3 1 from rfl, show (0x3010 : Nat) = 3 * 4096 + 0x10 from rfl, Core.testBit_raise _ _ (by decide) (by decide)]; rfl,
    Core.raise_mem ..⟩

/-- The power state after an estimate. -/
def Power.estimated (p : Power) (s : State) (watts : Nat) : Power :=
  let high := decide (watts > 1650)
  let since := s.pwr.overAt.getD s.core.up
  let long := high && decide (s.core.up ≥ since + 20000)
  let short := decide (watts > 2000) || long || (high && decide (s.core.up < s.pwr.under))
  let overNow := decide (s.pwr.periodAt ≠ 0) && decide (watts > s.core.fld Reg.pwrPower 16 11 + s.pwr.alloc.foldl (· + ·) 0) || s.pwr.extCap && decide (watts > s.cap)
  { p with capNow := p.capNow || short || overNow, pacing := p.pacing || overNow, estimate := watts, short := short, overAt := if high then some since else none,
           under := if p.overAt.isSome && !high then s.core.up + 80000 else p.under }

theorem powerEstimate_eq (s : State) (watts : Nat) : ∃ w, (w = s.on (fun c => c.raise 6 0) ∨ w = s) ∧ powerEstimate s watts = w.powered (fun p => p.estimated s watts) :=
  ⟨_, ite_left_or_right _ _ _, rfl⟩

theorem Power.estimated_short (p : Power) (s : State) {watts : Nat} (high : 2000 < watts ∨ 1650 < watts ∧ ∃ t, s.pwr.overAt = some t ∧ t + 20000 ≤ s.core.up) :
    (p.estimated s watts).short = true := by
  show (decide (watts > 2000) || (decide (watts > 1650) && decide (s.core.up ≥ s.pwr.overAt.getD s.core.up + 20000)) || _) = true
  rcases high with high | ⟨high, t, since, long⟩
  · rw [decide_eq_true high, Bool.true_or, Bool.true_or]
  · rw [since, Option.getD_some, decide_eq_true (show watts > 1650 from high), decide_eq_true (show s.core.up ≥ t + 20000 from long), Bool.and_true, Bool.or_true, Bool.true_or]

theorem Power.estimated_low (p : Power) (s : State) {watts : Nat} (low : watts ≤ 1650) : (p.estimated s watts).short = false ∧ (p.estimated s watts).overAt = none := by
  refine ⟨?_, ?_⟩
  · show (decide (watts > 2000) || (decide (watts > 1650) && _) || (decide (watts > 1650) && _)) = false
    rw [decide_eq_false (show ¬watts > 2000 by omega), decide_eq_false (show ¬watts > 1650 by omega), Bool.false_and, Bool.false_and, Bool.or_false, Bool.or_false]
  · show (if decide (watts > 1650) then _ else none) = none
    rw [decide_eq_false (show ¬watts > 1650 by omega)]
    exact if_neg Bool.false_ne_true

theorem Power.estimated_paced (p : Power) (s : State) {watts : Nat} (begun : s.pwr.periodAt ≠ 0) (high : s.core.fld Reg.pwrPower 16 11 + s.pwr.alloc.sum < watts) :
    (p.estimated s watts).pacing = true := by
  show (p.pacing || (decide (s.pwr.periodAt ≠ 0) && decide (watts > s.core.fld Reg.pwrPower 16 11 + s.pwr.alloc.foldl (· + ·) 0) || _)) = true
  rw [← List.sum_eq_foldl, decide_eq_true begun, decide_eq_true (show watts > s.core.fld Reg.pwrPower 16 11 + s.pwr.alloc.sum from high), Bool.and_true, Bool.true_or, Bool.or_true]

theorem powerEstimate_clauses (s : State) (watts : Nat) :
    let u := powerEstimate s watts
    u.pwr.estimate = watts
    ∧ (2000 < watts ∨ 1650 < watts ∧ (∃ t, s.pwr.overAt = some t ∧ t + 20000 ≤ s.core.up) → u.pwr.short = true ∧ u.core.fld Reg.pwrThrNow 0 1 = 1)
    ∧ (watts ≤ 1650 → u.pwr.short = false ∧ u.pwr.overAt = none)
    ∧ (s.pwr.periodAt ≠ 0 → s.core.fld Reg.pwrPower 16 11 + s.pwr.alloc.sum < watts → u.pwr.pacing = true ∧ u.core.fld Reg.pwrThrNow 0 1 = 1) ∧ u.core.mem = s.core.mem := by
  obtain ⟨w, either, run⟩ := powerEstimate_eq s watts
  have mem : w.core.mem = s.core.mem := by
    rcases either with rfl | rfl
    · exact Core.raise_mem ..
    · rfl
  have shown := (w.thrNow_powered (fun p => p.estimated s watts)).1
  dsimp only
  rw [run, State.powered_pwr]
  refine ⟨rfl, fun high => ?_, fun low => w.pwr.estimated_low s low, fun begun high => ?_, (State.mem_powered _ _).trans mem⟩
  · have short := w.pwr.estimated_short s high
    exact ⟨short, by rw [shown, short, Bool.or_true]; rfl⟩
  · have pacing := w.pwr.estimated_paced s begun high
    exact ⟨pacing, by rw [shown, pacing, Bool.true_or]; rfl⟩

/-! ### Steps of a raise, waiting starts, columns -/

theorem freqStep_eq {s : State} {f t : Nat} (raise : s.pwr.raise = some (f, t)) :
    freqStep s = if s.core.ct < t then s else s.stepFreq f (s.core.fld Reg.pwrFreqNow 0 6 + 1) t := by
  rw [freqStep, raise]
  rfl

theorem State.lowerVolts_keeps (s : State) : s.lowerVolts.core.regs = s.core.regs ∧ s.lowerVolts.pwr.raise = s.pwr.raise := by
  unfold State.lowerVolts
  dsimp only
  split <;> exact ⟨rfl, rfl⟩

/-- A frequency step, before the voltage follows. -/
def State.freqMoved (s : State) (f job t : Nat) : State :=
  (s.on (fun c => (c.setFld Reg.pwrFreqNow 0 6 job).setBit Reg.pwrFreqNow 16 (decide (job < f)))).onPwr (fun p => { p with raise := if decide (job < f) then some (f, t + 1000) else none })

theorem State.stepFreq_keeps (s : State) (f job t : Nat) :
    (s.stepFreq f job t).core.regs = (s.freqMoved f job t).core.regs ∧ (s.stepFreq f job t).pwr.raise = (s.freqMoved f job t).pwr.raise := by
  rcases ite_left_or_right (decide (job < f) = true) (s.freqMoved f job t) (s.freqMoved f job t).lowerVolts with h | h
  · rw [show s.stepFreq f job t = s.freqMoved f job t from h]
    exact ⟨rfl, rfl⟩
  · rw [show s.stepFreq f job t = (s.freqMoved f job t).lowerVolts from h]
    exact State.lowerVolts_keeps _

theorem Core.fld_of_regs {c d : Core} (h : c.regs = d.regs) (key lo w : Nat) : c.fld key lo w = d.fld key lo w := by
  rw [Core.fld, Core.fld, Core.reg, Core.reg, h]

theorem State.stepFreq_clauses (s : State) (f job t : Nat) :
    (s.stepFreq f job t).core.fld Reg.pwrFreqNow 0 6 = job % 64 ∧ (s.stepFreq f job t).pwr.raise = if job < f then some (f, t + 1000) else none := by
  obtain ⟨regs, raise⟩ := s.stepFreq_keeps f job t
  refine ⟨?_, raise.trans ?_⟩
  · rw [Core.fld_of_regs regs]
    exact (Core.fld_setBit_other _ _ _ (by decide) (by decide)).trans (Core.fld_setFld_eq _ _ _ (by decide))
  · show (if decide (job < f) = true then _ else _) = _
    simp only [decide_eq_true_eq]

theorem State.takeCharge_ramp (s : State) (u : Nat) :
    (s.takeCharge u).pwr.ramp = { s.pwr.ramp with level := s.rampLevel - s.core.charge u, since := s.core.up, admitted := insN s.pwr.ramp.admitted u } := by
  unfold State.takeCharge State.openColumns
  split <;> rfl

theorem rampAdmit_clauses {s : State} {r : RampReq} {rest : List RampReq} (waiting : s.pwr.ramp.waiting = r :: rest) (holds : s.rampHolds r.unit = true) :
    let u := rampAdmit s
    u.pwr.ramp.waiting = rest ∧ r.unit ∈ u.pwr.ramp.admitted ∧ u.pwr.ramp.level = s.rampLevel - s.core.charge r.unit := by
  have run : rampAdmit s = (s.takeCharge r.unit).powered (fun p => { p with ramp := { p.ramp with waiting := rest } }) := by
    rw [rampAdmit, waiting]
    exact if_pos holds
  dsimp only
  rw [run, State.powered_pwr, State.takeCharge_ramp]
  exact ⟨rfl, mem_insN, rfl⟩

theorem sget_sput_eq {α : Type} (d : α) (m : SMap α) (i : Nat) (v : α) : sget d (sput m i v) i = v := by rw [sget_eq, sfind_sput_eq, Option.getD_some]

theorem columnEnable_clauses {s : State} {q n t : Nat} (columns : sget (0, 0) s.pwr.columns q = (n, t)) (past : t + 500 ≤ s.core.up) :
    let u := columnEnable s q
    (s.idleUnit (unitArray q) = false → 0 < n → n < 8 → sget (0, 0) u.pwr.columns q = (n + 1, s.core.up))
    ∧ (s.idleUnit (unitArray q) = true → unitArray q ∉ s.pwr.ramp.admitted → 1 < n → sget (0, 0) u.pwr.columns q = (n - 1, s.core.up)) ∧ u.core = s.core := by
  have run : columnEnable s q = if s.idleUnit (unitArray q) && !s.pwr.ramp.admitted.contains (unitArray q) then
      if n = 0 then s else s.onPwr (fun p => { p with columns := sset (0, 0) p.columns q (if n = 1 then (0, 0) else (n - 1, s.core.up)) })
    else if 0 < n ∧ n < 8 then s.onPwr (fun p => { p with columns := sput p.columns q (n + 1, s.core.up) }) else s := by
    rw [columnEnable, columns]
    exact if_neg (Nat.not_lt.2 past)
  dsimp only
  rw [run]
  refine ⟨fun busy some more => ?_, fun idle out many => ?_, ?_⟩
  · rw [busy, Bool.false_and, if_neg Bool.false_ne_true, if_pos ⟨some, more⟩]
    exact sget_sput_eq _ _ _ _
  · have free : s.pwr.ramp.admitted.contains (unitArray q) = false := Bool.eq_false_iff.2 (mt List.contains_iff_mem.1 out)
    rw [idle, free, Bool.not_false, Bool.and_true, if_pos rfl, if_neg (by omega), if_neg (by omega)]
    exact sget_sset_eq _ _ _ _
  · split
    · split <;> rfl
    · split <;> rfl

/-- Settles O59: each command is its function of the power state, whose clauses the lemmas above give. -/
theorem powerControl : Obligations.PowerControl := by
  unfold Obligations.PowerControl
  intro s live
  refine ⟨fun m early => (next_ifLive live _).trans (next_congr (if_pos early)), fun m due => ⟨⟨_, next_ifLive live _, controlPeriod_clauses due⟩, s.core.allocate_shared _ m⟩,
    fun watts => ⟨_, next_ifLive live _, avsSample_clauses s watts⟩, fun rail => ⟨_, next_ifLive live _, avsTimeout_clauses s rail⟩,
    fun watts => ⟨_, next_ifLive live _, powerEstimate_clauses s watts⟩,
    fun f t raise => ⟨fun early => (next_ifLive live _).trans (next_congr ?_), fun past => ⟨_, (next_ifLive live _).trans (next_congr ?_), s.stepFreq_clauses f _ t⟩⟩,
    fun r rest waiting holds => ⟨_, next_ifLive live _, rampAdmit_clauses waiting holds⟩, fun r rest waiting lacks => (next_ifLive live _).trans (next_congr ?_),
    fun q n t columns past => ⟨_, next_ifLive live _, columnEnable_clauses columns past⟩⟩
  · rw [freqStep_eq raise, if_pos early]
  · rw [freqStep_eq raise, if_neg (Nat.not_lt.2 past)]
  · rw [rampAdmit, waiting]
    exact if_neg (by rw [lacks]; exact Bool.false_ne_true)
end Sys2Proof.Machine
end

section
/-!
SUPPORT. What reads and writes of local memory leave of the rest: the links, the job, the messages and every register outside the memory pages. One lemma per operation, in the
order of the model's files; each goes from `Steady q c d` to `Steady q c` of the operation on `d`.
-/
namespace Sys2Proof.Machine
open Sys2Proof

-- Threads that wait for the kernel keep their stacks, and the check limits the memory of one text.
set_option Elab.async false

/-- Registers that accesses to memory leave alone: those of the device pages but the job page's interrupts, and those of the Seif pages. -/
def Lasting (key : Nat) : Prop := key < 2 ^ 20 ∧ key ≠ 0x7010 ∨ key / 4096 % 32 = 8

/-- From `c` to `d` the links, the job's state, the messages and the lasting registers stay, and with `q` the mirror queue. -/
structure Steady (q : Bool) (c d : Core) : Prop where
  seif : d.seif = c.seif
  job : d.job = c.job
  out : d.out = c.out
  wire : d.wire = c.wire
  queue : q = true → d.mirrorQ = c.mirrorQ
  reg (key : Nat) (h : Lasting key) : d.reg key = c.reg key

namespace Steady
variable {q : Bool} {c d e : Core}

theorem refl (c : Core) : Steady q c c := ⟨rfl, rfl, rfl, rfl, fun _ => rfl, fun _ _ => rfl⟩

theorem trans (h : Steady q c d) (k : Steady q d e) : Steady q c e :=
  ⟨k.seif.trans h.seif, k.job.trans h.job, k.out.trans h.out, k.wire.trans h.wire, fun hq => (k.queue hq).trans (h.queue hq), fun key l => (k.reg key l).trans (h.reg key l)⟩

theorem fld (h : Steady q c d) {key : Nat} (l : Lasting key) (lo w : Nat) : d.fld key lo w = c.fld key lo w := by rw [Core.fld, Core.fld, h.reg key l]

/-- What the relation looks at stays: the rest of the machine is free. -/
theorem same (h : Steady q c d) (seif : e.seif = d.seif := by rfl) (job : e.job = d.job := by rfl) (out : e.out = d.out := by rfl) (wire : e.wire = d.wire := by rfl)
    (queue : e.mirrorQ = d.mirrorQ := by rfl) (regs : e.regs = d.regs := by rfl) : Steady q c e :=
  h.trans ⟨seif, job, out, wire, fun _ => queue, fun key _ => by rw [Core.reg, Core.reg, regs]⟩

theorem ite {p : Prop} [Decidable p] (h : Steady q c d) (k : Steady q c e) : Steady q c (if p then d else e) := by
  split
  · exact h
  · exact k

theorem foldl {α : Type} {f : Core → α → Core} (step : ∀ {d} a, Steady q c d → Steady q c (f d a)) {l : List α} (h : Steady q c d) : Steady q c (l.foldl f d) :=
  List.foldlRecOn l f h fun _ hd a _ => step a hd

theorem foldl_fst {α β : Type} {f : Core × β → α → Core × β} (step : ∀ {p : Core × β} a, Steady q c p.1 → Steady q c (f p a).1) {l : List α} {p : Core × β}
    (h : Steady q c p.1) : Steady q c (l.foldl f p).1 :=
  List.foldlRecOn (motive := fun p : Core × β => Steady q c p.1) l f h fun _ hp a _ => step a hp

/-! ### Registers -/

theorem setReg (h : Steady q c d) {key v : Nat} (k : ¬Lasting key) : Steady q c (d.setReg key v) :=
  h.trans ⟨rfl, rfl, rfl, rfl, fun _ => rfl, fun j l => d.reg_setReg_ne key v j fun e => k (e ▸ l)⟩

theorem setFld (h : Steady q c d) {key lo w v : Nat} (k : ¬Lasting key) : Steady q c (d.setFld key lo w v) := h.setReg k
theorem incFld (h : Steady q c d) {key lo w n : Nat} (k : ¬Lasting key) : Steady q c (d.incFld key lo w n) := h.setReg k
theorem inc (h : Steady q c d) {key n : Nat} (k : ¬Lasting key) : Steady q c (d.inc key n) := h.setReg k
theorem inc64 (h : Steady q c d) {lo n : Nat} (k : ¬Lasting lo) (k' : ¬Lasting (lo + 4)) : Steady q c (d.inc64 lo n) := (h.setReg k).setReg k'

end Steady

/-- A register of a quarter's page, but the Seif page. -/
theorem not_lasting_qreg (x r b o : Nat) (hb : b < 32) (seif : b ≠ 8) (ho : o < 4096) : ¬Lasting (bankKey x (qreg r b o)) := by
  unfold Lasting bankKey qreg
  omega

theorem not_lasting_ecc (x r o : Nat) (ho : o < 4096 := by decide) : ¬Lasting (bankKey x (qreg r 7 o)) := not_lasting_qreg x r 7 o (by decide) (by decide) ho

theorem not_lasting_page (r b o : Nat) (hb : b < 32) (seif : b ≠ 8) (ho : o < 4096) : ¬Lasting (qreg r b o) := by
  unfold Lasting qreg
  omega

theorem not_lasting_journal : ¬Lasting (7 * 4096 + 0x10) := by
  unfold Lasting
  decide

theorem not_lasting_irq (r b : Nat) (hb : b < 32) (seif : b ≠ 8) : ¬Lasting (qpage r b * 4096 + 0x10) := not_lasting_page r b 0x10 hb seif (by decide)

namespace Steady
variable {q : Bool} {c d e : Core}

theorem raiseEcc (h : Steady q c d) {r i : Nat} : Steady q c (d.raise (qpage r 7) i) := h.setReg (not_lasting_irq r 7 (by decide) (by decide))
theorem raiseErg (h : Steady q c d) {r i : Nat} : Steady q c (d.raise (qpage r 5) i) := h.setReg (not_lasting_irq r 5 (by decide) (by decide))

/-! ### The code (ch. 14) -/

theorem putErg (h : Steady q c d) {a : Nat} {bs : List Byte} : Steady q c (d.putErg a bs) := h.same
theorem log (h : Steady q c d) {r : Nat} {x : LogRec} : Steady q c (d.log r x) := (h.setReg (not_lasting_page r 7 _ (by decide) (by decide) (by decide))).putErg
theorem setUnit (h : Steady q c d) {r u : Nat} {x : UnitSt} : Steady q c (d.setUnit r u x) := h.same
theorem schedRetrain (h : Steady q c d) {chan : Nat} : Steady q c (d.schedRetrain chan) := h.ite h.same

theorem bucket (h : Steady q c d) {r u : Nat} {x : LogRec} : Steady q c (d.bucket r u x) := by
  have full : Steady q c ((d.setFld (bankKey u (Reg.eccLevel r)) 0 16 0).incFld (bankKey u (Reg.eccLevel r)) 16 16 1) :=
    (h.setFld (not_lasting_ecc u r _)).incFld (not_lasting_ecc u r _)
  unfold Core.bucket
  exact Steady.ite (Steady.ite full.log.raiseEcc.schedRetrain full.log.raiseEcc) (h.setFld (not_lasting_ecc u r _))

theorem failRow (h : Steady q c d) {chan bank row : Nat} : Steady q c (d.failRow chan bank row) := h.ite h.same

theorem noteHistory (h : Steady q c d) {r u w bank row : Nat} : Steady q c (d.noteHistory r u w bank row) := by
  unfold Core.noteHistory
  exact h.setUnit.failRow.ite h.setUnit

theorem log_if (h : Steady q c d) {p : Prop} [Decidable p] {r r' u : Nat} {x : LogRec} {y : UnitSt} : Steady q c (if p then (d.log r x).setUnit r' u y else d) :=
  h.log.setUnit.ite h

theorem note_if (h : Steady q c d) {p : Prop} [Decidable p] {r u w bank row : Nat} : Steady q c (if p then d.noteHistory r u w bank row else d) := h.noteHistory.ite h

theorem queue_if (h : Steady q c d) {p : Prop} [Decidable p] {ws : List Nat} : Steady q c (if p then d else { d with corrections := ws }) := h.ite h.same

theorem corrected (h : Steady q c d) {acc : Acc} {a : Nat} {e : BitVec 80} {b0 b1 : Nat} : Steady q c (d.corrected acc a e b0 b1) := by
  have counted : Steady q c (d.inc (bankKey (unitOf d a).2 (Reg.eccCe (unitOf d a).1)) 1) := h.inc (not_lasting_ecc _ _ _)
  exact queue_if (note_if (bucket (log_if counted)))

theorem countUe (h : Steady q c d) {acc : Acc} {a : Nat} {e : BitVec 80} : Steady q c (d.countUe acc a e) := by
  have counted : Steady q c (d.inc (bankKey (unitOf d a).2 (Reg.eccUe (unitOf d a).1)) 1) := h.inc (not_lasting_ecc _ _ _)
  unfold Core.countUe
  dsimp only
  generalize hx : Core.log _ _ _ = x
  have logged : Steady q c x := hx ▸ counted.raiseEcc.log
  exact Steady.ite (logged.same (e := { x with ueFound := _, ownUe := _ })).failRow logged.same

theorem flip (h : Steady q c d) {a x : Nat} {cached : Bool} : Steady q c (d.flip a x cached) := by
  unfold Core.flip
  dsimp only
  split
  · split
    · exact h.same
    · exact h.same
  · exact h.same

theorem poisonBlock (h : Steady q c d) {a : Nat} : Steady q c (d.poisonBlock a) := by
  unfold Core.poisonBlock
  split
  · exact h.same
  · exact h.same

theorem checkWord (h : Steady q c d) {acc : Acc} {a : Nat} : Steady q c (d.checkWord acc a).1 := by
  unfold Core.checkWord
  dsimp only
  split
  · exact h
  · split
    · exact h.flip.same
    · exact h.flip.corrected.same
    · exact h.flip.countUe.same

theorem withErrs (h : Steady q c d) {es : SMap (BitVec 80)} : Steady q c { d with errs := es } := h.same
theorem withMem (h : Steady q c d) {m : List Host.Cell} : Steady q c { d with mem := m } := h.same

theorem mergedWord (h : Steady q c d) {m : List Host.Cell} {es : SMap (BitVec 80)} {ws : List Nat} : Steady q c { d with mem := m, errs := es, corrections := ws } := h.same

theorem checkCells (h : Steady q c d) {acc : Acc} {a words : Nat} : Steady q c (d.checkCells acc a words).1 := by
  refine foldl_fst (fun _ hp => ?_) h
  dsimp only
  split
  · exact withErrs (poisonBlock (foldl (fun _ hd => hd.checkWord) hp.checkWord))
  · exact hp.checkWord

/-! ### Reads (ch. 13) -/

theorem checkHeld (h : Steady q c d) {acc : Acc} {a : Nat} : Steady q c (d.checkHeld acc a).1 := by
  unfold Core.checkHeld
  split
  · exact h
  · split
    · exact h.checkCells
    · exact h

theorem freshHeld (h : Steady q c d) {a words : Nat} : Steady q c (d.freshHeld a words) := by
  unfold Core.freshHeld
  split
  · exact h
  · split
    · exact h.same
    · exact h

theorem spillPoison (h : Steady q c d) {b n : Nat} : Steady q c (d.spillPoison b n) := h.ite (h.same.ite (h.same.ite h))

theorem spillSector (h : Steady q c d) {tag i : Nat} : Steady q c (d.spillSector tag i) := h.same

theorem spillLine (h : Steady q c d) {l : Line} : Steady q c (d.spillLine l) := by
  refine h.ite (h.ite ?_)
  refine inc (foldl (fun _ hd => hd.spillPoison) (foldl (fun _ hd => hd.checkHeld.spillSector.ite hd) h)) (not_lasting_page _ 5 _ (by decide) (by decide) (by decide))

theorem writeBack (h : Steady q c d) {l : Line} : Steady q c (d.writeBack l) := h.same.ite h.spillLine

theorem evict (h : Steady q c d) {l : Line} : Steady q c (d.evict l) := h.writeBack.same

theorem makeRoom (h : Steady q c d) {r tag : Nat} : Steady q c (d.makeRoom r tag) := by
  unfold Core.makeRoom
  dsimp only
  split
  · exact h
  · split
    · exact h
    · split
      · exact h.evict
      · exact h.same

theorem useLine (h : Steady q c d) {r a : Nat} {f : Line → Line} : Steady q c (d.useLine r a f) := by
  unfold Core.useLine
  dsimp only
  split
  · exact h.same
  · exact h.makeRoom.same

theorem applyHint (h : Steady q c d) {r a hint uses : Nat} : Steady q c (d.applyHint r a hint uses) :=
  h.ite (((h.incFld (not_lasting_page _ 5 _ (by decide) (by decide) (by decide))).raiseErg).ite h.useLine)

theorem inc64Quarter (h : Steady q c d) {r n : Nat} (b o : Nat) (hb : b < 32 := by decide) (seif : b ≠ 8 := by decide) (ho : o + 4 < 4096 := by decide) :
    Steady q c (d.inc64 (qreg r b o) n) := by
  refine h.inc64 (not_lasting_page r b o hb seif (Nat.lt_of_le_of_lt (Nat.le_add_right _ _) ho)) ?_
  unfold Lasting qreg
  omega

theorem useLine_if (h : Steady q c d) {p : Prop} [Decidable p] {r a : Nat} {f : Line → Line} : Steady q c (if p then d.useLine r a f else d) := h.useLine.ite h

theorem poison_if (h : Steady q c d) {p : Prop} [Decidable p] {ps : List Nat} : Steady q c (if p then { d with poison := ps } else d) := h.same.ite h

theorem fetch (h : Steady q c d) {acc : Acc} {a : Nat} {narrow : Bool} : Steady q c (d.fetch acc a narrow).1 := by
  unfold Core.fetch
  split
  · exact h.same
  · dsimp only
    generalize hp : List.foldl _ (d, false) _ = p
    have read : Steady q c p.1 := by
      rw [← hp]
      exact foldl_fst (p := (d, false)) (fun _ hp => by dsimp only; exact hp.checkCells) h
    generalize hu : Core.useLine _ _ _ _ = u
    have used : Steady q c u := hu ▸ (read.inc64Quarter 6 _).useLine
    exact used.poison_if.freshHeld

theorem readWord (h : Steady q c d) (p : Prop) [Decidable p] (acc : Acc) (a b : Nat) : Steady q c (if p then (d.checkHeld acc a).1 else (d.fetch acc b true).1) := h.checkHeld.ite h.fetch

theorem countSectors (h : Steady q c d) {a hits misses : Nat} : Steady q c (d.countSectors a hits misses) := by
  have hit : Steady q c (if hits = 0 then d else d.inc64 (Reg.ergHitLo ((dramChan d.ilv a).1 / 64)) hits) := h.ite (h.inc64Quarter 5 _)
  exact hit.ite (hit.inc64Quarter 5 _)

theorem takeUse (h : Steady q c d) {acc : Acc} {a : Nat} : Steady q c (d.takeUse acc a) := by
  unfold Core.takeUse
  split
  · exact h
  · split
    · exact h
    · exact h.useLine.ite h

theorem touchLine (h : Steady q c d) {acc : Acc} {ss : List Nat} : Steady q c (d.touchLine acc ss).1 := by
  unfold Core.touchLine
  split
  · exact h
  · split
    · exact h
    · split
      · exact h.same
      · dsimp only
        generalize hp : List.foldl _ (Core.countSectors _ _ _ _, false) _ = p
        have held : Steady q c p.1 := by
          rw [← hp]
          exact foldl_fst (p := (_, false)) (fun _ hp => by dsimp only; exact hp.checkHeld) h.countSectors
        generalize hr : List.foldl _ (p.1, p.2) _ = r
        have read : Steady q c r.1 := by
          rw [← hr]
          exact foldl_fst (p := (p.1, p.2)) (fun _ hp => by dsimp only; exact hp.fetch) held
        exact read.useLine_if.takeUse

theorem touchErg (h : Steady q c d) {acc : Acc} {a n : Nat} : Steady q c (d.touchErg acc a n).1 := by
  unfold Core.touchErg
  split
  · exact h
  · dsimp only
    exact foldl_fst (p := (d, false)) (fun _ hp => by dsimp only; exact hp.checkCells) h

theorem unmapped (h : Steady q c d) {r : Nat} : Steady q c (d.unmapped r) := h.inc (not_lasting_page _ 6 _ (by decide) (by decide) (by decide))

theorem unaddr (h : Steady q c d) {r : Nat} : Steady q c (d.unaddr r) := (h.inc (not_lasting_page _ 5 _ (by decide) (by decide) (by decide))).raiseErg

theorem countOutside (h : Steady q c d) {r a n : Nat} : Steady q c (d.countOutside r a n) := foldl (fun _ hd => hd.unaddr.ite hd) (h.unmapped.ite h)

theorem touch (h : Steady q c d) {acc : Acc} {a n : Nat} : Steady q c (d.touch acc a n).1 := by
  unfold Core.touch
  split
  · exact h.same
  · dsimp only
    generalize hp : List.foldl _ (Core.countOutside _ _ _ _, 0) _ = p
    have read : Steady q c p.1 := by
      rw [← hp]
      exact foldl_fst (p := (_, 0)) (fun _ hp => by dsimp only; exact hp.touchLine) h.countOutside
    exact foldl_fst (p := (p.1, p.2)) (fun _ hp => by dsimp only; exact hp.touchErg) read

theorem readBlock (h : Steady q c d) {b : Nat} : Steady q c (d.readBlock b).1 := h.touch

/-! ### Writes -/

theorem blockPoison (h : Steady q c d) {acc : Acc} {b : Nat} {full : Bool} : Steady q c (d.blockPoison acc b full) := h.same.ite (h.same.ite h)

theorem dirtySector (h : Steady q c d) {a : Nat} : Steady q c (d.dirtySector a) := useLine h.same

theorem fetchFirst (h : Steady q c d) {acc : Acc} {a : Nat} : Steady q c (d.fetchFirst acc a) := by
  unfold Core.fetchFirst
  split
  · exact h.ite h.fetch
  · exact h

theorem dirtied (h : Steady q c d) {a : Nat} : Steady q c (d.dirtied a) := by
  unfold Core.dirtied
  split
  · exact h.dirtySector
  · exact h

theorem closeMerge (h : Steady q c d) {e : Merge} : Steady q c (d.closeMerge e) := by
  have counted : Steady q c (Core.incFld { d with merge := d.merge.filter (fun x => x.word != e.word) } (Reg.eccMerge e.quarter) 16 16 1) :=
    incFld h.same (not_lasting_page _ 7 _ (by decide) (by decide) (by decide))
  unfold Core.closeMerge
  dsimp only
  generalize Core.incFld _ (Reg.eccMerge e.quarter) 16 16 1 = x at counted ⊢
  cases place (e.word * 8) with
  | dram =>
    exact freshHeld (dirtySector (withMem (counted.readWord _ _ _ _)))
  | erg r off => exact counted.checkCells.mergedWord
  | reg off => exact counted.checkCells.mergedWord
  | unmapped => exact counted.checkCells.mergedWord

theorem closeOldest (h : Steady q c d) {r : Nat} : Steady q c (d.closeOldest r) := by
  unfold Core.closeOldest
  split
  · exact h.closeMerge
  · exact h

theorem wholeWord (h : Steady q c d) {a : Nat} : Steady q c (d.wholeWord a) := by
  unfold Core.wholeWord
  dsimp only
  split
  · exact freshHeld h.same
  · exact h.same

theorem laid (h : Steady q c d) {w : Nat} : Steady q c (d.laid w) := h.same

theorem mergeWord (h : Steady q c d) {acc : Acc} {a mask bytes : Nat} : Steady q c (d.mergeWord acc a mask bytes) := by
  unfold Core.mergeWord
  dsimp only
  split
  · split
    · exact (laid (fetchFirst h.same)).dirtied.wholeWord
    · exact laid h.same
  · exact laid (same (Steady.ite h.closeOldest h))

theorem hintLine (h : Steady q c d) {line hint uses : Nat} : Steady q c (d.hintLine line hint uses) := by
  unfold Core.hintLine
  split
  · exact h.applyHint.ite h
  · exact h

theorem enterSector (h : Steady q c d) {acc : Acc} {a n s : Nat} : Steady q c (d.enterSector acc a n s) := by
  unfold Core.enterSector
  split
  · exact h.ite (h.countSectors.ite h.countSectors.fetchFirst)
  · exact h

theorem landSector (h : Steady q c d) {acc : Acc} {a n s : Nat} {bs : List Byte} : Steady q c (d.landSector acc a n bs s) :=
  h.ite (foldl (fun _ hd => hd.mergeWord) (foldl (fun _ hd => hd.wholeWord) (h.ite h.dirtied)))

theorem onBlocks (h : Steady q c d) {a n : Nat} {f : Core → Nat → Bool → Core} (step : ∀ {d} b full, Steady q c d → Steady q c (f d b full)) : Steady q c (d.onBlocks a n f) :=
  foldl (fun _ hd => (step _ _ hd).ite hd) h

theorem putPiece (h : Steady q c d) {acc : Acc} {a : Nat} {bs : List Byte} : Steady q c (d.putPiece acc a bs) := by
  unfold Core.putPiece
  dsimp only
  generalize hx : List.foldl _ (Core.onBlocks _ _ _ _) _ = x
  have entered : Steady q c x := by
    rw [← hx]
    exact foldl (fun _ hd => by exact hd.enterSector) (h.onBlocks fun _ _ hd => hd.blockPoison)
  generalize hy : List.foldl _ _ (sectorsOf a bs.length) = y
  have landed : Steady q c y := by
    rw [← hy]
    exact foldl (fun _ hd => by exact hd.landSector) entered.withMem
  exact landed.ite (foldl (fun _ hd => by exact hd.hintLine) landed)
end Steady

namespace Steady
variable {c d e : Core}

theorem raiseJournal (h : Steady false c d) : Steady false c (d.raise 7 7) := h.setReg not_lasting_journal

theorem withJournal (h : Steady false c d) {n : Nat} : Steady false c { d with journal := n } := h.same

theorem journalBlock (h : Steady false c d) {b : Nat} : Steady false c (d.journalBlock b) := by
  have read : Steady false c (d.readBlock b).1 := h.readBlock
  -- The body replaces the function and not its value: unfolding the value makes the kernel evaluate the range's comparison.
  obtain ⟨f, hf⟩ : ∃ f, f = Core.journalBlock := ⟨_, rfl⟩
  rw [← hf]
  delta Core.journalBlock at hf
  rw [congrFun (congrFun hf d) b]
  generalize d.journalRange = r
  generalize d.readBlock b = x at read ⊢
  obtain ⟨base, size⟩ := r
  obtain ⟨e, bs, p⟩ := x
  exact Steady.ite (raiseJournal h.same) (Steady.ite h.same (withJournal (putPiece (putPiece read))))

theorem mirrorBlock (h : Steady false c d) {b : Nat} : Steady false c (d.mirrorBlock b) := by
  unfold Core.mirrorBlock
  dsimp only
  split
  · exact h.same
  · exact h.trans ⟨rfl, rfl, rfl, rfl, fun no => absurd no (by decide), fun _ _ => rfl⟩

theorem noteBlock (h : Steady false c d) {journaled : Bool} {b : Nat} : Steady false c (d.noteBlock journaled b) := by
  unfold Core.noteBlock
  split
  · exact (h.journalBlock.ite h).mirrorBlock.ite (h.journalBlock.ite h)
  · exact h

theorem storePiece (h : Steady false c d) {acc : Acc} {journaled : Bool} {a : Nat} {bs : List Byte} : Steady false c (d.storePiece acc journaled a bs) :=
  (h.onBlocks fun _ _ hd => hd.noteBlock).putPiece

theorem storeWith (h : Steady false c d) {acc : Acc} {journaled : Bool} {a : Nat} {bs : List Byte} : Steady false c (d.storeWith acc journaled a bs) :=
  h.ite (h.same.ite (h.countOutside.storePiece.ite (foldl (fun _ hd => hd.storePiece) h.countOutside)))

theorem store (h : Steady false c d) {acc : Acc} {a : Nat} {bs : List Byte} : Steady false c (d.store acc a bs) := h.storeWith

theorem stageBytes (h : Steady false c d) {acc : Acc} {id a : Nat} {bs : List Byte} : Steady false c (d.stageBytes acc id a bs).1 := by
  unfold Core.stageBytes
  dsimp only
  split
  · exact h
  · split
    · exact h
    · split
      · exact h.countOutside
      · exact same h.countOutside

theorem write (h : Steady false c d) {acc : Acc} {a : Nat} {bs : List Byte} : Steady false c (d.write acc a bs).1 := by
  unfold Core.write
  split
  · exact h.stageBytes
  · exact h.store
end Steady
end Sys2Proof.Machine
end

section
/-!
SUPPORT. The pair's state, the device's identifier and the states of the ports: registers that the work of strands, completions, aborts, stores and the links' queues leave alone. One
lemma per operation; each goes from `Paired c d` to `Paired c` of the operation on `d`.
-/
namespace Sys2Proof.Machine
open Sys2Proof

-- Threads that wait for the kernel keep their stacks, and the check limits the memory of one text.
set_option Elab.async false

/-- The pair's state, the device's identifier and the states of the ports. -/
def Linked (key : Nat) : Prop := key = Reg.twinState ∨ key = Reg.seifNode 0 ∨ ∃ p, key = portKey p Reg.seifPortState

theorem Linked.lasting {key : Nat} (h : Linked key) : Lasting key := by
  rcases h with rfl | rfl | ⟨p, rfl⟩
  · exact .inl (by decide)
  · exact .inr (by decide)
  · refine .inr ?_
    unfold portKey bankKey Reg.seifPortState qreg
    omega

/-- From `c` to `d` these registers stay. -/
def Paired (c d : Core) : Prop := ∀ key, Linked key → d.reg key = c.reg key

/-- Every other register. -/
def Unpaired (key : Nat) : Prop := ¬Linked key

/-- A register whose offset in its page is none of theirs. -/
theorem unpaired_of_offset {key : Nat} (twin : key % 4096 ≠ 0x98) (seif : key % 4096 ≠ 0x40) (port : key % 4096 ≠ 0x68) : Unpaired key := by
  rintro (rfl | rfl | ⟨p, rfl⟩)
  · exact absurd rfl twin
  · exact absurd rfl seif
  · refine port ?_
    unfold portKey bankKey Reg.seifPortState qreg
    omega

theorem unpaired_irq (page : Nat) : Unpaired (page * 4096 + 0x10) := unpaired_of_offset (by omega) (by omega) (by omega)

namespace Paired
variable {c d e : Core}

theorem refl (c : Core) : Paired c c := fun _ _ => rfl

theorem fld (h : Paired c d) {key : Nat} (l : Linked key) (lo w : Nat) : d.fld key lo w = c.fld key lo w := by rw [Core.fld, Core.fld, h key l]

theorem pair (h : Paired c d) : d.pair = c.pair := h.fld (.inl rfl) 0 3

theorem node (h : Paired c d) : d.node = c.node := h.fld (.inr (.inl rfl)) 0 16

theorem portState (h : Paired c d) (p : Nat) : d.portState p = c.portState p := h.fld (.inr (.inr ⟨p, rfl⟩)) 0 3

/-- What changes no register. -/
theorem same (h : Paired c d) (regs : e.regs = d.regs := by rfl) : Paired c e := fun key l => by
  rw [Core.reg, regs]
  exact h key l

theorem steady {q : Bool} (h : Paired c d) (k : Steady q d e) : Paired c e := fun key l => (k.reg key l.lasting).trans (h key l)

theorem ite {p : Prop} [Decidable p] (h : Paired c d) (k : Paired c e) : Paired c (if p then d else e) := by
  split
  · exact h
  · exact k

theorem foldl {α : Type} {f : Core → α → Core} (step : ∀ {d} a, Paired c d → Paired c (f d a)) {l : List α} (h : Paired c d) : Paired c (l.foldl f d) :=
  List.foldlRecOn l f h fun _ hd a _ => step a hd

/-! ### Registers -/

theorem setReg (h : Paired c d) {key v : Nat} (k : Unpaired key) : Paired c (d.setReg key v) :=
  fun j l => (d.reg_setReg_ne key v j fun e => k (e ▸ l)).trans (h j l)

theorem setFld (h : Paired c d) {key lo w v : Nat} (k : Unpaired key) : Paired c (d.setFld key lo w v) := h.setReg k
theorem setBit (h : Paired c d) {key i : Nat} {b : Bool} (k : Unpaired key) : Paired c (d.setBit key i b) := h.setReg k
theorem incFld (h : Paired c d) {key lo w n : Nat} (k : Unpaired key) : Paired c (d.incFld key lo w n) := h.setReg k
theorem inc (h : Paired c d) {key n : Nat} (k : Unpaired key) : Paired c (d.inc key n) := h.setReg k
theorem inc64 (h : Paired c d) {lo n : Nat} (k : Unpaired lo) (k' : Unpaired (lo + 4)) : Paired c (d.inc64 lo n) := (h.setReg k).setReg k'
theorem raise (h : Paired c d) {page i : Nat} : Paired c (d.raise page i) := h.setReg (unpaired_irq page)

/-! ### Memory -/

theorem touch (h : Paired c d) {acc : Acc} {a n : Nat} : Paired c (d.touch acc a n).1 := h.steady (q := true) (Steady.refl d).touch
theorem store (h : Paired c d) {acc : Acc} {a : Nat} {bs : List Byte} : Paired c (d.store acc a bs) := h.steady (Steady.refl d).store
theorem write (h : Paired c d) {acc : Acc} {a : Nat} {bs : List Byte} : Paired c (d.write acc a bs).1 := h.steady (Steady.refl d).write
theorem unaddr (h : Paired c d) {q : Nat} : Paired c (d.unaddr q) := h.steady (q := true) (Steady.refl d).unaddr
theorem seeJob (h : Paired c d) : Paired c d.seeJob := h.touch

/-! ### Messages (ch. 15, R595 to R597) -/

theorem post (h : Paired c d) {dst wadi : Nat} {b : Body} : Paired c (d.post dst wadi b) := h.same
theorem postAll (h : Paired c d) {ns : List Nat} {b : Body} {src : Option Nat} : Paired c (d.postAll ns b src) := h.same
theorem postJob (h : Paired c d) {b : Body} : Paired c (d.postJob b) := h.seeJob.postAll
theorem setPort (h : Paired c d) {p : Nat} {f : PortSt → PortSt} : Paired c (d.setPort p f) := h.same
theorem put (h : Paired c d) {p : Nat} {b : Body} : Paired c (d.put p b) := h.same
theorem grant (h : Paired c d) {p k : Nat} : Paired c (d.grant p k) := h.ite (h.ite h.setPort.put)
theorem freeFlits (h : Paired c d) {p k n : Nat} : Paired c (d.freeFlits p k n) := h.setPort.grant

theorem counted (h : Paired c d) {p n : Nat} : Paired c (d.inc64 (portKey p Reg.seifTxLo) n) := by
  refine h.inc64 (unpaired_of_offset ?_ ?_ ?_) (unpaired_of_offset ?_ ?_ ?_) <;> · unfold portKey bankKey Reg.seifTxLo qreg; omega

theorem sendFlit (h : Paired c d) {p : Nat} : Paired c (d.sendFlit p) := by
  unfold Core.sendFlit
  extract_lets x
  split
  · exact h
  · extract_lets k x1 c1 c2
    have sent : Paired c c2 := by
      unfold c2
      split
      · exact h.setPort.ite h.setPort.freeFlits
      · exact h.setPort
    exact sent.ite (counted sent.same)

theorem iterate {f : Core → Core} (step : ∀ {d}, Paired c d → Paired c (f d)) : ∀ (n : Nat) {d : Core}, Paired c d → Paired c (iter f n d)
  | 0, _, h => h
  | n + 1, _, h => iterate step n (step h)

theorem drainPort (h : Paired c d) {p : Nat} : Paired c (d.drainPort p) := (iterate (fun hd => hd.sendFlit) _ h).ite h

theorem enqueue (h : Paired c d) {p cls flits bytes : Nat} {m : Msg} {entry : Option (Nat × Nat)} : Paired c (d.enqueue p m cls flits bytes entry) :=
  drainPort (setPort h.same)

theorem dropPacket (h : Paired c d) {p : Nat} : Paired c (d.dropPacket p) := by
  have counted : Paired c (d.inc (portKey p Reg.seifDrop) 1) := by
    refine h.inc (unpaired_of_offset ?_ ?_ ?_) <;> · unfold portKey bankKey Reg.seifDrop qreg; omega
  exact counted.raise

theorem aliasOf (h : Paired c d) {dst : Nat} : Paired c (d.aliasOf dst).1 := by
  unfold Core.aliasOf
  split
  · exact h
  · exact h.touch

theorem byTable (h : Paired c d) {dst wadi cls : Nat} : Paired c (d.byTable dst wadi cls).1 := h.ite h.touch

theorem routed (h : Paired c d) {m : Msg} {flow cls : Nat} {entry : Option Nat} : Paired c (d.routed m flow cls entry).1 := by
  unfold Core.routed
  dsimp only
  split
  · split
    · exact h
    · split
      · exact h.byTable
      · exact h
  · split
    · exact h.aliasOf.byTable
    · exact h.aliasOf

theorem sendOne (h : Paired c d) {m : Msg} : Paired c (d.sendOne m) := by
  unfold Core.sendOne
  have away : Paired c (d.fresh.1.fresh.1.routed m (m.flow.getD (d.fresh.2 % 4)) 0 none).1 := Paired.routed (d := d.fresh.1.fresh.1) h.same
  refine h.same.ite (h.ite ?_)
  dsimp only
  generalize d.fresh.1.fresh.1.routed m (m.flow.getD (d.fresh.2 % 4)) 0 none = x at away ⊢
  obtain ⟨u, r⟩ := x
  split
  case h_1 e => cases e; exact enqueue away
  case h_2 e => cases e; exact away.same
  case h_3 e =>
    cases e
    split
    · exact same (dropPacket away)
    · exact dropPacket away

theorem flushOut (h : Paired c d) : Paired c d.flushOut := foldl (fun _ hd => hd.sendOne) h.same
end Paired
end Sys2Proof.Machine
end

section
/-!
SUPPORT. The same registers through the operations on the whole machine: descriptors that end, transactions that abort, strands that are cancelled and complete,
resignation, STOP and failover.
-/
namespace Sys2Proof.Machine
open Sys2Proof

-- Threads that wait for the kernel keep their stacks, and the check limits the memory of one text.
set_option Elab.async false

/-- No register of the power page is one of them. -/
theorem unpaired_power (r : RegDef) (h : r ∈ blockRegs 6) : Unpaired (6 * 4096 + r.off) := by
  have all : ∀ r ∈ blockRegs 6, r.off < 4096 := by decide
  have low := all r h
  rintro (e | e | ⟨p, e⟩)
  · unfold Reg.twinState at e
    omega
  · unfold Reg.seifNode qreg at e
    omega
  · unfold portKey bankKey Reg.seifPortState qreg at e
    omega

theorem unpaired_jobState : Unpaired Reg.jobState := unpaired_of_offset (by decide) (by decide) (by decide)

theorem Dx.seen_core (x : Dx) (c : Core) (st : Nat) : (x.seen c st).c = c := by
  unfold Dx.seen
  dsimp only
  split <;> rfl

theorem unpaired_jobAdopt : Unpaired Reg.jobAdopt := unpaired_of_offset (by decide) (by decide) (by decide)

namespace Paired
variable {c : Core} {s t : State}

theorem over_foldl {α : Type} {f : State → α → State} (step : ∀ {u} a, Paired c u.core → Paired c (f u a).core) {l : List α} (h : Paired c t.core) :
    Paired c (l.foldl f t).core :=
  List.foldlRecOn (motive := fun u : State => Paired c u.core) l f h fun _ hu a _ => step a hu

theorem if_state {p : Prop} [Decidable p] (h : Paired c s.core) (k : Paired c t.core) : Paired c (if p then s else t).core := by
  split
  · exact h
  · exact k

/-! ### Descriptors and transactions -/

theorem setStrand (h : Paired c t.core) {k : Nat} {f : Strand → Strand} : Paired c (t.setStrand k f).core := h
theorem leave (h : Paired c t.core) {k : Nat} : Paired c (t.leave k).core := h.same
theorem dropRuns (h : Paired c t.core) {k : Nat} : Paired c (t.on (fun c => c.dropRuns k)).core := h.same

theorem endDesc (h : Paired c t.core) {k st : Nat} : Paired c (t.endDesc k st).core := by
  unfold State.endDesc
  exact h.dropRuns.leave.setStrand

theorem stopStrand (h : Paired c t.core) {k reason : Nat} {fault : Bool} : Paired c (t.stopStrand k reason fault).core := h.raise
theorem onJob (h : Paired c t.core) {f : Job → Job} : Paired c (t.onJob f).core := h.same
theorem closeTxn (h : Paired c t.core) {id : Nat} : Paired c (t.on (fun c => c.closeTxn id)).core := h.same

theorem cancelMember (h : Paired c t.core) {k id : Nat} : Paired c (t.cancelMember k id).core := by
  unfold State.cancelMember
  exact if_state h.endDesc.setStrand h

theorem markAborted (h : Paired c t.core) {id but : Nat} : Paired c (t.markAborted id but).core := by
  unfold State.markAborted
  split
  · exact h
  · extract_lets s1 s2 s3
    have discarded : Paired c s1.core := Paired.raise (d := t.core.setTxn id Txn.discard) h.same
    have told : Paired c s2.core := if_state discarded.raise discarded
    have cancelled : Paired c s3.core := over_foldl (fun _ hu => hu.cancelMember) told
    refine if_state h (over_foldl (fun {u} w hu => ?_) cancelled)
    split
    · exact hu.endDesc
    · exact if_state hu.closeTxn hu
    · exact hu

theorem discardTxn (h : Paired c t.core) {id : Nat} : Paired c (t.discardTxn id).core := by
  unfold State.discardTxn
  split
  · exact h
  · extract_lets s1 live s2
    have ended : Paired c s2.core := over_foldl (fun _ hu => hu.endDesc) h.markAborted
    exact if_state ended.closeTxn ended

theorem openTxn {d : Core} (h : Paired c d) {id : Nat} : Paired c (d.openTxn id) := h.same.ite h.same

theorem announce (h : Paired c t.core) {d : Decision} {nodes : List Nat} {src : Option Nat} : Paired c (t.announce d nodes src).core := by
  unfold State.announce
  extract_lets k twin others _ s1 s2
  have told : Paired c s2.core := if_state (s := s1.on fun c => { c with out := _ }) h.same h
  exact if_state told.same told.postAll

theorem abortBoundary (h : Paired c t.core) {id : Nat} : Paired c (t.abortBoundary id).core :=
  incFld (if_state h.discardTxn h.raise) (unpaired_of_offset (by decide) (by decide) (by decide))

theorem decideAbort (h : Paired c t.core) {group id : Nat} {src : Option Nat} : Paired c (t.decideAbort group id src).core := by
  unfold State.decideAbort
  exact if_state (announce (t := (t.abortBoundary id).on Core.seeJob) h.abortBoundary.seeJob).same h.discardTxn.announce

/-! ### Completion -/

theorem setEvent (h : Paired c t.core) {i v : Nat} : Paired c (t.setEvent i v).core := h

theorem swapPage {d : Core} (h : Paired c d) {p : Nat} : Paired c (d.swapPage p) := by
  unfold Core.swapPage
  split
  case isFalse => exact h
  case isTrue page =>
    subst page
    refine List.foldlRecOn (motive := fun d => Paired c d) _ _ h fun d hd r mem => ?_
    dsimp only
    exact hd.ite (hd.setReg (unpaired_power r mem))

theorem descSwaps (h : Paired c t.core) {k : Nat} : Paired c (t.descSwaps k).core := by
  refine over_foldl (fun {u} p hu => if_state ?_ hu) h
  have ctrl : Unpaired (shadowCtrl p) := unpaired_of_offset (by unfold shadowCtrl; omega) (by unfold shadowCtrl; omega) (by unfold shadowCtrl; omega)
  exact swapPage ((hu.setBit ctrl).setBit ctrl)

theorem writeRecord (h : Paired c t.core) {k : Nat} : Paired c (t.writeRecord k).core := by
  unfold State.writeRecord
  refine if_state h (setStrand (t := t.on _) ?_)
  exact h.store.ite h.unaddr

theorem memberDone (h : Paired c t.core) {k id st : Nat} : Paired c (t.memberDone k id st).core := by
  have ended : Paired c (t.on (fun c => c.setTxn id (fun t => { t with ends := t.ends ++ [c.ct] }))).core := h.same
  exact if_state ended.markAborted ended

/-- What a descriptor's work leaves of the machine below the strands. -/
theorem withDx {x : Dx} (h : Paired c x.c) {k : Nat} : Paired c (t.withDx k x).core := setStrand (t := { t with core := _, ctl := _ }) h.same

theorem asked (h : Paired c t.core) {k : Nat} : Paired c (t.dx k).c := h.same

theorem num (x : Dx) (a n : Nat) (h : Paired c x.c) : Paired c (x.num a n).1.c := by
  change Paired c (x.seen (x.c.touch x.acc a n).1 _).c
  rw [Dx.seen_core]
  exact h.touch

theorem writeDx (x : Dx) (a : Nat) (bs : List Byte) (h : Paired c x.c) : Paired c (x.write a bs).c := h.write.same

theorem applyAdds (x : Dx) (h : Paired c x.c) : Paired c x.applyAdds.c :=
  List.foldlRecOn (motive := fun y : Dx => Paired c y.c) _ _ h fun y hy p _ => writeDx _ _ _ (num y p.1 4 hy)

theorem completeWork (h : Paired c t.core) {k : Nat} : Paired c (t.completeWork k).core :=
  if_state (withDx (x := rngRound (t.dx k) _) h.asked) (if_state (withDx (applyAdds _ h.asked)) h.setStrand)

theorem completeTxn (h : Paired c t.core) {k : Nat} : Paired c (t.completeTxn k).core := by
  unfold State.completeTxn
  extract_lets s1 r s2
  have done : Paired c s2.core := by
    unfold s2
    split
    · exact h.completeWork.memberDone
    · exact h.completeWork
  refine if_state done (if_state ?_ done)
  split
  · exact if_state done.closeTxn done
  · exact done

theorem completeEffects (h : Paired c t.core) {k : Nat} {r : Strand} : Paired c (t.completeEffects k r).core := by
  unfold State.completeEffects
  extract_lets st s1 s4 s5 s6
  have told : Paired c s1.core := foldl (fun _ hd => hd.raise) h
  have recorded : Paired c s4.core := told.writeRecord.same
  have swapped : Paired c s5.core := if_state recorded.descSwaps recorded
  have signalled : Paired c s6.core := if_state swapped.setEvent swapped
  exact if_state signalled.setStrand.raise (if_state signalled.raise signalled)

theorem goOn (h : Paired c t.core) {k : Nat} {r : Strand} : Paired c (t.goOn k r).core :=
  if_state h.setStrand.stopStrand (if_state h.setStrand.stopStrand (if_state h.setStrand.setStrand.stopStrand h.setStrand.setStrand))

theorem complete (h : Paired c t.core) {k : Nat} : Paired c (t.complete k false).core := by
  unfold State.complete
  exact if_state h (goOn (t := State.worked _ _) h.completeTxn.completeEffects)

/-! ### The end of the job (R618, R622 to R625) -/

theorem cancelStrand (h : Paired c t.core) {k reason : Nat} : Paired c (t.cancelStrand k reason).core :=
  if_state h (if_state h.stopStrand (setStrand (if_state h h.endDesc)))

theorem cancelAll (h : Paired c t.core) : Paired c t.cancelAll.core := over_foldl (fun _ hu => if_state hu.cancelStrand.complete hu) h

theorem jobStop (h : Paired c t.core) : Paired c (jobStop t).core := by
  unfold Machine.jobStop
  have stopped : Paired c ((t.cancelAll.core.setFld Reg.jobState 0 3 4).raise 7 6) := (h.cancelAll.setFld unpaired_jobState).raise
  exact if_state h (onJob (t := t.cancelAll.on fun c => (c.setFld Reg.jobState 0 3 4).raise 7 6) stopped)

theorem stopAll (h : Paired c t.core) : Paired c t.stopAll.core := jobStop (t := t.on fun c => c.postJob .jobStop) h.postJob

theorem resignNow (h : Paired c t.core) : Paired c t.resignNow.core := by
  unfold State.resignNow
  extract_lets s1 alone s2
  have left : Paired c s1.core := h.same
  have told : Paired c s2.core := if_state (s := s1.on fun c => (if c.isLeader then c.postJob .jobStop else c.post c.leader 0 (.failoverReq c.twin c.node false)).flushOut)
    (flushOut (left.postJob.ite left.post)) left
  exact if_state left (setFld (cancelAll (t := s2.on fun c => c.post c.twin 0 .resign) told.post) unpaired_jobState)

theorem aliased {d : Core} (h : Paired c d) : Paired c { d with job := { d.job with aliased := true } } := h.same
theorem emb (x : Dx) (f : Emb → Emb) (h : Paired c x.c) : Paired c (x.emb f).c := h.same
theorem dev (h : Paired c t.core) {q : Nat} {node : Option Nat} : Paired c (t.dev q node).c := h.same
theorem withDev {x : Dx} (h : Paired c x.c) : Paired c (t.withDev x).core := h.same

theorem writeAlias {d : Core} (h : Paired c d) {l v : Nat} : Paired c (d.writeAlias l v) := by
  unfold Core.writeAlias
  exact aliased (foldl (fun _ hd => hd.store) h)

theorem migrationsLost (x : Dx) (node : Nat) (h : Paired c x.c) : Paired c (migrationsLost x node).c := by
  unfold Machine.migrationsLost
  extract_lets prev hit gone y
  have restored : Paired c y.c := List.foldlRecOn (motive := fun y : Dx => Paired c y.c) _ _ h fun y hy d _ => store hy
  exact emb _ _ restored

theorem failover (h : Paired c t.core) {lost stand number : Nat} {refused : Bool} : Paired c (failover t lost stand number refused).core := by
  unfold Machine.failover
  refine if_state h.resignNow ?_
  extract_lets s1 s2 s3
  have written : Paired c s1.core := h.writeAlias
  have cancelled : Paired c s2.core := withDev (migrationsLost _ lost written.dev)
  have adopted : Paired c s3.core :=
    if_state (s := s2.on fun c => ((c.setFld Reg.jobAdopt 0 16 lost).setBit Reg.jobState 3 true).raise 7 1) ((cancelled.setFld unpaired_jobAdopt).setBit unpaired_jobState).raise cancelled
  exact adopted.onJob

theorem failoverReq (h : Paired c t.core) {lost stand : Nat} {formed : Bool} : Paired c (failoverReq t lost stand formed).core := by
  unfold Machine.failoverReq
  extract_lets j id undecided s1 adopted s2 s3 n s4
  have decided : Paired c s1.core := if_state (decideAbort (t := (t.on fun c => c.openTxn id).on Core.seeJob) h.openTxn.seeJob) h
  have refused : Paired c s3.core := if_state decided.onJob.resignNow (s := s2.resignNow) (t := s2.on fun c => c.post stand 0 (.failoverRefused lost stand)) decided.onJob.post
  exact if_state (if_state refused.stopAll refused) (failover (t := s4.on fun c => c.postJob (.failover lost stand n)) decided.onJob.postJob)

end Paired
end Sys2Proof.Machine
end

section
/-!
The job (O58): READY and START, STOP, failovers and hand-backs, and the leader's answer to a request.
-/
namespace Sys2Proof.Machine
open Sys2Proof

-- Threads that wait for the kernel keep their stacks, and the check limits the memory of one text.
set_option Elab.async false

theorem next_ifServes {s : State} (serves : s.serves = true) (f : State → State) :
    (Host.Outcome.next (finish s (s.ifServes f)) : Host.Outcome State Fault Refusal) = .next (finish s (f s)) := congrArg (fun u => Host.Outcome.next (finish s u)) (if_pos serves)

/-! ### READY and START (R617) -/

theorem Core.seeJob_job (c : Core) : c.seeJob.job = c.job := (Steady.refl (q := true) c).touch.job

/-- What a READY of the current restart leaves before the leader looks at what is missing. -/
def State.withReady (s : State) (node : Nat) : State :=
  (s.onJob (fun j => { j with readyFrom := insN j.readyFrom node, readyAt := s.core.ct })).on Core.seeJob

theorem State.withReady_job (s : State) (node : Nat) :
    (s.withReady node).core.job = { s.core.job with readyFrom := insN s.core.job.readyFrom node, readyAt := s.core.ct } := Core.seeJob_job _

theorem restartReady_eq (s : State) (node : Nat) (lead : s.core.isLeader = true) (collecting : s.core.job.collecting = true) :
    restartReady s node s.core.job.number =
      if ∀ n ∈ (s.withReady node).core.jobNodes, n ∈ insN s.core.job.readyFrom node then
        ((s.withReady node).on (fun c => c.postAll (s.withReady node).core.jobNodes (.restartStart s.core.job.number
          ((s.withReady node).core.ct + max 1 ((s.withReady node).core.fld Reg.cpCommitLead 0 16) * 1000)))).onJob
          (fun j => { j with collecting := false, startAt := some ((s.withReady node).core.ct + max 1 ((s.withReady node).core.fld Reg.cpCommitLead 0 16) * 1000) })
      else s.withReady node := by
  unfold restartReady
  simp only [lead, collecting, Bool.not_true, Bool.false_or, ne_eq, not_true_eq_false, decide_false, Bool.false_eq_true, if_false]
  change (if ((s.withReady node).core.jobNodes.all fun n => (s.withReady node).core.job.readyFrom.contains n) = true then _ else s.withReady node) = _
  rw [s.withReady_job]
  simp only [List.all_eq_true, List.contains_iff_mem]
  rfl

theorem restartReady_stale (s : State) (node : Nat) {number : Nat} (stale : number ≠ s.core.job.number) : restartReady s node number = s :=
  if_pos (by simp only [stale, ne_eq, not_false_eq_true, decide_true, Bool.or_true])

theorem Core.lateEvent_withJob (c : Core) (j : Job) : ({ c with job := j } : Core).lateEvent.regs = c.lateEvent.regs := rfl

theorem restartStart_eq (s : State) (t : Nat) (ready : s.core.job.phase = .ready) : restartStart s s.core.job.number t =
    if t < s.core.ct then (s.onJob (fun j => { j with startAt := some (max t s.core.ct) })).on Core.lateEvent else s.onJob (fun j => { j with startAt := some (max t s.core.ct) }) :=
  if_pos ⟨rfl, ready⟩

/-! ### STOP (R618) and a refused request (R622) -/

theorem Core.jobState_setFld (c : Core) {v : Nat} (h : v < 8) : (c.setFld Reg.jobState 0 3 v).jobState = v := by
  rw [Core.jobState, Core.fld_setFld_eq _ _ _ (by decide)]
  exact Nat.mod_eq_of_lt h

theorem State.onJob_fld (s : State) (f : Job → Job) (key lo w : Nat) : (s.onJob f).core.fld key lo w = s.core.fld key lo w := rfl

theorem State.onJob_job (s : State) (f : Job → Job) : (s.onJob f).core.job = f s.core.job := rfl

theorem jobStop_eq (s : State) (fenced : s.core.jobState ≠ 3) : jobStop s = (s.cancelAll.on (fun c => (c.setFld Reg.jobState 0 3 4).raise 7 6)).onJob
    (fun j => { j with phase := .none, collecting := false, startAt := none, translations := [], restartDue := none, abortDue := false }) := if_neg fenced

theorem jobStop_jobState (s : State) (fenced : s.core.jobState ≠ 3) : (jobStop s).core.jobState = 4 := by
  rw [jobStop_eq s fenced]
  rw [Core.jobState, State.onJob_fld, State.on_core, Core.fld_raise_ne _ _ _ (by decide)]
  exact Core.jobState_setFld _ (by decide)

theorem Core.postJob_jobState (c : Core) (b : Body) : (c.postJob b).jobState = c.jobState := (Steady.refl (q := true) c).touch.fld (.inl (by decide)) 0 3

theorem State.stopAll_jobState (s : State) (fenced : s.core.jobState ≠ 3) : s.stopAll.core.jobState = 4 :=
  jobStop_jobState (s.on fun c => c.postJob .jobStop) (by rw [State.on_core, Core.postJob_jobState]; exact fenced)

theorem State.resignNow_jobState (s : State) : s.resignNow.core.jobState = 3 := by
  unfold State.resignNow
  extract_lets s1 alone s2
  split
  case isTrue fenced => exact fenced
  case isFalse => exact Core.jobState_setFld _ (by decide)

/-! ### Failover and hand-back (R624, R625, R635) -/

theorem Core.aliased_job {c d : Core} (h : d.job = c.job) : ({ d with job := { d.job with aliased := true } } : Core).job = { c.job with aliased := true } :=
  congrArg (fun j : Job => { j with aliased := true }) h

theorem Core.writeAlias_job (c : Core) (l v : Nat) : (c.writeAlias l v).job = { c.job with aliased := true } := by
  unfold Core.writeAlias
  exact Core.aliased_job (Steady.foldl (fun _ hd => hd.store) (Steady.refl (q := false) c)).job

theorem Dx.emb_job (x : Dx) (f : Emb → Emb) : (x.emb f).c.job = x.c.job := rfl

theorem migrationsLost_job (x : Dx) (node : Nat) : (migrationsLost x node).c.job = x.c.job := by
  unfold migrationsLost
  extract_lets prev hit gone y
  have restored : Steady false x.c y.c := List.foldlRecOn (motive := fun y : Dx => Steady false x.c y.c) _ _ (Steady.refl _) fun y hy d _ => hy.store
  exact (Dx.emb_job _ _).trans restored.job

/-- What a failover leaves before the adoption: the entry for the lost node is written, and migrations with the lost node are cancelled. -/
def State.aliasWritten (s : State) (lost stand : Nat) : State :=
  let s1 := s.on (fun c => c.writeAlias lost (stand + 2 ^ 31))
  s1.withDev (migrationsLost (s1.dev ((embQuarter s1.core).getD 0) none) lost)

theorem State.withDev_job (s : State) (x : Dx) : (s.withDev x).core.job = x.c.job := rfl

theorem State.dev_job (s : State) (q : Nat) (node : Option Nat) : (s.dev q node).c.job = s.core.job := rfl

theorem State.aliasWritten_job (s : State) (lost stand : Nat) : (s.aliasWritten lost stand).core.job = { s.core.job with aliased := true } := by
  unfold State.aliasWritten
  rw [State.withDev_job, migrationsLost_job, State.dev_job, State.on_core, Core.writeAlias_job]

theorem State.aliasWritten_node (s : State) (lost stand : Nat) : (s.aliasWritten lost stand).core.node = s.core.node :=
  (Paired.withDev (Paired.migrationsLost _ lost (Paired.dev (Paired.refl s.core).writeAlias))).node

/-- A device takes the place of a lost node. -/
def Core.adopts (c : Core) (lost : Nat) : Core := ((c.setFld Reg.jobAdopt 0 16 lost).setBit Reg.jobState 3 true).raise 7 1

theorem Core.adopts_job (c : Core) (lost : Nat) : (c.adopts lost).job = c.job := rfl

theorem Core.adopts_fld (c : Core) (lost : Nat) : (c.adopts lost).fld Reg.jobAdopt 0 16 = lost % 65536 := by
  rw [Core.adopts, Core.fld_raise_ne _ _ _ (by decide), Core.fld_setBit_ne _ _ _ _ _ (by decide)]
  exact Core.fld_setFld_eq _ _ _ (by decide)

theorem failover_eq (s : State) (lost stand number : Nat) : failover s lost stand number false =
    (if stand = (s.aliasWritten lost stand).core.node then (s.aliasWritten lost stand).on (fun c => c.adopts lost) else s.aliasWritten lost stand).onJob
      (fun j => { j with translations := j.translations ++ [(lost, stand, false)], restartDue := some number }) :=
  if_neg (by decide)

theorem failover_job (s : State) (lost stand number : Nat) : (failover s lost stand number false).core.job =
    { s.core.job with aliased := true, translations := s.core.job.translations ++ [(lost, stand, false)], restartDue := some number } := by
  rw [failover_eq, State.onJob_job]
  split
  · rw [State.on_core, Core.adopts_job, State.aliasWritten_job]
  · rw [State.aliasWritten_job]

theorem failover_adopts (s : State) (lost number : Nat) : (failover s lost s.core.node number false).core.fld Reg.jobAdopt 0 16 = lost % 65536 := by
  rw [failover_eq, if_pos (s.aliasWritten_node lost _).symm, State.onJob_fld, State.on_core]
  exact Core.adopts_fld _ lost

theorem Core.setPair_job (c : Core) (v : Nat) : (c.setPair v).job = c.job := by
  unfold Core.setPair
  extract_lets c0 c1 held
  have first : c1.job = c.job := by
    unfold c1
    split <;> rfl
  split
  · exact first
  · exact first

theorem handback_job (s : State) (lost stand number : Nat) : (handback s lost stand number).core.job.translations = s.core.job.translations ++ [(lost, stand, true)]
    ∧ (handback s lost stand number).core.job.restartDue = some number := by
  unfold handback
  extract_lets s1 s2 s3
  refine ⟨?_, rfl⟩
  have written : s1.core.job.translations = s.core.job.translations := congrArg (fun j => j.translations) (s.core.writeAlias_job lost 0)
  have left : s2.core.job.translations = s.core.job.translations := by
    unfold s2
    split
    · exact written
    · exact written
  have kept : s3.core.job.translations = s.core.job.translations := by
    unfold s3
    split
    · exact (congrArg (fun j => j.translations) (s2.core.setPair_job 2)).trans left
    · exact left
  exact congrArg (· ++ [(lost, stand, true)]) kept

/-! ### The leader's answer (R624) -/

/-- Whether the boundary transaction is open to the abort that a request for failover counts as. -/
def State.undecided (s : State) : Bool :=
  s.core.job.phase == .none && s.core.inJob && !(match s.core.txn? (s.core.fld Reg.jobCfg 0 8) with | some t => t.decision.isSome | none => false)

/-- What the abort vote of a request for failover leaves. -/
def State.requested (s : State) : State :=
  if s.undecided then ((s.on (fun c => c.openTxn (s.core.fld Reg.jobCfg 0 8))).on Core.seeJob).decideAbort s.core.jobGroup (s.core.fld Reg.jobCfg 0 8) s.core.leaderSrc else s

theorem State.requested_node (s : State) : s.requested.core.node = s.core.node :=
  (Paired.if_state (Paired.decideAbort (t := (s.on fun c => c.openTxn _).on Core.seeJob) (Paired.refl s.core).openTxn.seeJob) (Paired.refl s.core)).node

theorem State.requested_idle (s : State) (idle : s.core.inJob = false ∨ s.core.job.phase ≠ .none) : s.requested = s := by
  refine if_neg ?_
  unfold State.undecided
  rcases idle with out | moved
  · simp [out]
  · simp [moved]

/-- The number of the restart that a failover brings. -/
def Job.nextNumber (j : Job) : Nat := match j.restartDue with | some n => n + 1 | none => j.number + 1

/-- Whether a request is refused for one of its nodes: one that stands in, is adopted, or has gone. -/
def Job.bars (j : Job) (lost stand : Nat) : Bool :=
  (j.taken.any (fun p => p.1 == lost) || j.taken.any (fun p => p.1 == stand)) || j.gone.contains lost || j.gone.contains stand

theorem failoverReq_accepts (s : State) (lost stand : Nat) (free : s.core.job.bars lost stand = false) : failoverReq s lost stand true =
    failover ((s.requested.onJob (fun j => { j with taken := j.taken ++ [(lost, stand)] })).on (fun c => c.postJob (.failover lost stand
      s.requested.core.job.nextNumber))) lost stand s.requested.core.job.nextNumber false :=
  if_neg (by
    change ¬(s.core.job.bars lost stand || !true) = true
    rw [free]
    decide)

theorem failoverReq_refuses (s : State) (lost stand : Nat) (barred : s.core.job.bars lost stand = true) (here : s.core.job.gone.contains stand = false) (other : stand ≠ s.core.node) :
    failoverReq s lost stand true = (s.requested.onJob (fun j => { j with gone := insN j.gone stand })).on (fun c => c.post stand 0 (.failoverRefused lost stand)) := by
  have refused : (s.core.job.bars lost stand || !true) = true := by rw [barred, Bool.true_or]
  have remains : ¬(!true || s.core.job.gone.contains stand) = true := by rw [here]; decide
  have away : ¬stand = (s.requested.onJob fun j => { j with gone := insN j.gone stand }).core.node := fun e => other (e.trans s.requested_node)
  refine (if_pos refused).trans ((if_neg remains).trans ?_)
  exact if_neg away

theorem not_bars {j : Job} {lost stand : Nat} (l : lost ∉ j.gone) (st : stand ∉ j.gone) (taken : ∀ x ∈ j.taken, x.1 ≠ lost ∧ x.1 ≠ stand) : j.bars lost stand = false := by
  simp only [Job.bars, Bool.or_eq_false_iff, List.any_eq_false, beq_iff_eq, List.contains_eq_mem, decide_eq_false_iff_not]
  exact ⟨⟨⟨fun x hx => (taken x hx).1, fun x hx => (taken x hx).2⟩, l⟩, st⟩

theorem bars_of {j : Job} {lost stand : Nat} (h : lost ∈ j.gone ∨ ∃ x ∈ j.taken, x.1 = lost ∨ x.1 = stand) : j.bars lost stand = true := by
  simp only [Job.bars, Bool.or_eq_true, List.any_eq_true, beq_iff_eq, List.contains_iff_mem]
  rcases h with l | ⟨x, hx, e | e⟩
  · exact .inl (.inr l)
  · exact .inl (.inl (.inl ⟨x, hx, e⟩))
  · exact .inl (.inl (.inr ⟨x, hx, e⟩))

/-- Settles O58: each command is its function of the job, whose clauses the lemmas above give. -/
theorem jobRestarts : Obligations.JobRestarts := by
  unfold Obligations.JobRestarts
  intro s serves
  refine ⟨?_, ?_, ?_, ?_, ?_, ?_, ?_, ?_, ?_, ?_, ?_⟩
  · intro node lead collecting
    refine ⟨_, next_ifServes serves _, ?_⟩
    dsimp only
    rw [restartReady_eq s node lead collecting]
    refine ⟨?_, fun all => if_pos all, fun missing => if_neg missing⟩
    split
    · exact congrArg (fun j => j.readyFrom) (s.withReady_job node)
    · exact congrArg (fun j => j.readyFrom) (s.withReady_job node)
  · intro node number stale
    exact ⟨(next_ifServes serves _).trans (next_congr (restartReady_stale s node stale)), fun t => (next_ifServes serves _).trans (next_congr (if_neg fun h => stale h.1))⟩
  · intro t ready
    refine ⟨_, next_ifServes serves _, ?_⟩
    dsimp only
    rw [restartStart_eq s t ready]
    split
    case isTrue late => exact ⟨rfl, fun h => absurd h (Nat.not_le.mpr late), fun _ => s.core.lateEvent_withJob _, rfl, rfl⟩
    case isFalse early => exact ⟨rfl, fun _ => rfl, fun h => absurd h early, rfl, rfl⟩
  · intro fenced
    refine ⟨_, next_ifServes serves _, jobStop_jobState s fenced, ?_⟩
    rw [jobStop_eq s fenced]
    exact ⟨rfl, rfl, rfl⟩
  · intro collecting due
    refine ⟨_, next_ifServes serves _, if_pos ?_, fun fenced => ?_⟩
    · rw [collecting, Bool.true_and]
      exact decide_eq_true due
    · rw [show readyTimeout s = s.stopAll from if_pos (by rw [collecting, Bool.true_and]; exact decide_eq_true due)]
      exact s.stopAll_jobState fenced
  · intro early
    refine (next_ifServes serves _).trans (next_congr (if_neg ?_))
    rcases early with idle | early
    · simp [idle]
    · simp [early]
  · exact fun l st n => ⟨_, next_ifServes serves _, s.resignNow_jobState⟩
  · intro l st n
    refine ⟨_, next_ifServes serves _, ?_, ?_, ?_⟩
    · rw [failover_job]
    · rw [failover_job]
    · rintro rfl
      exact failover_adopts s l n
  · exact fun l st n => ⟨_, next_ifServes serves _, handback_job s l st n⟩
  · intro l st hl hst taken
    refine ⟨_, next_ifServes serves _, ?_⟩
    rw [failoverReq_accepts s l st (not_bars hl hst taken), failover_job]
    refine ⟨List.mem_append_right _ (List.mem_singleton_self _), ?_, fun idle => ?_⟩
    · rw [State.on_core]
      change (l, st) ∈ ((s.requested.onJob _).core.seeJob.job).taken
      rw [Core.seeJob_job]
      exact List.mem_append_right _ (List.mem_singleton_self _)
    · rw [s.requested_idle idle]
      rfl
  · intro l st hst barred other
    refine ⟨_, next_ifServes serves _, ?_⟩
    rw [failoverReq_refuses s l st (bars_of barred) (by simpa using hst) other]
    exact ⟨mem_insN, List.getLast?_concat⟩
end Sys2Proof.Machine
end

section
/-!
SUPPORT. The twin's commands, one by one: arriving blocks and acknowledgements, heartbeats, forming messages and the bits of TWIN_CTRL.
-/
namespace Sys2Proof.Machine
open Sys2Proof

-- Threads that wait for the kernel keep their stacks, and the check limits the memory of one text.
set_option Elab.async false

/-! ### Blocks (R606, R608, R633) -/

/-- Whether the address of an arriving block lies in the range that its kind is for. -/
def blockMine (m : MirrorMsg) (d : Nat) : Bool := if m.kind < 3 then decide (m.addr / 64 * 64 < d) else decide (d ≤ m.addr / 64 * 64 ∧ m.addr / 64 * 64 < 2 * d)

theorem blockMine_eq (m : MirrorMsg) (d : Nat) :
    blockMine m d = if m.kind < 3 then decide (m.addr / 64 * 64 < d) else !decide (m.addr / 64 * 64 < d) && decide (m.addr / 64 * 64 < 2 * d) := by
  unfold blockMine
  split
  · rfl
  · simp only [Bool.decide_and, ← Nat.not_lt, decide_not]

/-- The acknowledgement of an arriving block. -/
def State.ackBlock (s : State) (m : MirrorMsg) : State := s.on (fun c => c.post c.twin 14 (.mirrorAck (m.addr / 64 * 64) m.kind))

/-- A block counts for the fill that it is part of. -/
def Core.countFill (c : Core) (kind : Nat) : Core :=
  match c.job.fill with
  | some f => if f.kind = kind ∧ f.receives then { c with job := { c.job with fill := some { f with got := f.got + 1 } } } else c
  | none => c

theorem Core.countFill_mem (c : Core) (kind : Nat) : (c.countFill kind).mem = c.mem := by
  unfold Core.countFill
  split
  · split <;> rfl
  · rfl

/-- The first block of a hand-back fill tells a replacement that its pair is formed (R635). -/
def Core.handed (c : Core) (kind : Nat) : Core :=
  if kind = 3 ∧ c.job.attaching ∧ c.pair = 4 then
    { (c.raise 7 4).setPair 5 with job := { c.job with fill := some { kind := 3, sends := false, receives := true } } }
  else c

/-- A block that is staged for the boundary transaction. -/
def State.stageBlock (s : State) (m : MirrorMsg) : State :=
  let c := s.core
  let a := m.addr / 64 * 64 + c.mirrorD
  let id := c.fld Reg.jobCfg 0 8
  let (c1, st) := (c.openTxn id).stageBytes { q := homeQuarter c a, poison := m.poison } id a m.bytes
  let s1 := { s with core := c1 }
  if st = 0 then s1 else s1.markAborted id

theorem mirrorBlock_eq (s : State) (m : MirrorMsg) : mirrorBlock s m =
    if !(if m.kind < 3 then decide (m.addr / 64 * 64 < s.core.mirrorD) else !decide (m.addr / 64 * 64 < s.core.mirrorD) && decide (m.addr / 64 * 64 < 2 * s.core.mirrorD)) then s
    else if m.kind = 1 then (s.stageBlock m).ackBlock m
    else (s.on fun c => ((c.handed m.kind).takeBlock m (if m.kind < 3 then m.addr / 64 * 64 + c.mirrorD else m.addr / 64 * 64 - c.mirrorD)).countFill m.kind).ackBlock m := rfl

theorem mirrorBlock_mine (s : State) (m : MirrorMsg) (mine : blockMine m s.core.mirrorD = true) : ∃ t : State, mirrorBlock s m = t.ackBlock m
    ∧ (m.kind ≠ 1 → m.kind ≠ 3 → t.core.mem = (s.core.takeBlock m (if m.kind < 3 then m.addr / 64 * 64 + s.core.mirrorD else m.addr / 64 * 64 - s.core.mirrorD)).mem) := by
  rw [mirrorBlock_eq, ← blockMine_eq, mine, if_neg (by decide)]
  split
  case isTrue staged => exact ⟨_, rfl, fun h => absurd staged h⟩
  case isFalse =>
    refine ⟨_, rfl, fun _ h3 => ?_⟩
    rw [State.on_core, Core.countFill_mem, Core.handed, if_neg fun h => h3 h.1]

theorem mirrorBlock_other (s : State) (m : MirrorMsg) (other : blockMine m s.core.mirrorD = false) : mirrorBlock s m = s := by
  rw [mirrorBlock_eq, ← blockMine_eq, other]
  exact if_pos rfl

theorem mirrorAck_mirror (s : State) (addr : Nat) {kind : Nat} (h : kind = 0 ∨ 4 ≤ kind) {m : MirrorEnt} (found : s.core.mirrorQ.find? (fun m => m.sent && m.block == addr / 64) = some m) :
    mirrorAck s addr kind = { s with core := { s.core with mirrorQ := s.core.mirrorQ.filter (fun x => x.num != m.num) } } := by
  unfold mirrorAck
  dsimp only
  rw [if_neg (by omega), if_neg (by omega)]
  unfold State.on
  dsimp only
  rw [found]

theorem Core.sendBlock_job (c : Core) (b kind : Nat) : (c.sendBlock b kind).job = c.job := (Steady.refl (q := true) c).readBlock.job

theorem Core.sendFill_fill (c : Core) {f : Fill} (running : c.job.fill = some f) : ∃ g, c.sendFill.job.fill = some g ∧ g.acked = f.acked ∧ g.kind = f.kind := by
  unfold Core.sendFill
  rw [running]
  dsimp only
  split
  · exact ⟨f, running, rfl, rfl⟩
  · split
    · exact ⟨_, rfl, rfl, rfl⟩
    · rw [Core.sendBlock_job]
      exact ⟨_, rfl, rfl, rfl⟩

theorem mirrorAck_fill (s : State) (addr : Nat) {f : Fill} (running : s.core.job.fill = some f) (kind : f.kind = 2 ∨ f.kind = 3) (sends : f.sends = true)
    (next : addr / 64 = s.core.fillBase f + f.acked) :
    mirrorAck s addr f.kind = s.on (fun _ => Core.sendFill { s.core with job := { s.core.job with fill := some { f with acked := f.acked + 1 } } }) := by
  unfold mirrorAck
  dsimp only
  rw [if_neg (by omega), if_pos kind]
  unfold State.on
  dsimp only
  rw [running]
  exact congrArg (fun c : Core => ({ s with core := c } : State)) (if_pos ⟨rfl, sends, next⟩)

theorem mirrorResend_eq (s : State) (addr : Nat) (low : addr < s.core.mirrorD) (on : s.core.mirroring = true) : mirrorResend s addr = s.on (fun c => c.mirrorBlock (addr / 64)) := by
  unfold mirrorResend State.on
  dsimp only
  rw [if_pos (by rw [on, decide_eq_true low]; rfl)]

/-! ### Heartbeats (R620) -/

theorem twinHeartbeatSend_eq (s : State) (formed : s.core.formed = true) (due : s.core.job.hbSent + 10000 ≤ s.core.up) :
    twinHeartbeatSend s = (s.on (fun c => c.post c.twin 0 .twinHeartbeat)).onJob (fun j => { j with hbSent := s.core.up }) :=
  if_pos (by rw [formed, Bool.true_and]; exact decide_eq_true due)

theorem twinHeartbeat_eq (s : State) (formed : s.core.formed = true) :
    twinHeartbeat s = (s.on (fun c => c.setBit Reg.twinState 3 true)).onJob (fun j => { j with hbLast := some s.core.up }) := if_pos formed

/-! ### Forming (R603, R721) -/

/-- From `c` to `d` the keys of twins and the security page's interrupts stay. -/
structure KeepsKeys (c d : Core) : Prop where
  keys : d.job.twinKeys = c.job.twinKeys
  irq : d.reg 0x1010 = c.reg 0x1010

namespace KeepsKeys
variable {c d e : Core}

theorem refl (c : Core) : KeepsKeys c c := ⟨rfl, rfl⟩

theorem trans (h : KeepsKeys c d) (k : KeepsKeys d e) : KeepsKeys c e := ⟨k.keys.trans h.keys, k.irq.trans h.irq⟩

theorem same (h : KeepsKeys c d) (keys : e.job.twinKeys = d.job.twinKeys := by rfl) (regs : e.regs = d.regs := by rfl) : KeepsKeys c e :=
  h.trans ⟨keys, by rw [Core.reg, Core.reg, regs]⟩

theorem steady {q : Bool} (h : KeepsKeys c d) (k : Steady q d e) : KeepsKeys c e := h.trans ⟨congrArg (fun j => j.twinKeys) k.job, k.reg _ (.inl (by decide))⟩

theorem setReg (h : KeepsKeys c d) {key v : Nat} (other : 0x1010 ≠ key := by decide) : KeepsKeys c (d.setReg key v) := h.trans ⟨rfl, d.reg_setReg_ne _ _ _ other⟩

theorem ite {p : Prop} [Decidable p] (h : KeepsKeys c d) (k : KeepsKeys c e) : KeepsKeys c (if p then d else e) := by
  split
  · exact h
  · exact k

theorem setFld (h : KeepsKeys c d) {key lo w v : Nat} (other : 0x1010 ≠ key := by decide) : KeepsKeys c (d.setFld key lo w v) := h.setReg other
theorem setBit (h : KeepsKeys c d) {key i : Nat} {b : Bool} (other : 0x1010 ≠ key := by decide) : KeepsKeys c (d.setBit key i b) := h.setReg other
theorem raise (h : KeepsKeys c d) {page i : Nat} (other : 0x1010 ≠ page * 4096 + 0x10 := by decide) : KeepsKeys c (d.raise page i) := h.setReg other

theorem setPair (h : KeepsKeys c d) {v : Nat} : KeepsKeys c (d.setPair v) := by
  unfold Core.setPair
  extract_lets c0 c1 held
  have first : KeepsKeys c c1 := h.setFld.raise.ite h.setFld
  exact first.ite first.setBit.raise

theorem sayForm (h : KeepsKeys c d) : KeepsKeys c d.sayForm := by
  have seen : KeepsKeys c d.seeJob := h.steady (q := true) (Steady.refl d).touch
  exact seen.same

theorem sendBlock (h : KeepsKeys c d) {b kind : Nat} : KeepsKeys c (d.sendBlock b kind) := by
  have read : KeepsKeys c (d.readBlock b).1 := h.steady (q := true) (Steady.refl d).readBlock
  exact read.same

theorem sendFill (h : KeepsKeys c d) : KeepsKeys c d.sendFill := by
  unfold Core.sendFill
  split
  · exact h
  · dsimp only
    split
    · exact h
    · split
      · exact h.same
      · exact sendBlock h.same

theorem agree (h : KeepsKeys c d) : KeepsKeys c d.agree := by
  unfold Core.agree
  split
  · exact h
  · dsimp only
    split
    · unfold Core.startFill
      have paired : KeepsKeys c { d.setPair 4 with job := { d.job with forming := false, form := none } } := (h.setPair).trans ⟨congrArg (fun j => j.twinKeys) (d.setPair_job 4).symm, rfl⟩
      exact sendFill paired.same
    · exact h

theorem if_state {p : Prop} [Decidable p] {t u : State} (h : KeepsKeys c t.core) (k : KeepsKeys c u.core) : KeepsKeys c (if p then t else u).core := by
  split
  · exact h
  · exact k

theorem formNow {t : State} (h : KeepsKeys c t.core) {attach : Bool} : KeepsKeys c (t.formNow attach).core := by
  unfold State.formNow
  extract_lets s1
  have asked : KeepsKeys c s1.core := h.same
  exact if_state asked (sayForm (setBit (setPair (d := (s1.onJob _).core) asked.same)))
end KeepsKeys

/-- What a forming message keeps of itself before this device answers it: its key, and a report when the key has changed. -/
def State.keepForm (s : State) (f : FormMsg) : State :=
  let s1 := s.onJob (fun j => { j with form := some f, twinKeys := j.twinKeys.filter (fun k => k.1 != s.core.twin) ++ [(s.core.twin, f.key)] })
  if s.core.job.twinKeys.any (fun k => k.1 == s.core.twin && k.2 != f.key) then s1.on (fun c => c.raise 1 2) else s1

theorem twinForm_keeps (s : State) (f : FormMsg) : KeepsKeys (s.keepForm f).core (twinForm s f).core := by
  have kept : KeepsKeys (s.keepForm f).core (s.keepForm f).core := .refl _
  unfold twinForm
  extract_lets twin changed s1 s2 s3
  have formed : KeepsKeys (s.keepForm f).core s3.core := by
    unfold s3
    split
    · exact kept.formNow
    · exact kept
  exact formed.agree

theorem State.keepForm_keys (s : State) (f : FormMsg) : (s.core.twin, f.key) ∈ (s.keepForm f).core.job.twinKeys := by
  unfold State.keepForm
  dsimp only
  split
  · exact List.mem_append_right _ (List.mem_singleton_self _)
  · exact List.mem_append_right _ (List.mem_singleton_self _)

theorem State.keepForm_reports (s : State) (f : FormMsg) (changed : ∃ k ∈ s.core.job.twinKeys, k.1 = s.core.twin ∧ k.2 ≠ f.key) :
    ((s.keepForm f).core.reg 0x1010).testBit 2 = true := by
  unfold State.keepForm
  dsimp only
  rw [if_pos (List.any_eq_true.mpr (by simpa using changed)), State.on_core]
  exact (Core.testBit_raise _ 1 (by decide) (by decide)).trans rfl

/-! ### TWIN_CTRL (R603, R622, R632, R633) -/

theorem names_twinCtrl : Names Reg.twinCtrl 7 0 { blk := 0x07, off := 0x094, w1s := 0xF } := ⟨by decide, by decide, by decide, by decide⟩

theorem State.devEffect_twinCtrl (s : State) (v old : Nat) : s.devEffect Reg.twinCtrl v old =
    s.onJob (fun j => { j with formDue := j.formDue || bit v 0, detach := j.detach || bit v 1, attachDue := j.attachDue || bit v 2, resignDue := j.resignDue || bit v 3 }) := rfl

theorem State.hostWord_twinCtrl {s : State} (live : s.live = true) {v : Nat} (hv : v < 2 ^ 32) :
    (s.hostWord Reg.twinCtrl v).core.job =
      { s.core.job with
        formDue := s.core.job.formDue || bit v 0, detach := s.core.job.detach || bit v 1, attachDue := s.core.job.attachDue || bit v 2, resignDue := s.core.job.resignDue || bit v 3 } ∧ (s.hostWord Reg.twinCtrl v).core.mem = s.core.mem := by
  rw [State.hostWord_dev live names_twinCtrl (by decide) hv, State.writeFields_eq _ _ _ _ rfl, State.devEffect_twinCtrl]
  exact ⟨rfl, rfl⟩
end Sys2Proof.Machine
end

section
/-!
The twin (O57): what is left when it is lost, and each command's clauses.
-/
namespace Sys2Proof.Machine
open Sys2Proof

-- Threads that wait for the kernel keep their stacks, and the check limits the memory of one text.
set_option Elab.async false

/-! ### A lost twin (R621, R623, R636) -/

/-- Registers that neither the loss of the twin nor what is sent for it changes, as long as no failover is decided here. -/
def Spared (key : Nat) : Prop := key < 0x7098 ∧ key ≠ 0x7010 ∨ key / 4096 % 32 = 8 ∧ key ≠ 0x8010 ∧ key ≠ Reg.trnTwinSpare

theorem Spared.lasting {key : Nat} (h : Spared key) : Lasting key := by
  unfold Spared at h
  unfold Lasting
  omega

/-- From `c` to `d` the spared registers stay. -/
def Spares (c d : Core) : Prop := ∀ key, Spared key → d.reg key = c.reg key

namespace Spares
variable {c d e : Core}

theorem refl (c : Core) : Spares c c := fun _ _ => rfl

theorem same (h : Spares c d) (regs : e.regs = d.regs := by rfl) : Spares c e := fun key k => by
  rw [Core.reg, regs]
  exact h key k

theorem steady {q : Bool} (h : Spares c d) (k : Steady q d e) : Spares c e := fun key l => (k.reg key l.lasting).trans (h key l)

theorem setReg (h : Spares c d) {key v : Nat} (k : ¬Spared key) : Spares c (d.setReg key v) := fun j l => (d.reg_setReg_ne key v j fun e => k (e ▸ l)).trans (h j l)

theorem setFld (h : Spares c d) {key lo w v : Nat} (k : ¬Spared key) : Spares c (d.setFld key lo w v) := h.setReg k
theorem setBit (h : Spares c d) {key i : Nat} {b : Bool} (k : ¬Spared key) : Spares c (d.setBit key i b) := h.setReg k
theorem raise (h : Spares c d) {page i : Nat} (k : ¬Spared (page * 4096 + 0x10)) : Spares c (d.raise page i) := h.setReg k

theorem ite {p : Prop} [Decidable p] (h : Spares c d) (k : Spares c e) : Spares c (if p then d else e) := by
  split
  · exact h
  · exact k

theorem fld (h : Spares c d) {key : Nat} (k : Spared key) (lo w : Nat) : d.fld key lo w = c.fld key lo w := by rw [Core.fld, Core.fld, h key k]

theorem twinState : ¬Spared Reg.twinState := by unfold Spared; decide
theorem twinSpare : ¬Spared Reg.trnTwinSpare := by unfold Spared; decide
theorem irq7 : ¬Spared (7 * 4096 + 0x10) := by unfold Spared; decide
theorem irq8 : ¬Spared (8 * 4096 + 0x10) := by unfold Spared; decide

theorem setPair (h : Spares c d) {v : Nat} : Spares c (d.setPair v) := by
  unfold Core.setPair
  extract_lets c0 c1 held
  have first : Spares c c1 := ((h.setFld twinState).raise irq7).ite (h.setFld twinState)
  exact first.ite ((first.setBit twinSpare).raise irq8)

theorem node (h : Spares c d) : d.node = c.node := h.fld (.inr (by decide)) _ _
theorem leader (h : Spares c d) : d.leader = c.leader := h.fld (.inl (by decide)) _ _

theorem adopted (h : Spares c d) : d.adopted? = c.adopted? := by
  rw [Core.adopted?, Core.adopted?, h.fld (.inl (by decide)), h.fld (.inl (by decide))]

theorem isLeader (h : Spares c d) : d.isLeader = c.isLeader := by rw [Core.isLeader, Core.isLeader, Core.isMe, Core.isMe, h.leader, h.node, h.adopted]
end Spares

/-- The strand work that a lost twin ends, and the pair's new state. -/
def State.pairLost (s : State) : State := s.loseStash.on (fun c => ((c.setPair 3).setBit Reg.twinState 3 false).raise 7 0)

/-- Nothing is kept for the twin any more. -/
def State.pairDropped (s : State) : State :=
  ((s.pairLost.core.job.held.foldl (fun (u : State) h => u.on (fun c => c.postAll h.nodes (.decision h.dec) h.src)) s.pairLost).onJob
    (fun j => { j with held := [], fill := none, forming := false, hbLast := none, spareKnown := false })).on
    (fun c => { c with mirrorQ := [], txns := c.txns.map (fun t => { t with stageSent := [] }) })

/-- The decisions that were kept of the twin go to the job. -/
def State.pairTold (s : State) : State :=
  ((s.pairDropped.core.job.kept.filter (fun k => k.1 == s.core.twin && k.2.commit)).foldl (fun (u : State) k => u.on (fun c => c.postJob (.decision k.2))) s.pairDropped).onJob
    (fun j => { j with kept := j.kept.filter (fun k => k.1 != s.core.twin) })

theorem State.declareLost_eq (s : State) (pair : s.core.pair ≠ 3) (twin : s.core.twin ≠ 0xFFFF) : s.declareLost =
    if s.core.jobState = 4 ∨ s.core.adopted? = some s.core.twin then s.pairDropped
    else if s.pairTold.core.leader = s.core.twin ∨ s.pairTold.core.isLeader then
      failoverReq s.pairTold s.core.twin s.pairTold.core.node (s.core.formed && !s.core.job.attaching)
    else s.pairTold.on (fun c => c.post c.leader 0 (.failoverReq s.core.twin c.node (s.core.formed && !s.core.job.attaching))) :=
  if_neg fun h => h.elim pair twin

theorem Core.setPair_pair (c : Core) {v : Nat} (hv : v < 8) : (c.setPair v).pair = v := by
  unfold Core.setPair
  extract_lets c0 c1 held
  have first : c1.pair = v := by
    have set : c0.pair = v := (c.fld_setFld_eq _ _ (by decide)).trans (Nat.mod_eq_of_lt hv)
    unfold c1
    split
    · exact (c0.fld_raise_ne _ _ (by decide)).trans set
    · exact set
  split
  · exact first
  · exact ((Core.fld_raise_ne _ _ _ (by decide)).trans (Core.fld_setBit_ne _ _ _ _ _ (by decide))).trans first

theorem State.pairLost_pair (s : State) : s.pairLost.core.pair = 3 := by
  rw [State.pairLost, State.on_core, Core.pair, Core.fld_raise_ne _ _ _ (by decide), Core.fld_setBit_other _ _ _ (by decide) (.inl (by decide))]
  exact Core.setPair_pair _ (by decide)

theorem State.leave_regs (s : State) (k : Nat) : (s.leave k).core.regs = s.core.regs := rfl

theorem State.dropRuns_regs (s : State) (k : Nat) : (s.on (fun c => c.dropRuns k)).core.regs = s.core.regs := rfl

theorem State.endDesc_regs (s : State) (k st : Nat) : (s.endDesc k st).core.regs = s.core.regs := by
  unfold State.endDesc
  rw [State.setStrand_core, State.leave_regs, State.dropRuns_regs]

theorem State.loseStash_regs (s : State) : s.loseStash.core.regs = s.core.regs :=
  List.foldlRecOn (motive := fun u : State => u.core.regs = s.core.regs) _ _ rfl fun u hu r _ => (u.endDesc_regs r.strand 0x50).trans hu

theorem State.pairLost_spares (s : State) : Spares s.core s.pairLost.core :=
  Spares.raise (Spares.setBit (Spares.setPair (Spares.same (Spares.refl s.core) s.loseStash_regs)) Spares.twinState) Spares.irq7

theorem State.postHeld_regs (s : State) (hs : List HeldDecision) :
    (hs.foldl (fun (u : State) h => u.on (fun c => c.postAll h.nodes (.decision h.dec) h.src)) s).core.regs = s.core.regs :=
  List.foldlRecOn (motive := fun u : State => u.core.regs = s.core.regs) _ _ rfl fun _ hu _ _ => hu

theorem State.dropQueue_regs (s : State) (f : Job → Job) (ts : Core → List Txn) : ((s.onJob f).on fun c => { c with mirrorQ := [], txns := ts c }).core.regs = s.core.regs := rfl

theorem State.pairDropped_regs (s : State) : s.pairDropped.core.regs = s.pairLost.core.regs := by
  rw [State.pairDropped, State.dropQueue_regs, State.postHeld_regs]

/-- Nothing is kept for the twin. -/
def Core.Bereft (c : Core) : Prop := c.mirrorQ = [] ∧ c.job.held = [] ∧ c.job.fill = none ∧ c.job.hbLast = none

theorem Core.Bereft.post {c : Core} (h : c.Bereft) {dst wadi : Nat} {b : Body} : (c.post dst wadi b).Bereft := h

theorem State.pairDropped_bereft (s : State) : s.pairDropped.core.Bereft := ⟨rfl, rfl, rfl, rfl⟩

/-- From `c` to `d` what is kept for the twin and the registers stay as they are but for reads of the job's group. -/
structure Tells (c d : Core) : Prop where
  queue : d.mirrorQ = c.mirrorQ
  job : d.job = c.job
  pair : Paired c d
  regs : Spares c d

theorem Tells.postJob {c d : Core} (h : Tells c d) (b : Body) : Tells c (d.postJob b) := by
  have seen : Steady true d d.seeJob := (Steady.refl d).touch
  exact ⟨(seen.queue rfl).trans h.queue, seen.job.trans h.job, h.pair.postJob, (h.regs.steady seen).same⟩

theorem State.pairTold_eq (s : State) : ∃ t : State, Tells s.pairDropped.core t.core ∧ s.pairTold = t.onJob (fun j => { j with kept := j.kept.filter (fun k => k.1 != s.core.twin) }) :=
  ⟨_, List.foldlRecOn (motive := fun u : State => Tells s.pairDropped.core u.core) _ _ ⟨rfl, rfl, .refl _, .refl _⟩ fun _ hu _ _ => hu.postJob _, rfl⟩

theorem State.pairDropped_pair (s : State) : s.pairDropped.core.pair = 3 := by
  rw [Core.pair, Core.fld, Core.reg, s.pairDropped_regs]
  exact s.pairLost_pair

theorem State.pairDropped_spares (s : State) : Spares s.core s.pairDropped.core := s.pairLost_spares.same s.pairDropped_regs

/-- Once the job has been told, nothing is kept for the twin, the pair is LOST, and the spared registers are as before. -/
theorem State.pairTold_facts (s : State) : s.pairTold.core.Bereft ∧ s.pairTold.core.pair = 3 ∧ Spares s.core s.pairTold.core := by
  obtain ⟨t, told, e⟩ := s.pairTold_eq
  obtain ⟨queue, held, fill, heard⟩ := s.pairDropped_bereft
  rw [e]
  refine ⟨⟨told.queue.trans queue, ?_, ?_, ?_⟩, told.pair.pair.trans s.pairDropped_pair, fun key k => (told.regs key k).trans (s.pairDropped_spares key k)⟩
  · exact (congrArg (fun j => j.held) told.job).trans held
  · exact (congrArg (fun j => j.fill) told.job).trans fill
  · exact (congrArg (fun j => j.hbLast) told.job).trans heard

/-- Whether a device that has lost its twin asks for the failover. -/
def State.Asks (s : State) : Prop := s.core.jobState ≠ 4 ∧ s.core.adopted? ≠ some s.core.twin

theorem State.declareLost_facts (s : State) (pair : s.core.pair ≠ 3) (twin : s.core.twin ≠ 0xFFFF) : s.declareLost.core.pair = 3
    ∧ (¬s.Asks ∨ s.core.leader ≠ s.core.twin ∧ s.core.isLeader = false → s.declareLost.core.Bereft)
    ∧ (s.Asks → s.core.leader ≠ s.core.twin → s.core.isLeader = false → s.declareLost.core.out.getLast? =
        some { dst := s.core.leader, wadi := 0, body := .failoverReq s.core.twin s.core.node (s.core.formed && !s.core.job.attaching) }) := by
  obtain ⟨bereft, three, spared⟩ := s.pairTold_facts
  rw [s.declareLost_eq pair twin, spared.leader, spared.isLeader]
  split
  case isTrue quiet =>
    refine ⟨s.pairDropped_pair, fun _ => s.pairDropped_bereft, fun asks => ?_⟩
    exact absurd quiet (not_or.mpr asks)
  case isFalse loud =>
    have asks : s.Asks := not_or.mp loud
    split
    case isTrue here =>
      refine ⟨(Paired.failoverReq (Paired.refl _)).pair.trans three, fun h => ?_, fun _ l n => ?_⟩
      · rcases h with quiet | ⟨l, n⟩
        · exact absurd asks quiet
        · exact absurd here (by simp [l, n])
      · exact absurd here (by simp [l, n])
    case isFalse =>
      refine ⟨(Paired.refl _).post.pair.trans three, fun _ => bereft.post, fun _ _ _ => ?_⟩
      rw [State.on_core, Core.post, spared.leader, spared.node]
      exact List.getLast?_concat

theorem State.on_congr {s : State} {f : Core → Core} {c : Core} (h : f s.core = c) : s.on f = { s with core := c } := congrArg (fun c : Core => ({ s with core := c } : State)) h

theorem fillEnd_eq (s : State) {f : Fill} (running : s.core.job.fill = some f) : fillEnd s = s.onJob (fun j => { j with fill := some { f with
    sentEnd := f.sentEnd || (f.sends && decide (s.core.mirrorD / 64 ≤ f.acked)), gotEnd := f.gotEnd || (f.receives && decide (s.core.mirrorD / 64 ≤ f.got)) } }) := by
  unfold fillEnd
  exact State.on_congr (by rw [running])

theorem twinLoss_eq (s : State) {t : Nat} (heard : s.core.job.hbLast = some t) (formed : s.core.formed = true) (late : t + 200000 ≤ s.core.up) : twinLoss s = s.declareLost := by
  unfold twinLoss
  rw [heard]
  exact if_pos (by rw [formed, Bool.true_and]; exact decide_eq_true late)

theorem twinLoss_unformed (s : State) (apart : s.core.formed = false) : twinLoss s = s := by
  unfold twinLoss
  rw [apart]
  split <;> rfl

theorem Core.pair_of_formed (c : Core) (formed : c.formed = true) : c.pair ≠ 3 := by
  intro three
  rw [Core.formed, three] at formed
  exact absurd formed (by decide)

/-- Settles O57: each command is its function of the pair, whose clauses the lemmas above give. -/
theorem twin : Obligations.Twin := by
  unfold Obligations.Twin
  intro s serves
  dsimp only
  refine ⟨?_, ?_, ?_, ?_, ?_, ?_, ?_, ?_, ?_, ?_, ?_, ?_, ?_⟩
  · intro m
    refine ⟨fun mine => ?_, fun other => (next_ifServes serves _).trans (next_congr (mirrorBlock_other s m other))⟩
    obtain ⟨t, e, stored⟩ := mirrorBlock_mine s m mine
    refine ⟨_, _, (next_ifServes serves _).trans (next_congr e), List.getLast?_concat, rfl, rfl, stored⟩
  · exact fun addr kind m h found => ⟨_, next_ifServes serves _, mirrorAck_mirror s addr h found⟩
  · intro addr f running kind sends next
    refine ⟨_, (next_ifServes serves _).trans (next_congr (mirrorAck_fill s addr running kind sends next)), ?_, rfl⟩
    exact Core.sendFill_fill _ (f := { f with acked := f.acked + 1 }) rfl
  · exact fun addr low on => (next_ifServes serves _).trans (next_congr (mirrorResend_eq s addr low on))
  · exact fun formed due => ⟨_, (next_ifServes serves _).trans (next_congr (twinHeartbeatSend_eq s formed due)), rfl, rfl, rfl⟩
  · intro formed
    refine ⟨_, (next_ifServes serves _).trans (next_congr (twinHeartbeat_eq s formed)), rfl, ?_, ?_⟩
    · rw [State.onJob_fld, State.on_core]
      exact Core.fld_setBit_eq _ _ _ (by decide)
    · rw [Core.pair, Core.pair, State.onJob_fld, State.on_core]
      exact Core.fld_setBit_other _ _ _ (by decide) (.inl (by decide))
  · intro apart
    refine ⟨(next_ifServes serves _).trans (next_congr (if_neg ?_)), (next_ifServes serves _).trans (next_congr (if_neg ?_)), (next_ifServes serves _).trans (next_congr (twinLoss_unformed s apart))⟩
    · rw [apart]
      exact Bool.false_ne_true
    · rw [apart]
      exact Bool.false_ne_true
  · intro f
    have kept := twinForm_keeps s f
    refine ⟨_, next_ifServes serves _, kept.keys ▸ s.keepForm_keys f, fun changed => ?_⟩
    exact kept.irq ▸ s.keepForm_reports f changed
  · intro f running
    exact ⟨_, next_ifServes serves _, fillEnd_eq s running⟩
  · intro live
    have form := State.hostWord_twinCtrl live (v := 1) (by decide)
    have detach := State.hostWord_twinCtrl live (v := 2) (by decide)
    have attach := State.hostWord_twinCtrl live (v := 4) (by decide)
    have resigns := State.hostWord_twinCtrl live (v := 8) (by decide)
    refine ⟨⟨_, rfl, form.1.trans ?_, form.2⟩, ⟨_, rfl, detach.1.trans ?_, detach.2⟩, ⟨_, rfl, attach.1.trans ?_, attach.2⟩, ⟨_, rfl, resigns.1.trans ?_, resigns.2⟩⟩
    · simp only [show bit 1 0 = true from rfl, show bit 1 1 = false from rfl, show bit 1 2 = false from rfl, show bit 1 3 = false from rfl, Bool.or_true, Bool.or_false]
    · simp only [show bit 2 0 = false from rfl, show bit 2 1 = true from rfl, show bit 2 2 = false from rfl, show bit 2 3 = false from rfl, Bool.or_true, Bool.or_false]
    · simp only [show bit 4 0 = false from rfl, show bit 4 1 = false from rfl, show bit 4 2 = true from rfl, show bit 4 3 = false from rfl, Bool.or_true, Bool.or_false]
    · simp only [show bit 8 0 = false from rfl, show bit 8 1 = false from rfl, show bit 8 2 = false from rfl, show bit 8 3 = true from rfl, Bool.or_true, Bool.or_false]
  · exact fun t heard formed known late => ⟨_, (next_ifServes serves _).trans (next_congr (twinLoss_eq s heard formed late)), s.declareLost_facts (s.core.pair_of_formed formed) known⟩
  · exact fun pair known => ⟨_, next_ifServes serves _, s.declareLost_facts pair known⟩
  · exact fun quiet => (next_ifServes serves _).trans (next_congr (if_pos quiet))
end Sys2Proof.Machine
end

section
/-!
SUPPORT. What a codeword's own wavelengths give back: the symbols in their order, none of them in error (R523).
-/
namespace Sys2Proof.Machine
open Sys2Proof

-- Threads that wait for the kernel keep their stacks, and the check limits the memory of one text.
set_option Elab.async false

theorem flatten_blocks {α : Type} (f : Nat → α) : ∀ n, ((upto n).map (fun i => (upto 8).map (fun w => f (8 * i + w)))).flatten = (upto (8 * n)).map f
  | 0 => rfl
  | n + 1 => by
    have blocks := flatten_blocks f n
    unfold upto at blocks ⊢
    rw [List.range_succ (n := n), List.map_append, List.flatten_append, blocks, Nat.mul_succ, List.range_add, List.map_append, List.map_map]
    simp [Function.comp_def]

theorem map_nth_upto (l : List Nat) : (upto l.length).map (nth 0 l) = l := by
  refine List.ext_getElem (by simp [upto]) fun i h _ => ?_
  have inside : i < l.length := by simpa [upto] using h
  simp [upto, nth, inside]

theorem unstripe_stripe (cw : List Nat) (h : cw.length = 544) : unstripe (stripe cw) = cw := by
  have wave (w i : Nat) (hw : w < 8) (hi : i < 68) : nth 0 (nth [] (stripe cw) w) i = nth 0 cw (8 * i + w) := by
    rw [stripe, nth_map_upto _ _ hw, nth_map_upto _ _ hi]
  have blocks : unstripe (stripe cw) = ((upto 68).map (fun i => (upto 8).map (fun w => nth 0 cw (8 * i + w)))).flatten := by
    refine congrArg List.flatten (List.map_congr_left fun i hi => List.map_congr_left fun w hw => wave w i ?_ ?_)
    · exact List.mem_range.mp hw
    · exact List.mem_range.mp hi
  rw [blocks, flatten_blocks, show 8 * 68 = cw.length from h.symm]
  exact map_nth_upto cw

theorem codewordOf_length (w : Codeword) : (codewordOf w).length = 544 := by
  simp only [codewordOf, rsEncode, upto, List.length_append, List.length_map, List.length_range]

theorem codewordOf_symbol (w : Codeword) {x : Nat} (h : x ∈ codewordOf w) : x < 1024 := by
  simp only [codewordOf, rsEncode, List.mem_append, List.mem_map] at h
  rcases h with ⟨i, -, rfl⟩ | ⟨i, -, rfl⟩
  · exact Nat.mod_lt _ (by decide)
  · exact Nat.mod_lt _ (by decide)

theorem zip_self_filter {l : List Nat} (h : ∀ x ∈ l, x < 1024) : (l.zip l).filter (fun p => p.1 % 1024 != p.2) = [] := by
  induction l with
  | nil => rfl
  | cons x l ih =>
    have small := h x List.mem_cons_self
    rw [List.zip_cons_cons, List.filter_cons_of_neg (by simp [Nat.mod_eq_of_lt small])]
    exact ih fun y hy => h y (List.mem_cons_of_mem _ hy)

theorem symbolErrors_stripe (w : Codeword) : symbolErrors (stripe (codewordOf w)) (codewordOf w) = 0 := by
  rw [symbolErrors, unstripe_stripe _ (codewordOf_length w), zip_self_filter fun _ => codewordOf_symbol w]
  rfl
end Sys2Proof.Machine
end

section
/-!
SUPPORT. A port's own state through credits, flits, packets and its loss: what each leaves of the port, of the numbers accepted and of the ports' states.
-/
namespace Sys2Proof.Machine
open Sys2Proof

-- Threads that wait for the kernel keep their stacks, and the check limits the memory of one text.
set_option Elab.async false

/-! ### One port -/

theorem Core.grant_keeps {α : Type} (c : Core) (p k q : Nat) {g : PortSt → α} (keep : ∀ x m, g { x with granted := m } = g x) : g ((c.grant p k).port q) = g (c.port q) := by
  unfold Core.grant
  split
  · rfl
  · dsimp only
    split
    · rfl
    · rw [Core.put_port]
      exact c.port_setPort_keeps p q g fun x => keep x _

theorem Core.freeFlits_keeps {α : Type} (c : Core) (p k n q : Nat) {g : PortSt → α} (granted : ∀ x m, g { x with granted := m } = g x) (held : ∀ x m, g { x with held := m } = g x) :
    g ((c.freeFlits p k n).port q) = g (c.port q) := by
  unfold Core.freeFlits
  rw [Core.grant_keeps _ _ _ _ granted]
  exact c.port_setPort_keeps p q g fun x => held x _

theorem Core.grant_regs (c : Core) (p k : Nat) : (c.grant p k).regs = c.regs := by
  unfold Core.grant
  split
  · rfl
  · dsimp only
    split <;> rfl

theorem Core.grant_out (c : Core) (p k : Nat) : (c.grant p k).out = c.out := by
  unfold Core.grant
  split
  · rfl
  · dsimp only
    split <;> rfl

theorem Core.looped_of_regs {c d : Core} (h : d.regs = c.regs) (p : Nat) : d.looped p = c.looped p := by rw [Core.looped, Core.looped, Core.fld, Core.fld, Core.reg, Core.reg, h]

theorem Core.setPort_length (c : Core) (p : Nat) (f : PortSt → PortSt) : (c.setPort p f).seif.ports.length = c.seif.ports.length := length_setNth _ _ _

theorem portKey_offset (p : Nat) {o : Nat} (ho : o < 4096) : portKey p (fun q => qreg q 8 o) % 4096 = o := by
  unfold portKey bankKey qreg
  dsimp only
  omega

/-- A count of a port is not its control register. -/
theorem Core.looped_inc (c : Core) (p : Nat) {o : Nat} (ho : o < 4096) (other : o ≠ 0x64) (n q : Nat) : (c.inc (portKey p (fun q => qreg q 8 o)) n).looped q = c.looped q := by
  have apart : portKey q Reg.seifPortCtrl ≠ portKey p (fun q => qreg q 8 o) := fun e => by
    have offsets : portKey q Reg.seifPortCtrl % 4096 = portKey p (fun q => qreg q 8 o) % 4096 := congrArg (· % 4096) e
    rw [portKey_offset p ho, show Reg.seifPortCtrl = fun q => qreg q 8 0x64 from rfl, portKey_offset q (by decide)] at offsets
    exact other offsets.symm
  unfold Core.looped
  rw [Core.inc, Core.incFld, Core.fld_setFld_ne _ _ _ _ _ _ apart]

/-- The message of link control that a port sends. -/
def Core.linkMsg (c : Core) (p : Nat) (b : Body) : Msg := { dst := 0, wadi := 0, body := b, port := some p, loop := c.looped p }

theorem Core.put_wire (c : Core) (p : Nat) (b : Body) : (c.put p b).wire = c.wire ++ [c.linkMsg p b] := rfl

theorem Core.nak_facts (c : Core) {p : Nat} (h : p < c.seif.ports.length) :
    (c.nak p).port p = { c.port p with rxWait := true } ∧ (c.nak p).wire = c.wire ++ [c.linkMsg p (.linkNak (c.port p).rxSeq)] :=
  ⟨c.port_setPort (fun x => { x with rxWait := true }) h, rfl⟩

/-! ### Flits (R531, R534) -/

/-- The packet that a flit belongs to, as it stands before the flit. -/
def Core.flitAsm (c : Core) (p : Nat) (f : Flit) (head : Nat) : Asm :=
  if f.sop then { cls := f.cls, n := 0, kept := 0, own := c.isMe (c.aliasOf (field head 0 16)).2 && !collHeader f.wadi head }
  else sget { cls := f.cls, n := 0, kept := 0, own := false } (c.port p).asm f.wadi

/-- Whether the receive buffer keeps the flit. -/
def Core.flitStays (c : Core) (p : Nat) (f : Flit) (head : Nat) : Bool :=
  !(c.flitAsm p f head).own && decide ((c.flitAsm p f head).kept < (c.port p).quota (f.wadi * 2 + f.cls) / 2)

/-- The port once a flit in order is taken in. -/
def PortSt.takes (x : PortSt) (f : Flit) (a : Asm) (stays : Bool) : PortSt :=
  { x with rxSeq := (x.rxSeq + 1) % 4096, rxWait := false, held := sset 0 x.held (f.wadi * 2 + f.cls) (sget 0 x.held (f.wadi * 2 + f.cls) + b2n stays),
           granted := sset 0 x.granted (f.wadi * 2 + f.cls) (sget 0 x.granted (f.wadi * 2 + f.cls) - 1),
           asm := if f.eop then sdel x.asm f.wadi else sput x.asm f.wadi { a with n := a.n + 1, kept := a.kept + b2n stays },
           ready := if f.eop then x.ready ++ [(f.wadi, { a with n := a.n + 1, kept := a.kept + b2n stays })] else x.ready }

/-- The machine once a flit in order is taken in. -/
def Core.taken (c : Core) (p : Nat) (f : Flit) (head : Nat) : Core := c.setPort p (fun x => x.takes f (c.flitAsm p f head) (c.flitStays p f head))

theorem Core.takeFlit_eq (c : Core) (p : Nat) (f : Flit) (head : Nat) (order : f.seq = (c.port p).rxSeq) :
    c.takeFlit p f head = if c.flitStays p f head then c.taken p f head else (c.taken p f head).grant p (f.wadi * 2 + f.cls) := by
  unfold Core.takeFlit
  exact if_neg (not_not_intro order)

/-- A flit in order: the next SEQ, no replay asked for, and the buffer's flits. -/
theorem Core.takeFlit_port (c : Core) {p : Nat} (f : Flit) (head : Nat) (order : f.seq = (c.port p).rxSeq) (h : p < c.seif.ports.length) :
    ((c.takeFlit p f head).port p).rxSeq = ((c.port p).rxSeq + 1) % 4096 ∧ ((c.takeFlit p f head).port p).rxWait = false
    ∧ ((c.takeFlit p f head).port p).held = sset 0 (c.port p).held (f.wadi * 2 + f.cls) (sget 0 (c.port p).held (f.wadi * 2 + f.cls) + b2n (c.flitStays p f head))
    ∧ (c.takeFlit p f head).regs = c.regs := by
  have own : (c.taken p f head).port p = (c.port p).takes f (c.flitAsm p f head) (c.flitStays p f head) := c.port_setPort _ h
  rw [c.takeFlit_eq p f head order]
  split
  · rw [own]
    exact ⟨rfl, rfl, rfl, rfl⟩
  · refine ⟨?_, ?_, ?_, Core.grant_regs _ _ _⟩
    · exact (Core.grant_keeps _ _ _ _ (g := fun x => x.rxSeq) fun _ _ => rfl).trans (congrArg (fun x => x.rxSeq) own)
    · exact (Core.grant_keeps _ _ _ _ (g := fun x => x.rxWait) fun _ _ => rfl).trans (congrArg (fun x => x.rxWait) own)
    · exact (Core.grant_keeps _ _ _ _ (g := fun x => x.held) fun _ _ => rfl).trans (congrArg (fun x => x.held) own)

/-- A flit of a packet that goes on, with less than half of the allotment kept, stays in the buffer. -/
theorem Core.flitStays_of_half (c : Core) (p : Nat) (f : Flit) (head : Nat) (goes : f.sop = false)
    (half : ∀ a, sfind (c.port p).asm f.wadi = some a → a.own = false ∧ a.kept < (c.port p).quota (f.wadi * 2 + f.cls) / 2) : c.flitStays p f head = true := by
  have known : (c.flitAsm p f head).own = false ∧ (c.flitAsm p f head).kept < (c.port p).quota (f.wadi * 2 + f.cls) / 2 := by
    rw [Core.flitAsm, goes, if_neg Bool.false_ne_true, sget_eq]
    cases found : sfind (c.port p).asm f.wadi with
    | none =>
      refine ⟨rfl, ?_⟩
      change 0 < (c.port p).quota (f.wadi * 2 + f.cls) / 2
      unfold PortSt.quota
      omega
    | some a => exact half a found
  rw [Core.flitStays, known.1, decide_eq_true known.2]
  rfl

/-! ### Codewords (R523, R524) -/

theorem Core.takeHeader_idle (c : Core) (p h head : Nat) (idle : flitKind h = 0) : c.takeHeader p h head = c := by
  unfold Core.takeHeader
  rw [idle]
  rfl

theorem Core.takeHeader_data (c : Core) (p h head : Nat) (data : flitKind h = 1) : c.takeHeader p h head = c.takeFlit p (flitOf h) head := by
  unfold Core.takeHeader
  exact if_pos data

theorem Core.takeHeaders_one (c : Core) (p : Nat) (flits : List Byte) (idle : ∀ i, 1 ≤ i → i < 5 → flitKind (flitHeader flits i) = 0) :
    (upto 5).foldl (fun d i => d.takeHeader p (flitHeader flits i) (flitPacket flits i)) c = c.takeHeader p (flitHeader flits 0) (flitPacket flits 0) := by
  rw [show upto 5 = [0, 1, 2, 3, 4] from rfl]
  simp only [List.foldl_cons, List.foldl_nil]
  rw [Core.takeHeader_idle _ _ _ _ (idle 4 (by decide) (by decide)), Core.takeHeader_idle _ _ _ _ (idle 3 (by decide) (by decide)),
    Core.takeHeader_idle _ _ _ _ (idle 2 (by decide) (by decide)), Core.takeHeader_idle _ _ _ _ (idle 1 (by decide) (by decide))]

/-- Whether a port carries codewords (R552). -/
theorem Core.trained_iff (c : Core) (p : Nat) : c.trained p = true ↔ c.portState p = 2 ∨ c.portState p = 4 := by simp [Core.trained]

theorem codewordReceive_bad (c : Core) (p : Nat) (w : Codeword) (waves : List (List Nat)) (linkUp : c.trained p = true)
    (bad : 15 < symbolErrors waves (codewordOf w) ∨ ∃ i, i < 5 ∧ (flitOf (flitHeader w.flits i)).hchk = false) :
    codewordReceive c p w waves = (c.inc (portKey p Reg.seifFecUncorr) 1).nak p := by
  have lost : decide (symbolErrors waves (codewordOf w) > 15) = true ∨ ((upto 5).any fun i => !(flitOf (flitHeader w.flits i)).hchk) = true := by
    rcases bad with many | ⟨i, hi, check⟩
    · exact .inl (decide_eq_true many)
    · exact .inr (List.any_eq_true.mpr ⟨i, List.mem_range.mpr hi, by rw [check]; rfl⟩)
  unfold codewordReceive
  extract_lets errors c0 c1 c2
  rw [if_neg (by rw [linkUp]; decide)]
  exact if_pos (by simpa using lost)

/-- The machine as a good codeword's flits find it. -/
def Core.decoded (c : Core) (p : Nat) (w : Codeword) (waves : List (List Nat)) : Core :=
  let errors := symbolErrors waves (codewordOf w)
  let c0 := c.setPort p (fun x => { x with rxCount := w.count % 2 ^ 20 })
  if errors = 0 then c0 else c0.inc (portKey p Reg.seifFecCorr) errors

theorem codewordReceive_one (c : Core) (p : Nat) (w : Codeword) (waves : List (List Nat)) (linkUp : c.trained p = true) (few : symbolErrors waves (codewordOf w) ≤ 15)
    (data : flitKind (flitHeader w.flits 0) = 1) (first : (flitOf (flitHeader w.flits 0)).hchk = true)
    (rest : ∀ i, 1 ≤ i → i < 5 → (flitOf (flitHeader w.flits i)).hchk = true ∧ flitKind (flitHeader w.flits i) = 0) :
    codewordReceive c p w waves =
      let c2 := (c.decoded p w waves).takeFlit p (flitOf (flitHeader w.flits 0)) (flitPacket w.flits 0)
      if (c2.port p).rxSeq = (c.port p).rxSeq then c2 else c2.put p (.linkAck (((c2.port p).rxSeq + 4095) % 4096)) := by
  have checks : ((upto 5).any fun i => !(flitOf (flitHeader w.flits i)).hchk) = false := by
    refine List.any_eq_false.mpr fun i hi => ?_
    rcases Nat.eq_zero_or_pos i with rfl | later
    · simp [first]
    · simp [(rest i later (List.mem_range.mp hi)).1]
  unfold codewordReceive
  extract_lets errors c0 c1 c2 c2'
  have good : ¬(decide (errors > 15) || (upto 5).any fun i => !(flitOf (flitHeader w.flits i)).hchk) = true := by
    rw [checks, Bool.or_false, decide_eq_true_eq]
    exact Nat.not_lt.mpr few
  have same : c2 = c2' := by
    unfold c2 c2'
    rw [Core.takeHeaders_one _ _ _ fun i low high => (rest i low high).2, Core.takeHeader_data _ _ _ _ data]
    rfl
  rw [if_neg (by rw [linkUp]; decide), if_neg good, same]
end Sys2Proof.Machine
end

section
/-!
SUPPORT. The numbers of accepted packets through the queues (R535), and a port's state while its packets move away (R536, R537).
-/
namespace Sys2Proof.Machine
open Sys2Proof

-- Threads that wait for the kernel keep their stacks, and the check limits the memory of one text.
set_option Elab.async false

/-- From `c` to `d` the numbers accepted stay. -/
structure KeepsHops (c d : Core) : Prop where
  hops : d.seif.hopRx = c.seif.hopRx

namespace KeepsHops
variable {c d e : Core}

theorem refl (c : Core) : KeepsHops c c := ⟨rfl⟩

theorem same (h : KeepsHops c d) (hops : e.seif.hopRx = d.seif.hopRx := by rfl) : KeepsHops c e := ⟨hops.trans h.hops⟩

theorem ite {p : Prop} [Decidable p] (h : KeepsHops c d) (k : KeepsHops c e) : KeepsHops c (if p then d else e) := by
  split
  · exact h
  · exact k

theorem steady {q : Bool} (h : KeepsHops c d) (k : Steady q d e) : KeepsHops c e := ⟨(congrArg (fun x : Seif => x.hopRx) k.seif).trans h.hops⟩

theorem setReg (h : KeepsHops c d) {key v : Nat} : KeepsHops c (d.setReg key v) := ⟨h.hops⟩
theorem inc (h : KeepsHops c d) {key n : Nat} : KeepsHops c (d.inc key n) := h.setReg
theorem inc64 (h : KeepsHops c d) {lo n : Nat} : KeepsHops c (d.inc64 lo n) := h.setReg.setReg
theorem setPort (h : KeepsHops c d) {p : Nat} {f : PortSt → PortSt} : KeepsHops c (d.setPort p f) := ⟨h.hops⟩
theorem put (h : KeepsHops c d) {p : Nat} {b : Body} : KeepsHops c (d.put p b) := ⟨h.hops⟩
theorem grant (h : KeepsHops c d) {p k : Nat} : KeepsHops c (d.grant p k) := h.ite (h.ite h.setPort.put)
theorem freeFlits (h : KeepsHops c d) {p k n : Nat} : KeepsHops c (d.freeFlits p k n) := h.setPort.grant
theorem raise (h : KeepsHops c d) {page i : Nat} : KeepsHops c (d.raise page i) := h.setReg
theorem dropPacket (h : KeepsHops c d) {p : Nat} : KeepsHops c (d.dropPacket p) := h.inc.raise
theorem touch (h : KeepsHops c d) {acc : Acc} {a n : Nat} : KeepsHops c (d.touch acc a n).1 := h.steady (q := true) (Steady.refl d).touch

theorem sendFlit (h : KeepsHops c d) {p : Nat} : KeepsHops c (d.sendFlit p) := by
  unfold Core.sendFlit
  extract_lets x
  split
  · exact h
  · extract_lets k x1 c1 c2
    have sent : KeepsHops c c2 := by
      unfold c2
      split
      · exact h.setPort.ite h.setPort.freeFlits
      · exact h.setPort
    exact sent.ite (inc64 sent.same)

theorem iterate {f : Core → Core} (step : ∀ {d}, KeepsHops c d → KeepsHops c (f d)) : ∀ (n : Nat) {d : Core}, KeepsHops c d → KeepsHops c (iter f n d)
  | 0, _, h => h
  | n + 1, _, h => iterate step n (step h)

theorem drainPort (h : KeepsHops c d) {p : Nat} : KeepsHops c (d.drainPort p) := (iterate (fun hd => hd.sendFlit) _ h).ite h

theorem enqueue (h : KeepsHops c d) {p cls flits bytes : Nat} {m : Msg} {entry : Option (Nat × Nat)} : KeepsHops c (d.enqueue p m cls flits bytes entry) :=
  drainPort (setPort h.same)

theorem aliasOf (h : KeepsHops c d) {dst : Nat} : KeepsHops c (d.aliasOf dst).1 := by
  unfold Core.aliasOf
  split
  · exact h
  · exact h.touch

theorem byTable (h : KeepsHops c d) {dst wadi cls : Nat} : KeepsHops c (d.byTable dst wadi cls).1 := h.ite h.touch

theorem routed (h : KeepsHops c d) {m : Msg} {flow cls : Nat} {entry : Option Nat} : KeepsHops c (d.routed m flow cls entry).1 := by
  unfold Core.routed
  dsimp only
  split
  · split
    · exact h
    · split
      · exact h.byTable
      · exact h
  · split
    · exact h.aliasOf.byTable
    · exact h.aliasOf
end KeepsHops

/-- A packet's number, counted as accepted, and its bytes. -/
def Core.accepted (c : Core) (p : Nat) (m : Packet) : Core :=
  let g := portGroup (c.portRole p) * 16 + m.wadi
  { c with seif := { c.seif with hopRx := sset [] c.seif.hopRx g ((m.hopseq :: sget [] c.seif.hopRx g).take 4096) } }.inc64 (portKey p Reg.seifRxLo) (32 + 64 * m.blocks)

theorem Core.accepted_hops (c : Core) (p : Nat) (m : Packet) : m.hopseq ∈ sget [] (c.accepted p m).seif.hopRx (portGroup (c.portRole p) * 16 + m.wadi) := by
  have counted : (c.accepted p m).seif.hopRx = sset [] c.seif.hopRx (portGroup (c.portRole p) * 16 + m.wadi)
      ((m.hopseq :: sget [] c.seif.hopRx (portGroup (c.portRole p) * 16 + m.wadi)).take 4096) := (KeepsHops.inc64 (KeepsHops.refl _)).hops
  rw [counted, sget_sset_eq]
  exact List.mem_cons_self

/-- What a port does with a packet whose number is new, by where the packet goes. -/
def Core.takesPacket (c : Core) (p : Nat) (m : Packet) (r : Nat × Asm) : Core :=
  let on : Msg := { dst := m.dst, wadi := m.wadi, body := .packet (packetOn m) }
  match c.routed on m.flow r.2.cls (some (c.portRole p)) with
  | (d, .own) =>
    let d := if packetGood m then d else d.inc (portKey p Reg.seifCrc) 1
    if m.kind = 1 ∧ packetGood m = true ∧ r.2.own = false ∧ 2 ≤ m.wadi ∧ m.wadi ≠ 14 then d.setPort p (fun x => { x with arrived := x.arrived ++ [(m.wadi, r.2.cls, r.2.kept)] })
    else d.freeFlits p (r.1 * 2 + r.2.cls) r.2.kept
  | (d, .exits e cls) => d.enqueue e on cls r.2.n (32 + 64 * m.blocks) (some (p, r.2.kept))
  | (d, _) =>
    let d := (d.dropPacket p).freeFlits p (r.1 * 2 + r.2.cls) r.2.kept
    { d with out := d.out ++ [{ dst := m.src, wadi := 0, body := .unreachable m.dst m.wadi m.tag }] }

theorem Core.takesPacket_hops (c : Core) (p : Nat) (m : Packet) (r : Nat × Asm) : KeepsHops c (c.takesPacket p m r) := by
  unfold Core.takesPacket
  extract_lets on
  have away : KeepsHops c (c.routed on m.flow r.2.cls (some (c.portRole p))).1 := (KeepsHops.refl c).routed
  generalize c.routed on m.flow r.2.cls (some (c.portRole p)) = x at away ⊢
  obtain ⟨d, way⟩ := x
  split
  case h_1 e =>
    cases e
    have checked : KeepsHops c (if packetGood m then d else d.inc (portKey p Reg.seifCrc) 1) := away.ite away.inc
    exact checked.setPort.ite checked.freeFlits
  case h_2 e =>
    cases e
    exact KeepsHops.enqueue away
  case h_3 e =>
    cases e
    exact KeepsHops.same (KeepsHops.freeFlits (KeepsHops.dropPacket away))

theorem packetReceive_eq (c : Core) (p : Nat) (m : Packet) {r : Nat × Asm} (found : (c.port p).ready.find? (fun r => r.1 == m.wadi && r.2.n == packetFlits m.blocks) = some r) :
    packetReceive c p m =
      if (sget [] c.seif.hopRx (portGroup (c.portRole p) * 16 + m.wadi)).contains m.hopseq then
        (c.setPort p (fun x => { x with ready := x.ready.erase r })).freeFlits p (r.1 * 2 + r.2.cls) r.2.kept
      else ((c.setPort p (fun x => { x with ready := x.ready.erase r })).accepted p m).takesPacket p m r := by
  unfold packetReceive
  dsimp only
  rw [found]
  rfl

/-! ### The loss of a port (R536, R537) -/

namespace Paired
variable {c d : Core}

theorem moveTo (h : Paired c d) {p r cls base : Nat} {e : TxEntry} : Paired c (d.moveTo p r cls base e) := by
  unfold Core.moveTo
  exact setPort (h.same.ite h)

theorem stranded (h : Paired c d) {p : Nat} {e : TxEntry} : Paired c (d.stranded p e) := by
  unfold Core.stranded
  extract_lets c1 c2
  have freed : Paired c c2 := by
    unfold c2
    split
    · exact h.dropPacket.freeFlits
    · exact h.dropPacket
  split
  · exact freed.same
  · exact freed.same
  · exact freed

theorem evacuate (h : Paired c d) {p : Nat} : Paired c (d.evacuate p) := by
  unfold Core.evacuate
  extract_lets x pend c1 c2 base c3
  have emptied : Paired c c2 := foldl (fun _ hd => hd.setPort) h.setPort
  have moved : Paired c c3 := by
    refine foldl (fun {d} e hd => ?_) emptied
    extract_lets flow
    have away : Paired c (d.routed e.msg flow e.cls (some (d.portRole p))).1 := hd.routed
    generalize d.routed e.msg flow e.cls (some (d.portRole p)) = x at away ⊢
    obtain ⟨u, way⟩ := x
    split
    case h_1 e =>
      cases e
      exact ite away (moveTo away)
    case h_2 e =>
      cases e
      exact stranded away
  exact foldl (fun _ hd => hd.drainPort) moved
end Paired
end Sys2Proof.Machine
end

section
/-!
What arrives on and leaves a port (O55).
-/
namespace Sys2Proof.Machine
open Sys2Proof

-- Threads that wait for the kernel keep their stacks, and the check limits the memory of one text.
set_option Elab.async false

/-! ### Acknowledgements (R534) -/

theorem any_of_known {l : List (Nat × Nat)} {seq : Nat} (known : ∃ r ∈ l, r.1 = seq) : (l.any fun r => r.1 == seq) = true := by
  obtain ⟨r, mem, e⟩ := known
  exact List.any_eq_true.mpr ⟨r, mem, beq_iff_eq.mpr e⟩

theorem any_of_unknown {l : List (Nat × Nat)} {seq : Nat} (unknown : ∀ r ∈ l, r.1 ≠ seq) : (l.any fun r => r.1 == seq) = false :=
  List.any_eq_false.mpr fun r mem => by
    rw [beq_iff_eq]
    exact unknown r mem

theorem linkAck_eq (c : Core) (p seq a e : Nat) {rest : List (Nat × Nat)} (first : (c.port p).replay = (a, e) :: rest) (known : ∃ r ∈ (c.port p).replay, r.1 = seq) :
    linkAck c p seq = (c.release p (fun n => seqAfter a seq n)).drainPort p := by
  unfold linkAck
  rw [any_of_known known, first]
  rfl

theorem linkAck_unknown (c : Core) (p seq : Nat) (unknown : ∀ r ∈ (c.port p).replay, r.1 ≠ seq) : linkAck c p seq = c := by
  unfold linkAck
  rw [any_of_unknown unknown]
  split <;> rfl

theorem linkNak_unknown (c : Core) (p seq : Nat) (unknown : ∀ r ∈ (c.port p).replay, r.1 ≠ seq) : linkNak c p seq = c := by
  unfold linkNak
  exact if_pos (by rw [any_of_unknown unknown]; rfl)

/-- The replays in succession from one SEQ, once a NAK names it (R534). -/
def Core.replays (c : Core) (p seq : Nat) : Nat :=
  let c1 := c.release p (fun s => s == seq)
  if (c1.port p).stallSeq == some seq then (c1.port p).stalls + 1 else 1

/-- The port as a NAK leaves it that does not take it down. -/
def Core.replayed (c : Core) (p seq : Nat) : Core :=
  ((c.release p (fun s => s == seq)).setPort p (fun x => { x with stallSeq := some seq, stalls := c.replays p seq })).inc (portKey p Reg.seifReplay) 1

theorem linkNak_eq (c : Core) (p seq : Nat) (known : ∃ r ∈ (c.port p).replay, r.1 = seq) : linkNak c p seq =
    if c.replays p seq > 8 then (c.release p (fun s => s == seq)).portDown p 4
    else { c.replayed p seq with wire := (c.replayed p seq).wire ++ (((c.replayed p seq).port p).entries.filter
      (fun e => e.unsent = 0 && ((c.replayed p seq).port p).replay.any (fun r => r.2 == e.id))).map (fun e => { e.msg with port := some p, loop := (c.replayed p seq).looped p }) } := by
  have outstanding : ¬(!(c.port p).replay.any fun r => r.1 == seq) = true := by
    rw [any_of_known known]
    decide
  unfold linkNak
  exact if_neg outstanding

theorem Core.release_port (c : Core) {p : Nat} (keep : Nat → Bool) (h : p < c.seif.ports.length) :
    ((c.release p keep).port p).replay = (c.port p).replay.dropWhile (fun r => !keep r.1)
    ∧ ((c.release p keep).port p).stalls = (if ((c.port p).replay.dropWhile (fun r => !keep r.1)).length < (c.port p).replay.length then 0 else (c.port p).stalls)
    ∧ ((c.release p keep).port p).stallSeq = (if ((c.port p).replay.dropWhile (fun r => !keep r.1)).length < (c.port p).replay.length then none else (c.port p).stallSeq) := by
  unfold Core.release
  rw [c.port_setPort _ h]
  exact ⟨rfl, rfl, rfl⟩

theorem Core.replays_stalled (c : Core) {p seq e : Nat} {rest : List (Nat × Nat)} (h : p < c.seif.ports.length) (first : (c.port p).replay = (seq, e) :: rest)
    (same : (c.port p).stallSeq = some seq) (stalls : 8 ≤ (c.port p).stalls) : c.replays p seq > 8 := by
  obtain ⟨-, count, last⟩ := c.release_port (fun s => s == seq) h
  have kept : ((c.port p).replay.dropWhile fun r => !(r.1 == seq)) = (c.port p).replay := by
    rw [first]
    exact List.dropWhile_cons_of_neg (by simp)
  rw [kept, if_neg (Nat.lt_irrefl _)] at count last
  unfold Core.replays
  dsimp only
  rw [last, same, count, if_pos (beq_self_eq_true _)]
  omega

theorem Core.replays_low (c : Core) {p seq : Nat} (h : p < c.seif.ports.length) (low : ¬((c.port p).stallSeq = some seq ∧ 8 ≤ (c.port p).stalls)) : ¬c.replays p seq > 8 := by
  obtain ⟨-, count, last⟩ := c.release_port (fun s => s == seq) h
  unfold Core.replays
  dsimp only
  split
  case isFalse => decide
  case isTrue again =>
    rw [beq_iff_eq, last] at again
    rw [count]
    split at again
    · cases again
    · rename_i stuck
      rw [if_neg stuck]
      have few : ¬8 ≤ (c.port p).stalls := fun few => low ⟨again, few⟩
      omega

theorem Core.inc_port (c : Core) (key n p : Nat) : (c.inc key n).port p = c.port p := rfl

theorem Core.replayed_port (c : Core) {p : Nat} (seq : Nat) (h : p < c.seif.ports.length) :
    (c.replayed p seq).port p = { (c.release p (fun s => s == seq)).port p with stallSeq := some seq, stalls := c.replays p seq } := by
  rw [Core.replayed, Core.inc_port, Core.port_setPort]
  rw [Core.release, Core.setPort_length]
  exact h

theorem Core.replayed_state (c : Core) (p seq : Nat) : (c.replayed p seq).portState p = c.portState p := by
  have kept : Paired c (c.release p fun s => s == seq) := (Paired.refl c).setPort
  refine (Paired.inc kept.setPort (unpaired_of_offset ?_ ?_ ?_)).portState p <;> · unfold portKey bankKey Reg.seifReplay qreg; omega

theorem Core.portDown_facts (c : Core) (p : Nat) {why : Nat} (hw : why < 16) : (c.portDown p why).portState p = 3 ∧ (c.portDown p why).fld (portKey p Reg.seifPortState) 3 4 = why := by
  unfold Core.portDown
  extract_lets k c1 c2
  have linked : Linked k := .inr (.inr ⟨p, rfl⟩)
  have counted : Paired ((c.setFld k 0 3 3).setFld k 3 4 why) c1 := by
    refine (Paired.refl _).inc (unpaired_of_offset ?_ ?_ ?_) <;> · unfold portKey bankKey Reg.seifDowns qreg; omega
  have gone : Paired ((c.setFld k 0 3 3).setFld k 3 4 why) (c2.evacuate p) := Paired.evacuate (Paired.setPort counted.raise)
  constructor
  · rw [gone.portState]
    exact (Core.fld_setFld_other _ _ _ (by decide) (.inl (by decide))).trans (Core.fld_setFld_eq _ _ _ (by decide))
  · rw [gone.fld linked, Core.fld_setFld_eq _ _ _ (by decide)]
    exact Nat.mod_eq_of_lt hw

/-! ### Credits and heartbeats (R527, R531) -/

theorem Core.drainPort_empty (c : Core) (p : Nat) (empty : (c.port p).entries = []) : c.drainPort p = c := by
  unfold Core.drainPort
  rw [empty]
  exact ite_self _

theorem linkCredit_eq (c : Core) (p n : Nat) {wadi cls : Nat} (hw : wadi < 16) (hc : cls < 2) :
    linkCredit c p wadi cls n = (c.setPort p (fun y => { y with credits := sset 0 y.credits (wadi * 2 + cls) (sget 0 y.credits (wadi * 2 + cls) + n) })).drainPort p := by
  unfold linkCredit
  rw [Nat.mod_eq_of_lt hw, Nat.mod_eq_of_lt hc]

theorem heartbeatSend_eq (c : Core) (p : Nat) (linkUp : c.trained p = true) (due : (c.port p).hbSent + 10000 ≤ c.up) :
    heartbeatSend c p = (c.setPort p (fun x => { x with hbSent := c.up })).put p (.linkHeartbeat c.node p) :=
  if_neg (by rw [linkUp, decide_eq_false (Nat.not_lt.mpr due)]; decide)

theorem Core.port_setPort_ne (c : Core) {p q : Nat} (f : PortSt → PortSt) (h : q ≠ p) : (c.setPort p f).port q = c.port q := by
  unfold Core.port Core.setPort
  exact nth_setNth_ne _ _ _ _ _ h

/-! ### The end of an aborted packet (R537) -/

theorem abortEnd_eq (c : Core) (p wadi : Nat) : abortEnd c p (c.port p).rxSeq wadi =
    (c.setPort p (fun x => { x with rxSeq := (x.rxSeq + 1) % 4096, rxWait := false, asm := sdel x.asm wadi })).freeFlits p
      (wadi * 2 + (sget { cls := 0, n := 0, kept := 0, own := false } (c.port p).asm wadi).cls) (sget { cls := 0, n := 0, kept := 0, own := false } (c.port p).asm wadi).kept :=
  if_neg (not_not_intro rfl)

theorem abortEnd_port (c : Core) {p : Nat} (wadi : Nat) (h : p < c.seif.ports.length) : ((abortEnd c p (c.port p).rxSeq wadi).port p).rxSeq = ((c.port p).rxSeq + 1) % 4096
    ∧ sfind ((abortEnd c p (c.port p).rxSeq wadi).port p).asm wadi = none ∧ ((abortEnd c p (c.port p).rxSeq wadi).port p).ready = (c.port p).ready := by
  have own := c.port_setPort (fun x => { x with rxSeq := (x.rxSeq + 1) % 4096, rxWait := false, asm := sdel x.asm wadi }) h
  rw [abortEnd_eq]
  refine ⟨?_, ?_, ?_⟩
  · exact (Core.freeFlits_keeps _ _ _ _ _ (g := fun x => x.rxSeq) (fun _ _ => rfl) fun _ _ => rfl).trans (congrArg (fun x => x.rxSeq) own)
  · rw [Core.freeFlits_keeps _ _ _ _ _ (g := fun x => x.asm) (fun _ _ => rfl) fun _ _ => rfl, own]
    exact sfind_sdel_eq _ _
  · exact (Core.freeFlits_keeps _ _ _ _ _ (g := fun x => x.ready) (fun _ _ => rfl) fun _ _ => rfl).trans (congrArg (fun x => x.ready) own)

theorem abortEnd_waits (c : Core) {p seq : Nat} (wadi : Nat) (h : p < c.seif.ports.length) (later : seq ≠ (c.port p).rxSeq) :
    (abortEnd c p seq wadi).port p = { c.port p with rxWait := true } := by
  unfold abortEnd
  dsimp only
  rw [if_pos later]
  split
  case isTrue waits =>
    generalize c.port p = x at waits ⊢
    cases x
    exact congrArg (fun b => PortSt.mk _ _ _ _ _ b _ _ _ _ _ _ _ _ _ _ _ _ _ _ _ _ _) waits
  case isFalse => exact (c.nak_facts h).1

/-! ### Allotments (R532, R555) -/

theorem seifCredit_eq (c : Core) {q v p : Nat} (hq : q < 4) (hp : p = 4 * c.fld (Reg.seifPortSel q) 0 3 + q) : seifCredit c q v =
    if (c.port p).allotSum - sget 256 (c.port p).allot (v % 16 * 2 + v / 16 % 2) + v / 2 ^ 16 % 2 ^ 13 > 8192 then
      (c.setReg (portKey p Reg.seifCredit) (field v 0 5)).raise (qpage q 8) 3
    else ((c.setReg (portKey p Reg.seifCredit) (field v 0 5)).setPort p (fun x => { x with allot := sset 256 x.allot (v % 16 * 2 + v / 16 % 2) (v / 2 ^ 16 % 2 ^ 13) })).grant p
      (v % 16 * 2 + v / 16 % 2) := by
  have wadi : field v 0 4 = v % 16 := by simp [field_eq_div_mod]
  have cls : field v 4 1 = v / 16 % 2 := field_eq_div_mod v 4 1
  have flits : field v 16 13 = v / 2 ^ 16 % 2 ^ 13 := field_eq_div_mod v 16 13
  unfold seifCredit
  rw [wadi, cls, flits, Nat.mod_eq_of_lt hq, ← hp]

theorem seifCredit_fits (c : Core) {q v p : Nat} (hq : q < 4) (hp : p = 4 * c.fld (Reg.seifPortSel q) 0 3 + q) (h : p < c.seif.ports.length)
    (fits : (c.port p).allotSum - sget 256 (c.port p).allot (v % 16 * 2 + v / 16 % 2) + v / 2 ^ 16 % 2 ^ 13 ≤ 8192) :
    sget 256 ((seifCredit c q v).port p).allot (v % 16 * 2 + v / 16 % 2) = v / 2 ^ 16 % 2 ^ 13 := by
  rw [seifCredit_eq c hq hp, if_neg (Nat.not_lt.mpr fits), Core.grant_keeps _ _ _ _ (g := fun x => x.allot) fun _ _ => rfl,
    Core.port_setPort _ _ (show p < (c.setReg _ _).seif.ports.length from h), sget_sset_eq]

theorem seifCredit_over (c : Core) {q v p : Nat} (hq : q < 4) (hp : p = 4 * c.fld (Reg.seifPortSel q) 0 3 + q)
    (more : 8192 < (c.port p).allotSum - sget 256 (c.port p).allot (v % 16 * 2 + v / 16 % 2) + v / 2 ^ 16 % 2 ^ 13) :
    (seifCredit c q v).seif = c.seif ∧ ((seifCredit c q v).reg (qpage q 8 * 4096 + 0x10)).testBit 3 = true := by
  rw [seifCredit_eq c hq hp, if_pos more]
  refine ⟨rfl, ?_⟩
  rw [Core.testBit_raise _ _ (by decide) (by decide)]
  rfl

theorem names_seifCredit : ∀ q < 4, Names (qoff q 8 0x70) 0x18 q { blk := 0x18, off := 0x070, reset := 0x1000000, rw := 0x1FFF001F } := by
  intro q hq
  have cases4 : q = 0 ∨ q = 1 ∨ q = 2 ∨ q = 3 := by omega
  rcases cases4 with rfl | rfl | rfl | rfl
  · exact ⟨by decide, by decide, by decide, by decide⟩
  · exact ⟨by decide, by decide, by decide, by decide⟩
  · exact ⟨by decide, by decide, by decide, by decide⟩
  · exact ⟨by decide, by decide, by decide, by decide⟩

theorem State.hostWord_seifCredit {s : State} (live : s.live = true) {q v : Nat} (hq : q < 4) (hv : v < 2 ^ 32) : s.hostWord (qoff q 8 0x70) v = s.on (fun c => seifCredit c q v) := by
  obtain ⟨⟨small, word⟩, page, ⟨block, strand, table⟩, reg⟩ := names_seifCredit q hq
  have offset : qoff q 8 0x70 % 4096 = 0x70 := by
    unfold qoff qpage
    omega
  rw [State.hostWord_live live, show qoff q 8 0x70 % 2 ^ 26 / 4 * 4 = qoff q 8 0x70 by omega]
  simp only [State.writeWord, page, strand, table, reg, Nat.mod_eq_of_lt hv, if_false, Bool.false_and, Bool.false_eq_true, offset, and_self, if_true]
  exact if_neg (by decide)

/-! ### Codewords and packets (R523, R524, R535) -/

theorem Core.lostWord_facts (c : Core) {p : Nat} (h : p < c.seif.ports.length) :
    ((c.inc (portKey p Reg.seifFecUncorr) 1).nak p).port p = { c.port p with rxWait := true }
    ∧ ((c.inc (portKey p Reg.seifFecUncorr) 1).nak p).wire = c.wire ++ [c.linkMsg p (.linkNak (c.port p).rxSeq)] := by
  obtain ⟨own, sent⟩ := (c.inc (portKey p Reg.seifFecUncorr) 1).nak_facts (p := p) h
  rw [Core.inc_port] at own sent
  refine ⟨own, sent.trans ?_⟩
  rw [Core.linkMsg, Core.linkMsg, show Reg.seifFecUncorr = fun q => qreg q 8 0x78 from rfl, c.looped_inc p (by decide) (by decide)]
  rfl

theorem Core.inc_wire (c : Core) (key n : Nat) : (c.inc key n).wire = c.wire := rfl

theorem Core.inc_seif (c : Core) (key n : Nat) : (c.inc key n).seif = c.seif := rfl

theorem Core.decoded_facts (c : Core) {p : Nat} (w : Codeword) (waves : List (List Nat)) (h : p < c.seif.ports.length) :
    (c.decoded p w waves).port p = { c.port p with rxCount := w.count % 2 ^ 20 } ∧ (c.decoded p w waves).wire = c.wire ∧ (c.decoded p w waves).looped p = c.looped p
    ∧ p < (c.decoded p w waves).seif.ports.length := by
  have own := c.port_setPort (fun x => { x with rxCount := w.count % 2 ^ 20 }) h
  have length : p < (c.setPort p fun x => { x with rxCount := w.count % 2 ^ 20 }).seif.ports.length := by
    rw [Core.setPort_length]
    exact h
  unfold Core.decoded
  extract_lets errors c0
  split
  · exact ⟨own, rfl, rfl, length⟩
  · refine ⟨(c0.inc_port _ _ p).trans own, c0.inc_wire _ _, ?_, (c0.inc_seif _ _).symm ▸ length⟩
    rw [show Reg.seifFecCorr = fun q => qreg q 8 0x74 from rfl, c0.looped_inc p (by decide) (by decide)]
    rfl

/-- A codeword whose one data flit is in order: the flit is taken in and acknowledged. -/
theorem codewordReceive_data (c : Core) {p : Nat} (w : Codeword) (waves : List (List Nat)) (h : p < c.seif.ports.length) (linkUp : c.trained p = true)
    (few : symbolErrors waves (codewordOf w) ≤ 15) (data : flitKind (flitHeader w.flits 0) = 1) (first : (flitOf (flitHeader w.flits 0)).hchk = true)
    (order : (flitOf (flitHeader w.flits 0)).seq = (c.port p).rxSeq) (small : (c.port p).rxSeq < 4096)
    (rest : ∀ i, 1 ≤ i → i < 5 → (flitOf (flitHeader w.flits i)).hchk = true ∧ flitKind (flitHeader w.flits i) = 0) :
    ∃ d : Core, d.port p = { c.port p with rxCount := w.count % 2 ^ 20 } ∧ d.wire = c.wire ∧ p < d.seif.ports.length ∧ d.looped p = c.looped p
      ∧ codewordReceive c p w waves = (d.takeFlit p (flitOf (flitHeader w.flits 0)) (flitPacket w.flits 0)).put p (.linkAck (c.port p).rxSeq) := by
  obtain ⟨own, wire, looped, inside⟩ := c.decoded_facts w waves h
  refine ⟨_, own, wire, inside, looped, ?_⟩
  have next := ((c.decoded p w waves).takeFlit_port (flitOf (flitHeader w.flits 0)) (flitPacket w.flits 0) (by rw [own]; exact order) inside).1
  rw [own] at next
  rw [codewordReceive_one c p w waves linkUp few data first rest]
  dsimp only at next ⊢
  rw [next, if_neg (by omega), show (((c.port p).rxSeq + 1) % 4096 + 4095) % 4096 = (c.port p).rxSeq by omega]

theorem Core.takeFlit_stays_wire (c : Core) (p : Nat) (f : Flit) (head : Nat) (order : f.seq = (c.port p).rxSeq) (stays : c.flitStays p f head = true) :
    (c.takeFlit p f head).wire = c.wire := by
  rw [c.takeFlit_eq p f head order, if_pos stays]
  rfl

/-- A complete packet: its number is among those accepted; one accepted before changes no register and sends nothing. -/
theorem packetReceive_facts (c : Core) (p : Nat) (m : Packet) {r : Nat × Asm} (found : (c.port p).ready.find? (fun r => r.1 == m.wadi && r.2.n == packetFlits m.blocks) = some r) :
    m.hopseq ∈ sget [] (packetReceive c p m).seif.hopRx (portGroup (c.portRole p) * 16 + m.wadi)
    ∧ (m.hopseq ∈ sget [] c.seif.hopRx (portGroup (c.portRole p) * 16 + m.wadi) → (packetReceive c p m).seif.hopRx = c.seif.hopRx ∧ (packetReceive c p m).regs = c.regs
        ∧ (packetReceive c p m).out = c.out) := by
  rw [packetReceive_eq c p m found]
  split
  case isTrue seen =>
    have kept : KeepsHops c ((c.setPort p (fun x => { x with ready := x.ready.erase r })).freeFlits p (r.1 * 2 + r.2.cls) r.2.kept) := (KeepsHops.refl c).setPort.freeFlits
    refine ⟨?_, fun _ => ⟨kept.hops, Core.grant_regs _ _ _, Core.grant_out _ _ _⟩⟩
    rw [kept.hops]
    exact List.contains_iff_mem.mp seen
  case isFalse new =>
    refine ⟨?_, fun seen => absurd (List.contains_iff_mem.mpr seen) new⟩
    rw [(Core.takesPacket_hops _ p m r).hops]
    exact (c.setPort p _).accepted_hops p m

/-- Settles O55: each command is its function of the port, whose clauses the lemmas above give. -/
theorem linkTraffic : Obligations.LinkTraffic := by
  unfold Obligations.LinkTraffic
  refine ⟨symbolErrors_stripe, fun s p awake inside => ?_⟩
  dsimp only
  refine ⟨?_, ?_, ?_, ?_, ?_, ?_, ?_, ?_, ?_, ?_, ?_, ?_, ?_, ?_, ?_⟩
  · intro linkUp w waves bad
    obtain ⟨own, sent⟩ := s.core.lostWord_facts inside
    refine ⟨_, (next_ifAwake awake _).trans (next_congr (State.on_congr (codewordReceive_bad _ _ _ _ ((s.core.trained_iff p).mpr linkUp) bad))), ?_, ?_, ?_, sent⟩
    · exact congrArg (fun x => x.rxSeq) own
    · exact congrArg (fun x => x.rxWait) own
    · exact congrArg (fun x => x.held) own
  · intro linkUp w waves few data first order small rest
    obtain ⟨d, own, wire, length, looped, e⟩ := codewordReceive_data s.core w waves inside ((s.core.trained_iff p).mpr linkUp) few data first order small rest
    have order' : (flitOf (flitHeader w.flits 0)).seq = (d.port p).rxSeq := by rw [own]; exact order
    obtain ⟨next, heard, held, regs⟩ := d.takeFlit_port _ (flitPacket w.flits 0) order' length
    rw [own] at next held
    have loop : (d.takeFlit p (flitOf (flitHeader w.flits 0)) (flitPacket w.flits 0)).looped p = s.core.looped p := (Core.looped_of_regs regs p).trans looped
    refine ⟨_, (next_ifAwake awake _).trans (next_congr (State.on_congr e)), next, heard, ?_, ?_, fun goes half => ?_⟩
    · rw [Core.put_wire, Core.linkMsg, loop]
      exact List.getLast?_concat
    · rw [Core.put_port, held, sget_sset_eq]
      cases d.flitStays p (flitOf (flitHeader w.flits 0)) (flitPacket w.flits 0)
      · exact .inl rfl
      · exact .inr rfl
    · have stays := d.flitStays_of_half p _ (flitPacket w.flits 0) goes (by rw [own]; exact half)
      refine ⟨?_, ?_⟩
      · rw [Core.put_port, held, sget_sset_eq, stays]
        rfl
      · rw [Core.put_wire, Core.linkMsg, loop, d.takeFlit_stays_wire p _ _ order' stays, wire]
  · intro down w waves
    refine (next_ifAwake awake _).trans (next_congr ((State.on_congr ?_).trans rfl))
    exact if_pos (Bool.eq_false_iff.mpr fun h => down ((s.core.trained_iff p).mp h))
  · intro m r found
    exact ⟨_, next_ifAwake awake _, packetReceive_facts s.core p m found⟩
  · intro seq a e rest first known
    exact (next_ifAwake awake _).trans (next_congr ((State.on_congr (linkAck_eq s.core p seq a e first known)).trans rfl))
  · intro seq unknown
    exact ⟨(next_ifAwake awake _).trans (next_congr ((State.on_congr (linkAck_unknown s.core p seq unknown)).trans rfl)),
      (next_ifAwake awake _).trans (next_congr ((State.on_congr (linkNak_unknown s.core p seq unknown)).trans rfl))⟩
  · intro seq e rest first same stalls
    have known : ∃ r ∈ (s.core.port p).replay, r.1 = seq := ⟨(seq, e), first ▸ List.mem_cons_self, rfl⟩
    have down : linkNak s.core p seq = (s.core.release p (fun n => n == seq)).portDown p 4 := (linkNak_eq s.core p seq known).trans (if_pos (s.core.replays_stalled inside first same stalls))
    obtain ⟨state, why⟩ := (s.core.release p fun n => n == seq).portDown_facts p (why := 4) (by decide)
    refine ⟨_, (next_ifAwake awake _).trans (next_congr (State.on_congr down)), ?_, ?_⟩
    · dsimp only
      exact state
    · dsimp only
      exact why
  · intro seq known low
    have again := (linkNak_eq s.core p seq known).trans (if_neg (s.core.replays_low inside low))
    have own := s.core.replayed_port seq inside
    refine ⟨_, (next_ifAwake awake _).trans (next_congr (State.on_congr again)), s.core.replayed_state p seq, ?_, ?_⟩
    · exact congrArg (fun x => x.stallSeq) own
    · exact (congrArg (fun x => x.replay) own).trans (s.core.release_port _ inside).1
  · intro wadi cls n hw hc
    have e := linkCredit_eq s.core p n hw hc
    refine ⟨(next_ifAwake awake _).trans (next_congr ((State.on_congr e).trans rfl)), fun empty => ?_⟩
    have own := s.core.port_setPort (fun y => { y with credits := sset 0 y.credits (wadi * 2 + cls) (sget 0 y.credits (wadi * 2 + cls) + n) }) inside
    have idle := e.trans (Core.drainPort_empty _ p (by rw [own]; exact empty))
    refine ⟨_, (next_ifAwake awake _).trans (next_congr (State.on_congr idle)), ?_, rfl, rfl⟩
    rw [own]
    exact sget_sset_eq _ _ _ _
  · exact ⟨_, next_ifAwake awake _, s.core.port_setPort _ inside, fun r other => s.core.port_setPort_ne _ other, rfl, rfl⟩
  · intro linkUp due
    refine ⟨_, (next_ifAwake awake _).trans (next_congr (State.on_congr (heartbeatSend_eq s.core p ((s.core.trained_iff p).mpr linkUp) due))), ?_, rfl⟩
    exact s.core.port_setPort (fun x => { x with hbSent := s.core.up }) inside
  · exact fun wadi => ⟨_, next_ifAwake awake _, abortEnd_port s.core wadi inside⟩
  · exact fun seq wadi later => ⟨_, next_ifAwake awake _, abortEnd_waits s.core wadi inside later⟩
  · exact fun k => ⟨_, next_ifAwake awake _, rfl⟩
  · intro q word live hq hv hp
    exact ⟨_, next_congr (State.hostWord_seifCredit live hq hv), seifCredit_fits s.core hq hp inside, seifCredit_over s.core hq hp⟩
end Sys2Proof.Machine
end
